-- ==== Sys2Proof/Word.lean ====
section
/-! DEFINITION. Word types of the NZ840 and the units of its clock. -/

namespace Sys2Proof

/-- One byte of memory (R10). -/
abbrev Byte := BitVec 8
/-- One 32-bit word: a register, a binary32 value, an error-map entry. -/
abbrev Word := BitVec 32
/-- A binary32 value by its bits (R32). -/
abbrev F32 := BitVec 32
/-- A 64-bit word. -/
abbrev DWord := BitVec 64

/-- `n` nanoseconds in the model's time unit of 1/12 ns: the hall cycle (2/3 ns), the core cycle (1/2 ns) and the
converter slot (3/4 ns) are all whole in it (R4, R5, R56). -/
abbrev ns (n : Nat) : Nat := 12 * n
/-- `n` microseconds. -/
abbrev us (n : Nat) : Nat := 12000 * n
/-- `n` milliseconds. -/
abbrev ms (n : Nat) : Nat := 12000000 * n
/-- `n` seconds. -/
abbrev sec (n : Nat) : Nat := 12000000000 * n
/-- `n` hall cycles of 1.5 GHz. -/
abbrev hallCycles (n : Nat) : Nat := 8 * n
/-- `n` correction-die cycles of 2.0 GHz. -/
abbrev coreCycles (n : Nat) : Nat := 6 * n

end Sys2Proof
end

