-- ==== Sys2Proof/Syntax.lean ====
section
/-! DEFINITION. The commands of the block: one constructor per row of the opcode table. The table gives a row no bits
and no fields; the operands below are what each row's rule says the command brings from outside. -/

namespace Sys2Proof

/-- Who posts a flight, a job or a descriptor: a stream processor, the sparse engine, a management processor, an attention engine (R75,
R127, R132, R148). -/
inductive Poster where
  | sp | spe | mp | att
  deriving DecidableEq, Repr

/-- What a launch works for (R261): one decode step, prefill of so many tokens, or neither. -/
inductive Work where
  | decode
  | prefill (tokens : Nat)
  | other
  deriving DecidableEq, Repr

/-- A submission entry of a host ring: the ring, its index there, and its 64 bytes (R290). -/
structure SubEntry where
  sq : Nat
  index : Nat
  bytes : BitVec 512
  deriving DecidableEq, Repr

/-- A checkpoint of a mirrored stream (R272): its position, bytes 0 to 135 of the stream entry, the token identifiers of its
positions, its count table, the detokeniser's pending items (ordinal, and identifier or byte), the runs of generated tokens (first
ordinal, first position), and GENERATED at the latest open or continue. -/
structure Checkpoint where
  pos : Nat
  entry : List Byte
  tokens : List Nat
  counts : List Byte
  held : List (Nat × Nat)
  spans : List (Nat × Nat)
  baseGen : Nat
  deriving DecidableEq, Repr

/-- What the body of a MAIL message says; the spec names the uses and leaves the layout to the firmware (R259, R271, R273, R355). -/
inductive Mail where
  /-- prefill the stream of the sender: context and prompt -/
  | prefillRequest (stream ctx : Nat) (tokens : List Nat)
  /-- stop that prefill -/
  | prefillStop (stream : Nat)
  /-- the hidden state of a prefill's last token: the shipment is complete -/
  | prefillEnd (stream : Nat)
  /-- set up a standby entry for the sender's stream: its entry, token history and runs of generated tokens -/
  | mirrorSetup (stream ring : Nat) (entry : List Byte) (tokens : List Nat) (spans : List (Nat × Nat))
  | mirrorDrop (stream : Nat)
  /-- a drawn token of the sender's stream -/
  | tokenLog (stream ordinal token : Nat)
  | heartbeat
  /-- open, or close, a receive window for a flow of the sender -/
  | openWindow (flow base len counter : Nat)
  | closeWindow (flow : Nat)
  | other
  deriving DecidableEq, Repr

/-- A request at a directory port for a line (R299): does it ask for ownership, and the bytes it then stores (offset in the line, byte). -/
structure LineReq where
  port : Nat
  own : Bool
  stores : List (Nat × Byte)
  deriving DecidableEq, Repr

/-- An aligned 8-byte access of a scratchpad bank's narrow view (R323), for a task (R327): a read, or the 8 bytes it stores. -/
structure NarrowAccess where
  task : Nat
  addr : Nat
  store : Option (List Byte)
  deriving DecidableEq, Repr

/-- On whose behalf the tier mover runs an NVMe command (R341). -/
inductive NvmeOwner where
  | load (key : Nat)
  | park (st : Nat)
  | pages
  | firmware
  deriving DecidableEq, Repr

/-- An NVMe command of the tier mover: blocks of a volume on one root port, and the device memory they move from or to (R339,
R341). -/
structure NvmeCmd where
  port : Nat
  write : Bool
  vol : Nat
  lba : Nat
  blocks : Nat
  addr : Nat
  owner : NvmeOwner
  /-- the last command of its operation -/
  last : Bool
  deriving DecidableEq, Repr

/-- What the power-up self-test finds (R380, R414): does the core pass; border dies that pass; stacks that train; tier-1 channels that
train, with the capacity of each, and those that fail; stream processors (bit n) and management processors that pass;
galleries that fail (512 · hall + gallery); dead converters (array, converter); drives that work and that fail; the scan image as the flash gives it, a failing CRC read once more (R410). -/
structure Bist where
  core : Bool
  borders : List Nat
  hbmStacks : List Nat
  channels : List (Nat × Nat)
  channelsOut : List Nat
  sps : BitVec 32
  mps : List Nat
  galleries : List Nat
  deadConvs : List (Nat × Nat)
  drives : List Nat
  drivesOut : List Nat
  scanImage : List Byte
  deriving DecidableEq, Repr

/-- Nothing found yet. -/
def Bist.none : Bist where
  core := false
  borders := []
  hbmStacks := []
  channels := []
  channelsOut := []
  sps := 0#32
  mps := []
  galleries := []
  deadConvs := []
  drives := []
  drivesOut := []
  scanImage := []


/-- The commands the block takes: one constructor per row of the table. -/
inductive Instr where
  /-- FLIGHT_LAUNCH (R75). A launch entry is posted to a gallery's launch queue and the gallery issues its first step when it is ready and idle. -/
  | flightLaunch (h g : Nat) (entry : BitVec 256) (poster : Poster) (work : Work := .other)
  /-- WAKE (R79). A WAKE step brings the target gallery toward READY, subject to the wake-ahead distance. -/
  | wake (h g : Nat) (differ : Bool := false)
  /-- ARM_REF (R79). An ARM_REF step turns on the target gallery's reference buffer, and starts the power ramp if the gallery is in DEEP. -/
  | armRef (h g : Nat) (differ : Bool := false)
  /-- REMOTE_POWER_STEP_ARRIVAL (R79). A WAKE or ARM_REF reaches its target gallery DELAY ns after issue plus the delivery time, and takes effect there. -/
  | remotePowerStepArrival
  /-- SLEEP (R79). A SLEEP step names the power state the gallery enters at the following HALT. -/
  | sleep (h g : Nat) (differ : Bool := false)
  /-- STAGE (R80). A STAGE step loads 32 blocks of an activation parcel into a free stager slot. -/
  | stage (h g : Nat) (differ : Bool)
  /-- EVAL (R81). An EVAL step builds the pass list of a staged segment and hands it to the arrays of its mask. -/
  | eval (h g : Nat) (differ : Bool)
  /-- CARRY (R81). A CARRY step loads the carry segment of its EVAL's slot and takes that EVAL's mask, budget, f and coefficients. -/
  | carry (h g : Nat) (differ : Bool)
  /-- CARRY_SEGMENT_LOADED (R81). The last carry block has loaded, 32 hall cycles after the CARRY issued, and the carry passes are built. -/
  | carrySegmentLoaded (h g : Nat)
  /-- PASS_WINDOW_OPEN (R57). A pass opens its integration window once a hold bank is free and the reference buffer is ready, and drives its rows. -/
  | passWindowOpen (h g : Nat)
  /-- PASS_CODES_READY (R60). A pass's sweep has converted slot 68, all codes are ready for correction, and the hold bank is freed. -/
  | passCodesReady (h g : Nat)
  /-- RESIDUAL_SUMS_READY (R111). The residual engine's error-map sums for an EVAL are ready. -/
  | residualSumsReady (h g : Nat)
  /-- EVAL_RESULTS_READY (R123). An EVAL's corrected results and its checks complete and the results become available to the landing. -/
  | evalResultsReady (h g : Nat)
  /-- SEQUENCER_PAIR_RESET (R70). The 2 µs reset of the sequencer pair ends. -/
  | sequencerPairReset (h g : Nat)
  /-- FLIGHT_RERUN (R84). A stopped flight is re-run from its first step, suppressing already-completed outbound operations and satisfied WAITs. -/
  | flightRerun (h g : Nat)
  /-- LAND (R87). A LAND step adds an array's combined corrected outputs into an accumulation group once they are ready. -/
  | land (h g : Nat) (differ : Bool)
  /-- CLOSE (R93). A CLOSE step adds the expected chained partials, writes the group in its output format, and closes the group. -/
  | close (h g : Nat) (differ : Bool)
  /-- CHAIN (R90). A CHAIN step adds the expected chained partials and sends the group to a target gallery's group as a chained partial. -/
  | chain (h g : Nat) (differ : Bool)
  /-- CHAINED_PARTIAL_ARRIVAL (R92). A chained partial reaches a landing's inbox and is held, added, or refused so that its sender waits. -/
  | chainedPartialArrival (h g : Nat)
  /-- TILE_DRAIN_END (R93). A closing tile's drain ends, and LANDs waiting on that tile may proceed. -/
  | tileDrainEnd (h g tile : Nat)
  /-- WAIT (R85). A WAIT step blocks until an arrival counter reaches VALUE, consuming it if asked. -/
  | wait (h g : Nat) (differ : Bool := false)
  /-- WAIT_TIMEOUT (R85). A WAIT's timeout expires, and the flight ends with TIMEOUT. -/
  | waitTimeout (h g : Nat)
  /-- SIGNAL (R85). A SIGNAL step adds INC to a counter once the flight's earlier writes to that die have arrived. -/
  | signal (h g : Nat) (differ : Bool)
  /-- FENCE (R85). A FENCE step blocks until every condition whose bit is set holds. -/
  | fence (h g : Nat) (differ : Bool := false)
  /-- BRANCH_ROUTE (R83). A BRANCH_ROUTE step skips SKIP steps when the named route-word bit equals SENSE. -/
  | branchRoute (h g : Nat) (differ : Bool := false)
  /-- LOOP (R82). A LOOP step repeats its body or falls through, updating its level's index. -/
  | loop (h g : Nat) (differ : Bool := false)
  /-- GAP (R83). A GAP step idles the gallery for LENGTH ns, during which background units may run. -/
  | gap (h g : Nat) (differ : Bool := false)
  /-- GAP_END (R83). A GAP's LENGTH elapses and the flight continues. -/
  | gapEnd (h g : Nat) (differ : Bool := false)
  /-- HALT (R76). A HALT step ends the flight once outbound operations have arrived, and writes the flight completion record. -/
  | halt (h g : Nat) (differ : Bool := false)
  /-- GALLERY_READY (R73). A waking gallery's power becomes good and the gallery reaches READY; a held ARM_REF turns the buffer on. -/
  | galleryReady (h g : Nat)
  /-- REF_READY (R59). The reference buffer has been on for 2 µs and held passes may run. -/
  | refReady (h g : Nat)
  /-- LIGHT_IDLE_EXPIRY (R73). An idle READY gallery's LIGHT_IDLE expires and it enters LIGHT. -/
  | lightIdleExpiry (h g : Nat)
  /-- DEEP_IDLE_EXPIRY (R73). A LIGHT gallery's DEEP_IDLE expires and it enters DEEP when its landing is empty. -/
  | deepIdleExpiry (h g : Nat)
  /-- BUDGET_PERIOD_BOUNDARY (R94). A 1 ms period begins and every background activity's used time returns to zero. -/
  | budgetPeriodBoundary
  /-- SURVEY_UNIT (R190). The survey starts one ZERO, LADDER, SENTINEL or ROWZERO unit on one array. -/
  | surveyUnit (h g : Nat)
  /-- FOCUS_TIMEOUT_EXPIRY (R194). The focus array takes no sample for FOCUS_TIMEOUT, and the partial estimate is discarded. -/
  | focusTimeoutExpiry (h g : Nat)
  /-- MAX_AGE_EXPIRY (R204). An array's AGE_EQ reaches MAX_AGE days and the array becomes due for touch-up. -/
  | maxAgeExpiry (h g a : Nat)
  /-- INITIAL_SURVEY (R201). A newly bound gallery runs its initial survey units and commits coefficients without limits. -/
  | initialSurvey (h g : Nat)
  /-- MARGIN_EVALUATION (R206). Every 24 h of powered time, each owned gallery's margin metrics are evaluated and its margin plan applied. -/
  | marginEvaluation
  /-- SCRUB_UNIT (R128). A scrub unit drives one row window of one array with random codes and checks the result. -/
  | scrubUnit (h g : Nat)
  /-- TOUCHUP_ROW (R177). Touch-up reprograms one row of a due array within budget, window and arbiter limits. -/
  | touchupRow (h g : Nat)
  /-- SCAN_UNIT (R411). A 1 µs scan unit tests one partition of an idle gallery and compares its signature. -/
  | scanUnit (h g diffs : Nat)
  /-- SCAN_ROTATION_LATE (R413). A gallery does not complete a rotation within 86,400 s and LATE is set. -/
  | scanRotationLate (h g : Nat)
  /-- DME_JOB_POST (R132). A DME job descriptor is posted to the management or normal queue. -/
  | dmeJobPost (desc : BitVec 512) (task : Nat) (poster : Poster)
  /-- DME_JOB_START (R137). The DME takes the next job, checks it, and streams its weights and block terms. -/
  | dmeJobStart
  /-- DME_JOB_END (R135). A DME job's last term is added; with CLOSE the group drains, is quantised and written, and the completion record is written. -/
  | dmeJobEnd
  /-- FALLBACK (R140). The host FALLBACK command sets or clears CAUSE_HOST over a matrix, a layer or a whole context. -/
  | fallback (e : SubEntry)
  /-- FALLBACK_TRIGGER (R141). After a trigger, the management processor sets cause bits, aborts affected flights and posts replacement DME jobs.
  `delay`: the ticks from the trigger to the posting, at most 2 µs. -/
  | fallbackTrigger (h g delay : Nat) (jobs : List (BitVec 512))
  /-- FALLBACK_STEP (R145). Before each step of a saturated context, N_live is set and the live set advances one token on the DME. -/
  | fallbackStep (c : Nat)
  /-- SPE_DESCRIPTOR_POST (R148). An SPE descriptor is posted to the SPE queue. -/
  | speDescriptorPost (desc : BitVec 512) (task : Nat) (poster : Poster := .sp)
  /-- GATHER (R150). The SPE gathers table elements by index. -/
  | gather
  /-- SCATTER (R150). The SPE scatters elements to a table by index, overwriting or adding. -/
  | scatter
  /-- SEGREDUCE (R150). The SPE reduces sparse segments by sum, max or min. -/
  | segreduce
  /-- TOPK (R150). The SPE selects the k best keys with their indices. -/
  | topk
  /-- INTERSECT (R150). The SPE intersects two strictly ascending sets. -/
  | intersect
  /-- ROUTE (R153). The SPE routes tokens to experts, writes route words and gate weights, and optionally posts expert launches. -/
  | route (targets : List Nat)
  /-- ATLAS_LOAD (R169). The ATLAS_LOAD command checks capacity, binds galleries and begins loading an atlas image into a context. -/
  | atlasLoad (e : SubEntry)
  /-- IMAGE_DATA_ARRIVAL (R169). Atlas image sections arrive and are translated and written to the flight region, pools, staging ring and tier 0. -/
  | imageDataArrival (c : Nat) (data : List Byte)
  /-- PROGRAM_ROW (R170). The programmer programs and verifies one row of an array and writes its error-map entries. -/
  | programRow (h g a : Nat)
  /-- LOAD_COMPLETE (R169). Every bound gallery is programmed and surveyed and the wide copies are in, so the dispatch entries are written and the context goes live. -/
  | loadComplete (c : Nat)
  /-- LOAD_WAIT_EXPIRY (R175). A load has waited longer than LOAD_WAIT for a closed window and completes with PROGRAM_WINDOW. -/
  | loadWaitExpiry (c : Nat)
  /-- BROADCAST_RX_TIMEOUT (R178). A broadcast receiver gets no data for 100 ms and its load completes with ABORTED. -/
  | broadcastRxTimeout (c : Nat)
  /-- CONTEXT_UNLOAD (R180). The CONTEXT_UNLOAD command ends streams if forced and releases every resource of a context. -/
  | contextUnload (e : SubEntry)
  /-- ROTATION_REPROGRAM (R181). A pool gallery is reprogrammed with its next rotating layer once its current layer's launches are done and the interval has passed. -/
  | rotationReprogram (h g : Nat)
  /-- WEAR_TABLE_WRITE (R183). Every 600 s, the wear counts are written to the NV log. -/
  | wearTableWrite
  /-- VPROG_OFF_DELAY (R174). 10 ms after the last programming ends, VPROG is disabled. -/
  | vprogOffDelay
  /-- VPROG_PG_TIMEOUT (R367). PG_PROG is not good within 25 ms of EN_PROG, so programming stops and loads complete with DEVICE_FAULT. -/
  | vprogPgTimeout
  /-- ATTENTION_JOB_POST (R220). An attention job descriptor is posted to the attention queue. -/
  | attentionJobPost (desc : BitVec 512) (task : Nat)
  /-- ATTENTION_JOB_START (R220). A job starts once its input counter condition holds and no earlier job of its stream and layer is unfinished. -/
  | attentionJobStart
  /-- DECODE (R229). A DECODE job appends the new token's key and value and attends the full or retrieved pages. -/
  | decode
  /-- PREFILL (R233). A PREFILL job appends and attends bucketed entries, with or without masks. -/
  | prefill
  /-- BACKWARD (R247). A BACKWARD job recomputes attention and writes the gradients dQ, dK and dV. -/
  | backward
  /-- ATTENTION_UNIT (R222). A free engine takes the next unit of the oldest started job once its pages are cached. -/
  | attentionUnit
  /-- PAGE_FETCH_DONE (R240). A demand fetch or prefetch brings a page into the page cache, promoting or poisoning it as required. -/
  | pageFetchDone (bad : Bool)
  /-- PAGE_SPILL (R241). With free slots below the low mark, the page mover spills pages down a tier until the high mark is reached. -/
  | pageSpill
  /-- PARK_COMPLETE (R243). Once the stream's jobs are done, the park record and pages are moved to the target tier and EXPIRES is set. -/
  | parkComplete (st : Nat)
  /-- RESUME_COMPLETE (R245). A resume's tables and pinned pages have arrived in tier 0 and the stream returns to its prior state. -/
  | resumeComplete (st : Nat)
  /-- PARK_EXPIRY (R244). A park reaches EXPIRES and its slots and record are freed. -/
  | parkExpiry (st : Nat)
  /-- STREAM_OPEN (R255). The STREAM_OPEN command checks parameters and capacity and admits a new stream. -/
  | streamOpen (e : SubEntry) (params : BitVec 512) (input : List Byte)
  /-- STREAM_CONTINUE (R254). The STREAM_CONTINUE command sends new input to a DONE stream, which enters PREFILL. -/
  | streamContinue (e : SubEntry) (input : List Byte)
  /-- STREAM_CANCEL (R253). The STREAM_CANCEL command ends a stream and discards any input it had not finished. -/
  | streamCancel (e : SubEntry)
  /-- STREAM_CLOSE (R254). The STREAM_CLOSE command frees a DONE stream and its pages. -/
  | streamClose (e : SubEntry)
  /-- STREAM_PARK (R243). The STREAM_PARK command names a target tier and TTL for a stream. -/
  | streamPark (e : SubEntry)
  /-- STREAM_RESUME (R245). The STREAM_RESUME command begins restoring a parked stream. -/
  | streamResume (e : SubEntry)
  /-- STREAM_QUERY (R254). The STREAM_QUERY command copies a stream entry to a host address. -/
  | streamQuery (e : SubEntry)
  /-- STREAM_READ_TOKENS (R254). The STREAM_READ_TOKENS command copies token identifiers or their bytes from the token history. -/
  | streamReadTokens (e : SubEntry)
  /-- STREAM_MIRROR (R271). The STREAM_MIRROR command sets up or drops a standby copy of a stream on a peer. -/
  | streamMirror (e : SubEntry) (answer : Nat)
  /-- PROFILE_SET (R276). The PROFILE_SET command applies an operating profile to every gallery of a context between flights. -/
  | profileSet (e : SubEntry)
  /-- TOKENISER_LOAD (R267). The TOKENISER_LOAD command checks and installs a context's tokeniser image. -/
  | tokeniserLoad (e : SubEntry)
  /-- PREFILL_SCHEDULE (R257). The prefill scheduler takes admitted streams, locally or to a peer, and posts bucketed PREFILL work. -/
  | prefillSchedule
  /-- SAMPLER_DRAW (R262). The sampler turns a stream's logits into a token, updates counts, checks stop conditions, and delivers the token. -/
  | samplerDraw (st addr v : Nat)
  /-- SHIPMENT_ACK (R260). The origin acknowledges a prefill shipment and the peer frees its slots and entry. -/
  | shipmentAck (st : Nat)
  /-- TOKEN_LOG_ACK (R271). The standby acknowledges a mirrored token log, and the active package writes the token record. -/
  | tokenLogAck (st ordinal : Nat)
  /-- MIRROR_HEARTBEAT (R271). Every 100 µs, the active package sends a heartbeat to each standby. -/
  | mirrorHeartbeat
  /-- CHECKPOINT_COMPLETE (R272). A checkpoint's state and pages have arrived on the standby, which marks its buffer current. -/
  | checkpointComplete (st j : Nat) (cp : Checkpoint)
  /-- MIRROR_TIMEOUT (R273). The standby receives no heartbeat for MIRROR_TIMEOUT and takes over. -/
  | mirrorTimeout (st : Nat)
  /-- DOORBELL (R285). A doorbell write sets a submission ring's tail or another ring's head. -/
  | doorbell (fn ring value : Nat)
  /-- SUBMISSION_FETCH (R287). A fetched submission entry returns; it is accepted if its PHASE matches, and otherwise a re-read is scheduled. -/
  | submissionFetch (ring : Nat) (entry : Option (BitVec 512))
  /-- SUBMISSION_REREAD (R287). A re-read of a submission entry is issued after its delay. -/
  | submissionReread (ring : Nat)
  /-- NOP (R290). The NOP command completes with no effect. -/
  | nop (e : SubEntry)
  /-- RING_ENABLE (R296). A write to RING_CTRL.ENABLE enables a ring at index 0, or disables it after the entry in progress. -/
  | ringEnable (fn : Nat) (on : Bool)
  /-- RING_RESUME (R287). A write of 1 to RING_CTRL.RESUME restarts fetching on a parked ring. -/
  | ringResume (fn : Nat)
  /-- INTERRUPT_TIMER (R296). The oldest unsignalled entry of a ring reaches INT_USEC and an MSI-X message is sent. -/
  | interruptTimer (ring : Nat)
  /-- HOST_RESET (R300). An FLR, hot reset or link-down resets functions, disables their rings and ends their DMA channels. -/
  | hostReset (port : Nat) (func : Option Nat) (down : Bool := false)
  /-- COHERENT_LINE_INVALIDATE (R286). A host store to a COHERENT ring line invalidates the device's cached copy. -/
  | coherentLineInvalidate (addr : Nat)
  /-- DIRECTORY_REQUEST (R299). L1 ownership requests for a line are granted in ascending port order after any write-back completes. -/
  | directoryRequest (line : Nat) (reqs : List LineReq) (writeBack : Option Nat)
  /-- DMA_START (R310). The DMA_START command posts a channel entry to a DMA engine for the host. -/
  | dmaStart (e : SubEntry)
  /-- DMA_CHANNEL_POST (R309). A channel entry is posted to a DMA engine's queue and checked. -/
  | dmaChannelPost (n : Nat) (entry : BitVec 256)
  /-- DMA_CHANNEL_START (R308). An engine starts its next queued channel and fetches the first descriptor. -/
  | dmaChannelStart (n : Nat)
  /-- DMA_DESCRIPTOR_ARRIVAL (R314). A fetched descriptor arrives and is checked, and the next fetch is issued. -/
  | dmaDescriptorArrival (n : Nat) (data : BitVec 512)
  /-- COPY (R313). A COPY descriptor moves elements along its loop nest, with wrap and counter increments. -/
  | copy (n : Nat) (data : List Byte)
  /-- FILL (R312). A FILL descriptor writes its pattern to every destination element. -/
  | fill (n : Nat)
  /-- DMA_FENCE (R312). A FENCE descriptor completes once every write the channel has issued has arrived. -/
  | dmaFence (n : Nat)
  /-- DMA_SIGNAL (R312). A SIGNAL descriptor adds to a counter once the channel's earlier writes to that memory have arrived. -/
  | dmaSignal (n : Nat)
  /-- DMA_CHANNEL_END (R315). A channel ends and its completion record is written, or held while the queue is full or unmapped. -/
  | dmaChannelEnd (n : Nat)
  /-- DMA_RESPONSE_TIMEOUT (R319). A fetch, read, flush or acknowledgment has no response within TIMEOUT and the channel ends. -/
  | dmaResponseTimeout (n kind : Nat)
  /-- DMA_ENGINE_DISABLE (R321). Writing ENABLE = 0 drops the running channel and every queued channel without records. -/
  | dmaEngineDisable (fn n : Nat)
  /-- DMA_ENGINE_ENABLE (R321). Writing ENABLE = 1 restarts the engine with an empty queue and zeroed counters. -/
  | dmaEngineEnable (fn n : Nat)
  /-- DMA_CQ_HEAD_WRITE (R315). Advancing DMA_CQ_HEAD frees room so that a held channel's record is written and the engine continues. -/
  | dmaCqHeadWrite (n v : Nat)
  /-- WRITE_ARRIVAL (R317). A write arrives at its memory, and the increments that wait on it reach their arrival counters. -/
  | writeArrival (k : Nat) (narrow : List NarrowAccess := [])
  /-- COUNTER_SET (R330). A host write of CNT_VALUE sets the selected arrival counter. -/
  | counterSet (fn v : Nat)
  /-- SCRATCHPAD_BURST_ISSUE (R325). A wide access or burst that was waiting on the scoreboard or bank cycles issues and registers its range. -/
  | scratchpadBurstIssue (m a n : Nat) (write sb : Bool) (narrow : List NarrowAccess := [])
  /-- PATROL_READ (R345). The patrol reads a line in the background, correcting or marking it. -/
  | patrolRead (a result : Nat) (access : Option (Option Nat) := none)
  /-- MEMORY_TRAINING_LOST (R346). A tier-1 channel loses training at run time and is retired at once. -/
  | memoryTrainingLost (c : Nat) (parity : Bool := false)
  /-- NVME_COMPLETION (R341). An NVMe command completes; an error status leads to one retry, and a second failure is marked or ends the operation. -/
  | nvmeCompletion (cmd : NvmeCmd) (error : Bool)
  /-- NVME_COMMAND_TIMEOUT (R341). An NVMe command has no completion within 2 s and is aborted or its controller is reset. -/
  | nvmeCommandTimeout (cmd : NvmeCmd) (abortDone : Bool)
  /-- DRIVE_READY_TIMEOUT (R341). A drive is not ready 10 s after a controller reset and is retired. -/
  | driveReadyTimeout (port : Nat)
  /-- DRIVE_REMOVED (R341). A root port reports its drive removed, and the drive is retired. -/
  | driveRemoved (port : Nat)
  /-- DATA_FLIT (R350). A data flit is received, accepted in SEQ order, or discarded and NAKed. -/
  | dataFlit (l : Nat) (ok : Bool) (vc : Nat) (som eom : Bool) (seq : Nat) (payload : List Byte)
  /-- ACK (R349). An ACK record releases replay-buffer flits up to SEQ. -/
  | ack (l seq : Nat)
  /-- NAK (R350). A NAK record makes the sender resend from SEQ. -/
  | nak (l seq : Nat)
  /-- CREDIT (R351). A CREDIT record returns flit buffers on a VC. -/
  | credit (l vc n : Nat)
  /-- HELLO (R353). A HELLO record identifies the peer and may isolate the link. -/
  | hello (l pkg domain inc plink : Nat)
  /-- RESET (R357). A RESET record ends the peer's incarnation, closes its windows and aborts transfers to it. -/
  | reset (l pkg inc : Nat)
  /-- ACK_TIMER (R350). 1 µs passes without an ACK being sent, so one is sent. -/
  | ackTimer (l : Nat)
  /-- HELLO_TIMER (R353). Every 100 µs, a link sends HELLO. -/
  | helloTimer (l : Nat)
  /-- LINK_SILENCE_TIMEOUT (R356). A link receives no flit for 2 µs, or loses lock, and goes down. -/
  | linkSilenceTimeout (l : Nat)
  /-- LINK_TRAINING_RETRY (R373). Every 1 s, a link that failed to train retries training. -/
  | linkTrainingRetry (l : Nat)
  /-- ADVERT_TIMER (R354). Every 1 ms, a package floods its link-state advert. -/
  | advertTimer
  /-- ADVERT (R354). A link-state advert is received, forwarded if newer, and routes are recomputed. -/
  | advert (pkg inc seq : Nat) (links : List (Nat × Nat)) (slots : Nat)
  /-- WRITE (R355). A WRITE message is written into its receive window and its counter incremented, or dropped. -/
  | write (install : Option (Nat × Nat))
  /-- MAIL (R355). A MAIL message is delivered to the destination firmware mailbox. -/
  | mail (mail : Mail)
  /-- BCAST (R358). A BCAST message is delivered locally and forwarded on every child edge when credit allows. -/
  | bcast
  /-- LINK_REENABLE (R352). Writing FAB_LINK_CTRL.REENABLE retrains a retired link. -/
  | linkReenable (fn : Nat)
  /-- LINK_HOLD (R352). Writing FAB_LINK_CTRL.HOLD retires the link and holds it down. -/
  | linkHold (fn : Nat)
  /-- VDD_AON_GOOD (R363). VDD_AON power-good rises and the always-on domain begins AON_ON. -/
  | vddAonGood
  /-- AON_ON (R363). AON_ON completes 2 ms after VDD_AON is good and the package enters STANDBY. -/
  | aonOn (straps : Nat)
  /-- VDD_AON_LOSS (R362). VDD_AON falls below its power-good level and the package goes OFF. -/
  | vddAonLoss
  /-- MAIN_OK_RISE (R362). A filtered rise of MAIN_OK starts WAKING from STANDBY, or starts the HOLDUP exit count. -/
  | mainOkRise
  /-- MAIN_OK_FALL (R382). A filtered fall of MAIN_OK enters HOLDUP from RUN, or abandons a wake. -/
  | mainOkFall
  /-- HANDOVER_END (R382). The hand-over has written its journal, wear table and header, and rails 1 to 6 power down. -/
  | handoverEnd (dur : Nat) (written : Option Nat) (wear : Bool)
  /-- MAIN_OK_STABLE (R384). With the hand-over ended, MAIN_OK has been high for 100 ms and HOLDUP ends into WAKING. -/
  | mainOkStable
  /-- POWER_GOOD_RISE (R365). A rail's power-good rises during REG_CHECK, and its settle delay starts. -/
  | powerGoodRise (r : Nat)
  /-- RAIL_SETTLE_DELAY (R365). 100 µs after a rail is good, the next rail is enabled or OSC_CHECK starts. -/
  | railSettleDelay
  /-- RAIL_PG_TIMEOUT (R365). A rail is not good within 25 ms and REG_CHECK fails. -/
  | railPgTimeout
  /-- POWER_GOOD_FALL (R368). A good rail's power-good falls: in RUN the package enters HOLDUP with cause 1, and in WAKING the step fails. -/
  | powerGoodFall (r : Nat)
  /-- RAIL_OFF_TIMEOUT (R366). A rail's power-good falls, or 5 ms pass, during power-down and the next rail is disabled. -/
  | railOffTimeout
  /-- CRYSTAL_EDGE_TIMEOUT (R370). No crystal edge is seen within 1 ms of OSC_CHECK, and the step fails with cause 1. -/
  | crystalEdgeTimeout
  /-- PLL_LOCKED (R370). Every PLL locks, the time base starts, VDD_CORE is set to V_HI and BIST begins. -/
  | pllLocked
  /-- PLL_LOCK_TIMEOUT (R370). Some PLL does not lock within 2 ms and OSC_CHECK fails with cause 2. -/
  | pllLockTimeout (locked : Nat)
  /-- BIST_DONE (R414). Power-up self-test completes, units are left out as found, and SURVEY_BASELINE begins. -/
  | bistDone (found : Bist)
  /-- WAKE_STEP_TIMEOUT (R375). The timeout of BIST or SURVEY_BASELINE expires and the step fails with cause 6. -/
  | wakeStepTimeout
  /-- SURVEY_BASELINE_DONE (R374). The baseline units end and the package reaches READY and enters RUN. -/
  | surveyBaselineDone (failed : List Nat)
  /-- WAKE_RETRY_DELAY (R376). After a failed attempt, the 10 ms retry wait ends and the step is tried again. -/
  | wakeRetryDelay
  /-- PERST_DEASSERT (R379). PERST# is deasserted, and the port's PCIe controller leaves reset once OSC_CHECK has ended. -/
  | perstDeassert (port speed width : Nat) (cxl : Bool)
  /-- RETRY (R378). Sideband PWR_CMD RETRY in HALTED starts WAKING with fresh attempt counts. -/
  | retry
  /-- HANDOVER (R378). Sideband PWR_CMD HANDOVER or GLB_CTRL.HANDOVER in RUN enters HOLDUP with cause 2. -/
  | handover (fn : Option Nat)
  /-- SMB_READ_PWR_STATUS (R378). Sideband command 0x00 returns PWR_STATUS. -/
  | smbReadPwrStatus
  /-- SMB_READ_PWR_FAIL (R378). Sideband command 0x01 returns PWR_FAIL. -/
  | smbReadPwrFail
  /-- SMB_READ_PWR_RAILS (R378). Sideband command 0x02 returns PWR_RAILS. -/
  | smbReadPwrRails
  /-- SMB_READ_PWR_BOOT (R378). Sideband command 0x03 returns PWR_BOOT. -/
  | smbReadPwrBoot
  /-- SMB_READ_INCARNATION (R378). Sideband command 0x04 returns INCARNATION. -/
  | smbReadIncarnation
  /-- CORE_CLOCK_CHANGE (R372). The management processor switches the correction-die clock between 2.0 and 1.5 GHz and ramps VDD_CORE. -/
  | coreClockChange
  /-- TIMEBASE_TICK (R371). At each always-on tick, each die corrects its time-base copy by at most 2 ns. -/
  | timebaseTick (diffs : List Int)
  /-- HALL_PLL_RELOCK (R373). A hall leaving QUIET has its converter PLL relocked. -/
  | hallPllRelock (h : Nat)
  /-- TMON_REQUEST (R392). Writing TMON_REQ with GO queues a software conversion. -/
  | tmonRequest (fn : Option Nat) (d k v : Nat)
  /-- TMON_URGENT_REQUEST (R392). TMON_REQ with URGENT aborts the running conversion and converts at once. -/
  | tmonUrgentRequest (fn : Option Nat) (d k v : Nat) (running : Bool)
  /-- VR_ALERT (R392). VR_ALERT# is asserted and, with TMON_URGENT.EN, raises an urgent conversion. -/
  | vrAlert (running : List Nat)
  /-- TMON_CONVERSION_DONE (R390). A conversion ends, and its calibrated result is written with its validity marks. -/
  | tmonConversionDone (d k : Nat) (raw : Int)
  /-- TMON_SCAN (R396). Every 100 µs, each converter scans its die's rails and the inlet, and die power and inlet temperature are formed. -/
  | tmonScan (codes : List (Nat × Nat × List Int))
  /-- TMON_CROSSCHECK (R394). Every 10 ms, each die's two converters compare their conversions of the internal reference. -/
  | tmonCrosscheck (codes : List (Nat × Nat × List Int))
  /-- CROSSCHECK_REPEAT (R394). 100 µs after a failing cross-check, the check is repeated. -/
  | crosscheckRepeat (codes : List (Nat × Nat × List Int))
  /-- TMON_REF_ENABLE (R391). REF_EN is set and the converter's reference buffer turns on. -/
  | tmonRefEnable (fn d k : Nat)
  /-- TMON_REF_READY (R391). The reference buffer has been on for 100 µs and REF_READY is set. -/
  | tmonRefReady (d k : Nat)
  /-- ZERO (R395). Calibration OP ZERO takes 64 conversions to form the candidate offset. -/
  | zero (fn d k g : Nat) (raws : List Int)
  /-- FULL (R395). Calibration OP FULL takes 64 conversions and writes the new gain pair if it lies within limits. -/
  | full (fn d k g : Nat) (raws : List Int)
  /-- SAVE (R395). Calibration OP SAVE stores the converter's four pairs in the NV log. -/
  | save (fn d k : Nat)
  /-- TMON_CAL_DONE (R395). A calibration command's 64 µs ends and BUSY clears. -/
  | tmonCalDone (d k : Nat)
  /-- THERMAL_MODEL_UPDATE (R398). Every 100 µs, the thermal model advances and its estimates are tested against every limit. -/
  | thermalModelUpdate
  /-- THROTTLE_EXIT (R401). Every estimate has stayed below THROTTLE_C − 5 °C for 1 s and the throttle ends. -/
  | throttleExit
  /-- INLET_HOLD_EXPIRY (R396). With no valid inlet reading for 1 s, the model switches to INLET_MAX. -/
  | inletHoldExpiry
  /-- DIAGNOSTIC (R417). Once no flight runs on a suspect gallery, the diagnostic scan, checks and survey run. `request`: a management processor
  requests suspect (R126); bit a of `retire`: the management function retires array a (R184). -/
  | diagnostic (h g : Nat) (request : Bool := false) (retire : Nat := 0)
  /-- DIAGNOSTIC_END (R418). The diagnostic ends, and SUSPECT is cleared or arrays or the gallery are retired and re-placement starts. -/
  | diagnosticEnd (h g : Nat) (shared : Bool) (failed : List (Nat × Option Nat))
  /-- STEP_REPLAY (R422). Once its outstanding operations end, a failed stream step is rolled back and run again from layer 0. -/
  | stepReplay (st cause layer : Nat)
  /-- SP_WATCHDOG_TIMEOUT (R423). A stream processor's check-in is 100 µs late, so it is stopped and its streams pass on. -/
  | spWatchdogTimeout (n : Nat)
  /-- MP_HEARTBEAT (R424). Every 10 µs, the active management processor sends its journal and heartbeat to the standby. -/
  | mpHeartbeat
  /-- MP_HEARTBEAT_TIMEOUT (R424). The standby receives nothing for 30 µs and takes over, or, with none left, the package enters HOLDUP with cause 3. -/
  | mpHeartbeatTimeout
  /-- SNAPSHOT (R426). The SNAPSHOT command schedules a latch instant. -/
  | snapshot (e : SubEntry)
  /-- SNAPSHOT_LATCH (R427). At the instant, every latching register latches, and the command completes with its EPOCH. -/
  | snapshotLatch
  /-- SRAM_MARCH (R416). Test engine test 1 saves, march-tests and restores on-chip SRAM chunks. -/
  | sramMarch (fn : Nat)
  /-- TIER_MARCH (R416). Test engine test 2 march-tests tier chunks. -/
  | tierMarch (fn : Nat)
  /-- LOOPBACK (R416). Test engine test 3 injects known currents into every front end of an array and converts them. -/
  | loopback (fn : Nat)
  /-- REFERENCE (R416). Test engine test 4 converts an array's reference columns and compares them with their levels. -/
  | reference (fn : Nat)
  /-- SCAN (R416). Test engine test 5 runs a complete scan rotation on an unowned or suspect gallery. -/
  | scan (fn : Nat)
  /-- LINK (R416). Test engine test 6 loop-tests a held link. -/
  | link (fn : Nat)
  /-- TMON (R416). Test engine test 7 checks a converter's reference and short channels at each gain. -/
  | tmon (fn : Nat)
  /-- TEST_END (R415). A test ends, and RESULT, DETAIL and DONE are set. -/
  | testEnd (failed : Option Nat)
  /-- NVLOG_DATA_READ (R438). A read of NVLOG_DATA returns the NV log word and advances NVLOG_ADDR. -/
  | nvlogDataRead (fn : Nat)
  /-- TB_LO_READ (R387). A read of TB_LO latches the time base's upper bits for the next TB_HI read. -/
  | tbLoRead
  /-- REGISTER_WRITE (R11). A write to a register without a row of its own updates RW, W1C or W1S fields, or is ignored. -/
  | registerWrite (fn off v : Nat) (width : Nat := 4)
  /-- CXL_MEM_REQUEST (R286). A host read or write over CXL.mem reaches the exposed tier-1 range through the host's coherence engine; a write clears a mark and a read of a marked line returns poison. -/
  | cxlMemRequest (off : Nat) (data : Option (List Byte))
  /-- MEMORY_TEMPERATURE_REPORT (R335). An HBM stack or a DIMM thermal sensor reports a temperature crossing 85 °C, and the controller doubles or restores its refresh rate. -/
  | memoryTemperatureReport (mem unit : Nat) (hot : Bool)
  /-- LINK_TRAINING_END (R347). Training of a Zemlink link ends: the link comes up on two lanes or one, exchanges HELLO and floods an advert, or the attempt fails and counts toward retirement. -/
  | linkTrainingEnd (l lanes pkg domain inc plink : Nat)
  /-- CRYSTAL_RUNS (R363). The crystal starts running, and the always-on domain switches its clock from the internal oscillator to the crystal and sets XTAL_OK. -/
  | crystalRuns
  /-- CROSSCHECK_NO_RESULT (R394). A converter produces no result for 10 µs after taking a cross-check request and is treated as disagreeing, with code 0xFFF. -/
  | crosscheckNoResult (d k : Nat) (other : Option Int)
  deriving DecidableEq, Repr

end Sys2Proof
end

