-- ==== Sys2Proof/Config.lean ====
section
/-! DEFINITION. What one package fixes and what the spec leaves open. An opaque constant has no body here: nothing proved of the model
depends on its value. The model's own choices: log 2 free values (DESIGN CHOICE); log 8 converter codes (DEDUCED, DESIGN CHOICE); log 21
NV log as manufactured (DESIGN CHOICE); log 24 programming and scrub codes (DEDUCED, DESIGN CHOICE); log 29 fallback (DEDUCED, DESIGN
CHOICE); log 32 atlas loads (DEDUCED, DESIGN CHOICE); log 33 attention and the key-value store (DEDUCED, DESIGN CHOICE); log 34 serving
(DEDUCED, DESIGN CHOICE); log 35 fabric (DEDUCED, DESIGN CHOICE). -/

namespace Sys2Proof

/-- Departure of the `k`-th converter code from the ideal code (R54: the real converter's gain, offset and noise). -/
opaque Config.codeError : Nat → Int
/-- A free number: the `k`-th value drawn where the spec leaves a value open. -/
opaque Config.freeNat : Nat → Nat
/-- Level in quarter levels that the `k`-th programming pulse leaves a cell at, from its level, the pulse's direction and
its amplitude (R170: the pulse's effect on the cell is analogue). -/
opaque Config.pulseMove : Nat → Int → Int → Int → Int
/-- Draw `i` of the shift register of a scrub unit seeded with the given time, whose polynomial the spec leaves open (R128). -/
opaque Config.scrubDraw : Nat → Nat → Nat
/-- Figure `i` of the model with image identity `x`: W_fixed, multiply-accumulates per token, MoE layers, and for each MoE
layer, four figures on from 8: top-k, experts and weights of an expert (R145: the firmware's knowledge of the image). -/
opaque Config.modelFigure : Nat → Nat → Nat
/-- Logical blocks of a namespace of the drive on a root port, which the drive's Identify data give (R338, R339). -/
opaque Config.nsBlocks : Nat → Nat → Nat
/-- Package serial number, fused (R436). -/
opaque Config.serial : BitVec 64
/-- V_HI in mV, fused; the spec gives 760 to 850 (R436). -/
opaque Config.vHi : Fin 91
/-- V_LO in mV less 700, fused; the spec gives 700 to 760 (R436). -/
opaque Config.vLo : Fin 61
/-- Fused parameter of the thermal model by its THERM_PARAM_SEL index, as a binary32 (R397, R406). -/
opaque Config.thermParam : Nat → BitVec 32
/-- Contents of the NV log region as the package leaves manufacture: wear table, factory deviations, oscillator counts,
GAIN_NOM, telemetry calibration (R183, R200, R395, R437). -/
opaque Config.nvFactory : Nat → BitVec 8
/-- First line, in the central store, of a context's region and of its dispatch table, and line of the placement list of
matrix `m` of context `c`: the firmware's layout of the central store, which the spec leaves to it (R138, R166). -/
opaque Config.centralLine : Nat → Fin 25165824
opaque Config.dispatchLine : Nat → Fin 25165824
opaque Config.placementLine : Nat → Nat → Fin 25165824
/-- First line of the tier-1 KV pool within tier 1, which the management processor sets (R218). -/
opaque Config.kv1Line : Nat
/-- First line, within tier 0, of a stream's token history and of its count table: the firmware's choice (R250, R265). -/
opaque Config.historyLine : Nat → Nat
opaque Config.countsLine : Nat → Nat
/-- Body of the `k`-th MAIL message, whose layout the spec leaves to the firmware (R355). -/
opaque Config.mailBody : Nat → List (BitVec 8)
/-- Hidden state of an input's last token, which the galleries leave where the firmware has its landings write it (R260). -/
opaque Config.hiddenState : Nat → List (BitVec 8)

end Sys2Proof
end

