-- ==== Sys2Proof/Machine/Bits.lean ====
section
/-! DEFINITION. Bit fields, sign extension, byte order and the integer rounding every chapter shares (R10, R11, R12). -/

namespace Sys2Proof.Machine

/-- Field NAME[hi:lo] of a word (R11), as a number. -/
def fld {n : Nat} (v : BitVec n) (hi lo : Nat) : Nat := (v.toNat >>> lo) % 2 ^ (hi + 1 - lo)

/-- Bit `i` of a word. -/
def bit {n : Nat} (v : BitVec n) (i : Nat) : Bool := v.getLsbD i

/-- The word whose field [hi:lo] holds `x` and whose other bits are zero. -/
def place (n hi lo x : Nat) : BitVec n := BitVec.ofNat n ((x % 2 ^ (hi + 1 - lo)) <<< lo)

/-- `v` with field [hi:lo] replaced by `x`. -/
def setFld {n : Nat} (v : BitVec n) (hi lo x : Nat) : BitVec n :=
  (v &&& ~~~ (place n hi lo (2 ^ (hi + 1 - lo) - 1))) ||| place n hi lo x

/-- One bit as a number. -/
def b2n (b : Bool) : Nat := if b then 1 else 0

/-- Two's-complement value of the low `w` bits of `x`. -/
def signed (w x : Nat) : Int :=
  let y := x % 2 ^ w
  if 2 * y < 2 ^ w then (y : Int) else (y : Int) - (2 ^ w : Nat)

/-- The `w`-bit two's-complement encoding of an integer. -/
def unsigned (w : Nat) (x : Int) : Nat := (x % (2 ^ w : Nat)).toNat

/-- Clamp to a closed range. -/
def clampI (lo hi x : Int) : Int := if x < lo then lo else if hi < x then hi else x

/-- `num / den` rounded to an integer, ties to even (R12; `round_half_even` of the pseudocode). -/
def rhe (num : Int) (den : Nat) : Int :=
  let q := num.fdiv den
  let r := num - q * den
  if 2 * r < den then q
  else if (den : Int) < 2 * r then q + 1
  else if q % 2 = 0 then q else q + 1

/-- `ceil (a / b)` over the naturals; 0 when `b` is 0. -/
def cdiv (a b : Nat) : Nat := if b = 0 then 0 else (a + b - 1) / b

/-- The value of bytes in little-endian order (R10). -/
def leNat : List Byte → Nat
  | [] => 0
  | b :: bs => b.toNat + 256 * leNat bs

/-- `k` bytes of a number in little-endian order (R10). -/
def natLE : Nat → Nat → List Byte
  | 0, _ => []
  | k + 1, x => BitVec.ofNat 8 x :: natLE k (x / 256)

/-- Insert before the first element that may stand after it. -/
def insertBy {α : Type} (le : α → α → Bool) (x : α) : List α → List α
  | [] => [x]
  | y :: ys => if le x y then x :: y :: ys else y :: insertBy le x ys

/-- Sort by an order; elements of equal rank keep theirs. -/
def sortBy {α : Type} (le : α → α → Bool) (xs : List α) : List α := xs.foldr (insertBy le) []

/-- The list `[f 0, …, f (n-1)]`. -/
def tabulate {α : Type} (n : Nat) (f : Nat → α) : List α := (List.range n).map f

/-- Sum of a list of integers. -/
def isum : List Int → Int
  | [] => 0
  | x :: xs => x + isum xs

/-- Cut a list into pieces of `k` (the last may be shorter), at most `fuel` of them. -/
def chunks {α : Type} (k : Nat) : Nat → List α → List (List α)
  | 0, _ => []
  | _ + 1, [] => []
  | fuel + 1, xs => xs.take k :: chunks k fuel (xs.drop k)

/-- Least natural `r` with `r * r ≥ n`, that is `ceil (√ n)`. -/
def ceilSqrt (n : Nat) : Nat := ((List.range (n + 1)).find? (fun r => decide (n ≤ r * r))).getD n

/-- Cyclic-redundancy check CRC-32C (Castagnoli), bit by bit, reflected; the polynomial is the reversed 0x1EDC6F41. -/
def crc32cByte (c : BitVec 32) (b : Byte) : BitVec 32 :=
  (List.range 8).foldl (fun (a : BitVec 32) _ =>
    if a.getLsbD 0 then (a >>> 1) ^^^ 0x82F63B78#32 else a >>> 1) (c ^^^ b.setWidth 32)

/-- CRC-32C of a byte string. -/
def crc32c (bs : List Byte) : BitVec 32 := ~~~ (bs.foldl crc32cByte 0xFFFFFFFF#32)

end Sys2Proof.Machine
end

