-- ==== Sys2Proof/Machine/Regs.lean ====
section
/-! DEFINITION. The register tables of BAR0, field by field as masks: what software may write, what a write of 1 clears or
sets, the reset value, who may write and what latches on SNAPSHOT (R11, R433, R434, and each chapter's register rule).
The rows follow the spec's register tables; a field's meaning is given where a command uses it. -/

namespace Sys2Proof.Machine

/-- One register, or `count` registers `stride` apart. -/
structure RegDef where
  name : String
  base : Nat
  stride : Nat
  count : Nat
  reset : Nat
  rw : Nat
  w1c : Nat
  w1s : Nat
  wo : Nat
  mgmt : Bool
  latch : Nat
  deriving DecidableEq, Repr

/-- Registers of a gallery window, offsets from its base (R434), part 1. -/
def galRegs1 : List RegDef := [
  ⟨"GAL_CONV_FS", 0x40, 1, 1, 0x55443, 0x77777, 0, 0, 0, false, 0⟩,
  ⟨"GAL_DRIVE", 0x44, 1, 1, 3, 3, 0x400, 0, 0, false, 0⟩,
  ⟨"GAL_PASS_MAIN", 0x48, 1, 1, 0, 0, 0, 0, 0, false, 0xFFFFFFFF⟩,
  ⟨"GAL_PASS_CARRY", 0x4C, 1, 1, 0, 0, 0, 0, 0, false, 0xFFFFFFFF⟩,
  ⟨"GAL_PASS_LOWPASS", 0x50, 1, 1, 0, 0, 0, 0, 0, false, 0xFFFFFFFF⟩,
  ⟨"GAL_PASS_TRANSPOSE", 0x54, 1, 1, 0, 0, 0, 0, 0, false, 0xFFFFFFFF⟩,
  ⟨"GAL_STATUS", 0, 1, 1, 0, 0, 0, 0, 0, false, 0⟩,
  ⟨"GAL_PC", 4, 1, 1, 0, 0, 0, 0, 0, false, 0⟩,
  ⟨"GAL_SEQ_CTRL", 8, 1, 1, 2, 3, 0, 0, 0, false, 0⟩,
  ⟨"GAL_SLEEP", 0xC, 1, 1, 0xA0001, 0x3FF03FF, 0, 0, 0, false, 0⟩,
  ⟨"GAL_ROUTE_LO", 0x10, 1, 1, 0, 0, 0, 0, 0, false, 0⟩,
  ⟨"GAL_ROUTE_HI", 0x14, 1, 1, 0, 0, 0, 0, 0, false, 0⟩,
  ⟨"GAL_SEQ_MISMATCH", 0x18, 1, 1, 0, 0, 0, 0, 0, false, 0xFFFFFFFF⟩,
  ⟨"GAL_FLIGHTS", 0x1C, 1, 1, 0, 0, 0, 0, 0, false, 0xFFFFFFFF⟩,
  ⟨"GAL_BUDGET_LIMIT", 0x20, 1, 1, 0xA320A14, 0xFFFFFFFF, 0, 0, 0, false, 0⟩,
  ⟨"GAL_BUDGET_USED_A", 0x24, 1, 1, 0, 0, 0, 0, 0, false, 0xFFFFFFFF⟩,
  ⟨"GAL_BUDGET_USED_B", 0x28, 1, 1, 0, 0, 0, 0, 0, false, 0xFFFFFFFF⟩,
  ⟨"GAL_BUDGET_WAITED", 0x2C, 1, 1, 0, 0, 0xF, 0, 0, false, 0⟩,
  ⟨"GAL_CORR_CTRL", 0x60, 1, 1, 0x104, 0x30F, 0, 0, 0, false, 0⟩,
  ⟨"GAL_CORR_STATUS", 0x64, 1, 1, 0, 0, 1, 0, 0, false, 0⟩,
  ⟨"GAL_EMAP_USED", 0x68, 1, 1, 0, 0, 0, 0, 0, false, 0⟩,
  ⟨"GAL_CHK_DONE", 0x6C, 1, 1, 0, 0, 0, 0, 0, false, 0xFFFFFFFF⟩,
  ⟨"GAL_CHK_MISMATCH", 0x70, 1, 1, 0, 0, 0, 0, 0, false, 0xFFFFFFFF⟩,
  ⟨"GAL_CHK_SKIPPED", 0x74, 1, 1, 0, 0, 0, 0, 0, false, 0xFFFFFFFF⟩]

/-- Registers of a gallery window, offsets from its base (R434), part 2. -/
def galRegs2 : List RegDef := [
  ⟨"GAL_SCRUB_UNITS", 0x7C, 1, 1, 0, 0, 0, 0, 0, false, 0xFFFFFFFF⟩,
  ⟨"GAL_CHK_LAST", 0x78, 1, 1, 0, 0, 0, 0, 0, false, 0⟩,
  ⟨"GAL_OWNER", 0xC0, 1, 1, 0, 0, 0, 0, 0, false, 0⟩,
  ⟨"GAL_PROG", 0xC4, 1, 1, 0, 0, 0, 0, 0, false, 0⟩,
  ⟨"GAL_SURVEY_CTRL", 0x80, 1, 1, 0xA0E96, 0xFFFFFF, 0, 0, 0, false, 0⟩,
  ⟨"GAL_SURVEY_STATUS", 0x84, 1, 1, 0x60, 0, 0, 0, 0, false, 0⟩,
  ⟨"GAL_SURVEY_SAMPLES", 0x88, 1, 1, 0, 0, 0, 0, 0, false, 0⟩,
  ⟨"GAL_SURVEY_UNITS", 0x8C, 1, 1, 0, 0, 0, 0, 0, false, 0xFFFFFFFF⟩,
  ⟨"GAL_SURVEY_COMMITS", 0x90, 1, 1, 0, 0, 0, 0, 0, false, 0xFFFFFFFF⟩,
  ⟨"GAL_SURVEY_REJECTS", 0x94, 1, 1, 0, 0, 0, 0, 0, false, 0xFFFFFFFF⟩,
  ⟨"GAL_SURVEY_DISCARDS", 0x98, 1, 1, 0, 0, 0, 0, 0, false, 0xFFFFFFFF⟩,
  ⟨"GAL_DRIFT_SEL", 0x9C, 1, 1, 0, 0x1F, 0, 0, 0, false, 0⟩,
  ⟨"GAL_DRIFT_DATA", 0xA0, 1, 1, 0, 0, 0, 0, 0, false, 0xFFFFFFFF⟩,
  ⟨"GAL_MARGIN", 0xA4, 1, 1, 0, 0, 0, 0, 0, false, 0xFFFFFFFF⟩,
  ⟨"GAL_SCAN", 0xD0, 1, 1, 0, 0, 0, 0, 0, false, 0xFFFFFFFF⟩,
  ⟨"GAL_SCAN_AGE", 0xD4, 1, 1, 0, 0, 0, 0, 0, false, 0xFFFFFFFF⟩]

/-- Registers of a gallery window, offsets from its base (R434). -/
def galRegs : List RegDef := galRegs1 ++ galRegs2

/-- Registers of a telemetry converter window (R405), part 1. -/
def tmonRegs1 : List RegDef := [
  ⟨"TMON_CTRL", 0, 1, 1, 0, 5, 0, 0, 0, true, 0⟩,
  ⟨"TMON_REQ", 4, 1, 1, 0, 0x7F, 0, 0, 0x180, true, 0⟩,
  ⟨"TMON_RESULT", 8, 1, 1, 0, 0, 0x8000000, 0, 0, true, 0⟩,
  ⟨"TMON_AUTO", 0xC, 1, 1, 0xFF, 0xFFFFFFFF, 0, 0, 0, true, 0⟩,
  ⟨"TMON_CAL", 0x10, 4, 4, 0, 0xFFFFFFFF, 0, 0, 0, true, 0⟩,
  ⟨"TMON_CALCMD", 0x20, 1, 1, 0, 0xC, 0x20, 0, 3, true, 0⟩,
  ⟨"TMON_XCHK", 0x24, 1, 1, 0, 0, 0, 0, 0, true, 0xFFFFFFFF⟩,
  ⟨"TMON_CONVS", 0x28, 1, 1, 0, 0, 0, 0, 0, true, 0xFFFFFFFF⟩,
  ⟨"TMON_ABORTS", 0x2C, 1, 1, 0, 0, 0, 0, 0, true, 0xFFFFFFFF⟩,
  ⟨"TMON_URGENT", 0x30, 1, 1, 0, 0xFF, 0, 0, 0, true, 0⟩]

/-- Registers of a telemetry converter window (R405). -/
def tmonRegs : List RegDef := tmonRegs1

/-- Registers of a DMA engine window (R332), part 1. -/
def dmaRegs1 : List RegDef := [
  ⟨"DMA_ENG_CTRL", 0, 1, 1, 1, 1, 0, 0, 0, true, 0⟩,
  ⟨"DMA_ENG_CFG", 4, 1, 1, 0x810000, 0xFFFFFFF, 0, 0, 0, true, 0⟩,
  ⟨"DMA_CQ_BASE_LO", 8, 1, 1, 0, 0xFFFFFFFF, 0, 0, 0, true, 0⟩,
  ⟨"DMA_CQ_BASE_HI", 0xC, 1, 1, 0, 0xFFFFFFFF, 0, 0, 0, true, 0⟩,
  ⟨"DMA_CQ_CFG", 0x10, 1, 1, 0x1E0004, 0x1FFFFF, 0, 0, 0, true, 0⟩,
  ⟨"DMA_CQ_TAIL", 0x14, 1, 1, 0, 0, 0, 0, 0, false, 0⟩,
  ⟨"DMA_CQ_HEAD", 0x18, 1, 1, 0, 0xFFFF, 0, 0, 0, false, 0⟩,
  ⟨"DMA_ENG_STATUS", 0x1C, 1, 1, 0, 0, 0, 0, 0, false, 0⟩,
  ⟨"DMA_ENG_CHANNELS", 0x20, 1, 1, 0, 0, 0, 0, 0, false, 0xFFFFFFFF⟩,
  ⟨"DMA_ENG_DESCS", 0x24, 1, 1, 0, 0, 0, 0, 0, false, 0xFFFFFFFF⟩,
  ⟨"DMA_ENG_LINES", 0x28, 1, 1, 0, 0, 0, 0, 0, false, 0xFFFFFFFF⟩]

/-- Registers of a DMA engine window (R332). -/
def dmaRegs : List RegDef := dmaRegs1

/-- Registers at fixed BAR0 offsets (R433), part 1. -/
def mainRegs1 : List RegDef := [
  ⟨"FB_CTRL", 0xA4000, 1, 1, 0x304B0, 0xF0FFF, 0, 0, 0, false, 0⟩,
  ⟨"FB_STATUS", 0xA4004, 1, 1, 0, 0, 0, 0, 0, false, 0⟩,
  ⟨"FB_SAT_LO", 0xA4008, 1, 1, 0, 0, 0, 0, 0, false, 0⟩,
  ⟨"FB_SAT_HI", 0xA400C, 1, 1, 0, 0, 0, 0, 0, false, 0⟩,
  ⟨"DME_JOBS", 0xA4010, 1, 1, 0, 0, 0, 0, 0, false, 0xFFFFFFFF⟩,
  ⟨"DME_LINES", 0xA4014, 1, 1, 0, 0, 0, 0, 0, false, 0xFFFFFFFF⟩,
  ⟨"SPE_DESCS", 0xA4018, 1, 1, 0, 0, 0, 0, 0, false, 0xFFFFFFFF⟩,
  ⟨"SPE_ACCESSES", 0xA401C, 1, 1, 0, 0, 0, 0, 0, false, 0xFFFFFFFF⟩,
  ⟨"PROG_CTRL", 0xA5000, 1, 1, 0x3C1E640, 0xFFFFF7FF, 0, 0, 0, false, 0⟩,
  ⟨"PROG_STATUS", 0xA5004, 1, 1, 0, 0, 0, 0, 0, false, 0x7FF⟩,
  ⟨"ATLAS_CAP", 0xA5008, 1, 1, 0, 0, 0, 0, 0, false, 0⟩,
  ⟨"WEAR_SEL", 0xA500C, 1, 1, 0, 0x1FFFF, 0, 0, 0, false, 0⟩,
  ⟨"WEAR_DATA0", 0xA5010, 1, 1, 0, 0, 0, 0, 0, false, 0xFFFFFFFF⟩,
  ⟨"WEAR_DATA1", 0xA5014, 1, 1, 0, 0, 0, 0, 0, false, 0xFFFFFFFF⟩,
  ⟨"WEAR_DATA2", 0xA5018, 1, 1, 0, 0, 0, 0, 0, false, 0xFFFFFFFF⟩,
  ⟨"WEAR_DATA3", 0xA501C, 1, 1, 0, 0, 0, 0, 0, false, 0xFFFFFFFF⟩,
  ⟨"EMAP_CFG", 0xA5020, 1, 1, 0x80, 0xFF, 0, 0, 0, true, 0⟩,
  ⟨"CTX_CFG", 0xA5100, 4, 64, 0, 0xFFF3, 0, 0, 0, true, 0⟩,
  ⟨"ATT_CFG", 0x98000, 16, 64, 0x62010, 0x1FFFFF, 0, 0, 0, false, 0⟩,
  ⟨"ATT_RET", 0x98004, 16, 64, 0x2000040, 0xFFF01FF, 0, 0, 0, false, 0⟩,
  ⟨"ATT_SCALE", 0x98008, 16, 64, 0x3DB504F3, 0xFFFFFFFF, 0, 0, 0, false, 0⟩,
  ⟨"ATT_ROPE", 0x9800C, 16, 64, 0, 0x1FFFFFF, 0, 0, 0, false, 0⟩,
  ⟨"KV_CACHE_CTRL", 0x98400, 1, 1, 0x78000, 0x7FFFF, 0, 0, 0, false, 0⟩,
  ⟨"KV_SPILL", 0x98404, 1, 1, 0xA050A05, 0xFFFFFFFF, 0, 0, 0, false, 0⟩]

/-- Registers at fixed BAR0 offsets (R433), part 2. -/
def mainRegs2 : List RegDef := [
  ⟨"KV_POOL", 0x98408, 1, 1, 0x4000E0, 0xFFF1FF, 0, 0, 0, false, 0⟩,
  ⟨"KV_FREE0", 0x9840C, 1, 1, 0, 0, 0, 0, 0, false, 0xFFFFFFFF⟩,
  ⟨"KV_FREE1", 0x98410, 1, 1, 0, 0, 0, 0, 0, false, 0xFFFFFFFF⟩,
  ⟨"ATT_JOBS", 0x98414, 1, 1, 0, 0, 0, 0, 0, false, 0xFFFFFFFF⟩,
  ⟨"KV_HITS", 0x98418, 1, 1, 0, 0, 0, 0, 0, false, 0xFFFFFFFF⟩,
  ⟨"KV_MISSES", 0x9841C, 1, 1, 0, 0, 0, 0, 0, false, 0xFFFFFFFF⟩,
  ⟨"KV_SPILLS", 0x98420, 1, 1, 0, 0, 0, 0, 0, false, 0xFFFFFFFF⟩,
  ⟨"KV_PROMOTES", 0x98424, 1, 1, 0, 0, 0, 0, 0, false, 0xFFFFFFFF⟩,
  ⟨"KV_PARKS", 0x98428, 1, 1, 0, 0, 0, 0, 0, false, 0xFFFFFFFF⟩,
  ⟨"KV_EXPIRED", 0x9842C, 1, 1, 0, 0, 0, 0, 0, false, 0xFFFFFFFF⟩,
  ⟨"SRV_ROLE", 0xA6000, 1, 1, 0x808, 0xFFF, 0, 0, 0, false, 0⟩,
  ⟨"SRV_MIRROR", 0xA6004, 1, 1, 0xA10, 0xFFFF, 0, 0, 0, false, 0⟩,
  ⟨"SRV_PEER", 0xA6010, 4, 16, 0, 0x1FFF, 0, 0, 0, false, 0⟩,
  ⟨"SRV_STREAMS", 0xA6050, 1, 1, 0, 0, 0, 0, 0, false, 0xFFFFFFFF⟩,
  ⟨"SRV_TOKENS", 0xA6054, 1, 1, 0, 0, 0, 0, 0, false, 0xFFFFFFFF⟩,
  ⟨"SRV_DELIVERED", 0xA6058, 1, 1, 0, 0, 0, 0, 0, false, 0xFFFFFFFF⟩,
  ⟨"SRV_ADMITS", 0xA605C, 1, 1, 0, 0, 0, 0, 0, false, 0xFFFFFFFF⟩,
  ⟨"SRV_SHIPS", 0xA6060, 1, 1, 0, 0, 0, 0, 0, false, 0xFFFFFFFF⟩,
  ⟨"SRV_TAKEOVERS", 0xA6064, 1, 1, 0, 0, 0, 0, 0, false, 0xFFFFFFFF⟩,
  ⟨"SRV_CTX", 0xA6100, 4, 64, 0, 0xFFFF0, 0, 0, 0, false, 0⟩,
  ⟨"SRV_LOAD", 0xA6200, 4, 64, 0, 0, 0, 0, 0, false, 0xFFFFFFFF⟩,
  ⟨"HOST_CTRL", 0x50100, 1, 1, 0, 0x1FF01, 0, 0, 0, true, 0⟩,
  ⟨"HDM_BASE", 0x50104, 1, 1, 0, 0x7FF, 0, 0, 0, true, 0⟩,
  ⟨"HOST_LINK", 0x50108, 1, 1, 0, 0, 0, 0, 0, false, 0⟩]

/-- Registers at fixed BAR0 offsets (R433), part 3. -/
def mainRegs3 : List RegDef := [
  ⟨"HOST_DOORBELLS", 0x5010C, 1, 1, 0, 0, 0, 0, 0, false, 0xFFFFFFFF⟩,
  ⟨"WIN_BASE_LO", 0x70000, 16, 512, 0, 0xFFFFFFC7, 0, 0, 0, true, 0⟩,
  ⟨"WIN_LIMIT_LO", 0x70008, 16, 512, 0, 0xFFFFFFC0, 0, 0, 0, true, 0⟩,
  ⟨"WIN_BASE_HI", 0x70004, 16, 512, 0, 0xFFFFFFFF, 0, 0, 0, true, 0⟩,
  ⟨"WIN_LIMIT_HI", 0x7000C, 16, 512, 0, 0xFFFFFFFF, 0, 0, 0, true, 0⟩,
  ⟨"CNT_SEL", 0x78000, 1, 1, 0, 0xFFFF, 0, 0, 0, false, 0⟩,
  ⟨"CNT_VALUE", 0x78004, 1, 1, 0, 0xFFFFFFFF, 0, 0, 0, true, 0⟩,
  ⟨"CNT_STATUS", 0x78008, 1, 1, 0, 0, 1, 0, 0, false, 0⟩,
  ⟨"SPAD_SB_WAITS", 0x78100, 4, 9, 0, 0, 0, 0, 0, false, 0xFFFFFFFF⟩,
  ⟨"T0_CFG", 0x90000, 1, 1, 8, 0x1F, 0, 0, 0, true, 0⟩,
  ⟨"T1_MAP", 0x90004, 1, 1, 0, 0, 0, 0, 0, true, 0⟩,
  ⟨"T1_CAP", 0x90008, 1, 1, 0, 0, 0, 0, 0, true, 0xFFFFFFFF⟩,
  ⟨"ECC_CTRL", 0x9000C, 1, 1, 0x640407E8, 0xFFFF07FF, 0, 0, 0, true, 0⟩,
  ⟨"T2_DRIVES", 0x90010, 1, 1, 0, 0, 0, 0, 0, true, 0⟩,
  ⟨"ECC_CE", 0x90100, 8, 13, 0, 0, 0, 0, 0, true, 0xFFFFFFFF⟩,
  ⟨"ECC_UE", 0x90104, 8, 13, 0, 0, 0, 0, 0, true, 0xFFFFFFFF⟩,
  ⟨"T2_SEL", 0x90200, 1, 1, 0, 0x77, 0, 0, 0, true, 0⟩,
  ⟨"T2_VOL", 0x90204, 1, 1, 0, 0xF, 0, 0, 0, true, 0⟩,
  ⟨"T2_MEMBER", 0x90208, 1, 1, 0, 0xFFFFFFF7, 0, 0, 0, true, 0⟩,
  ⟨"T2_MEMBER_LBA_LO", 0x9020C, 1, 1, 0, 0xFFFFFFFF, 0, 0, 0, true, 0⟩,
  ⟨"T2_MEMBER_LBA_HI", 0x90210, 1, 1, 0, 0xFFFFFFFF, 0, 0, 0, true, 0⟩,
  ⟨"T2_KV", 0x90214, 1, 1, 0, 0xFFFFFF0F, 0, 0, 0, true, 0⟩,
  ⟨"T2_OPS", 0x90218, 1, 1, 0, 0, 0, 0, 0, true, 0xFFFFFFFF⟩,
  ⟨"FAB_ID", 0x80000, 1, 1, 0xFFF, 0xFFF, 0, 0, 0, true, 0⟩]

/-- Registers at fixed BAR0 offsets (R433), part 4. -/
def mainRegs4 : List RegDef := [
  ⟨"FAB_DOMAIN", 0x80004, 1, 1, 0, 0xFFFFFFFF, 0, 0, 0, true, 0⟩,
  ⟨"FAB_STATUS", 0x80008, 1, 1, 0, 0, 0, 0, 0, true, 0xFFFFFFFF⟩,
  ⟨"FAB_LINK_SEL", 0x80010, 1, 1, 0, 0x7F, 0, 0, 0, true, 0⟩,
  ⟨"FAB_LINK_STATUS", 0x80014, 1, 1, 0, 0, 0, 0, 0, true, 0⟩,
  ⟨"FAB_LINK_CTRL", 0x80018, 1, 1, 0, 2, 0, 0, 1, true, 0⟩,
  ⟨"FAB_LINK_CRC", 0x8001C, 1, 1, 0, 0, 0, 0, 0, true, 0xFFFFFFFF⟩,
  ⟨"FAB_LINK_REPLAYS", 0x80020, 1, 1, 0, 0, 0, 0, 0, true, 0xFFFFFFFF⟩,
  ⟨"FAB_LINK_TX", 0x80024, 1, 1, 0, 0, 0, 0, 0, true, 0xFFFFFFFF⟩,
  ⟨"FAB_LINK_RX", 0x80028, 1, 1, 0, 0, 0, 0, 0, true, 0xFFFFFFFF⟩,
  ⟨"FAB_DROPS", 0x8002C, 1, 1, 0, 0, 0, 0, 0, true, 0xFFFFFFFF⟩,
  ⟨"FAB_TREE_SEL", 0x80100, 1, 1, 0, 0xFF, 0, 0, 0, true, 0⟩,
  ⟨"FAB_TREE_MAP", 0x80104, 4, 12, 0, 0xFFFFFFFF, 0, 0, 0, true, 0⟩,
  ⟨"PWR_STATUS", 0x10000, 1, 1, 0x201, 0, 0, 0, 0, false, 0⟩,
  ⟨"PWR_FAIL", 0x10004, 1, 1, 0, 0, 0, 0, 0, false, 0xFF0000⟩,
  ⟨"PWR_RAILS", 0x10008, 1, 1, 0x101, 0, 0, 0, 0, false, 0⟩,
  ⟨"PWR_BOOT", 0x1000C, 1, 1, 0, 0, 0, 0, 0, false, 0⟩,
  ⟨"PWR_DEGRADED_LO", 0x10010, 1, 1, 0, 0, 0, 0, 0, false, 0⟩,
  ⟨"PWR_DEGRADED_HI", 0x10014, 1, 1, 0, 0, 0, 0, 0, false, 0⟩,
  ⟨"PWR_HOLDUP", 0x10018, 1, 1, 0, 0, 0, 0, 0, false, 0⟩,
  ⟨"PWR_CTRL", 0x1001C, 1, 1, 0xFF, 0xFF, 0, 0, 0, true, 0⟩,
  ⟨"CLK_STATUS", 0x20000, 1, 1, 0, 0, 0, 0, 0, false, 0⟩,
  ⟨"CLK_CORE", 0x20004, 1, 1, 0x320, 0, 0, 0, 0, false, 0xFFFF0000⟩,
  ⟨"TB_LO", 0x20008, 1, 1, 0, 0, 0, 0, 0, false, 0⟩,
  ⟨"TB_HI", 0x2000C, 1, 1, 0, 0, 0, 0, 0, false, 0⟩]

/-- Registers at fixed BAR0 offsets (R433), part 5. -/
def mainRegs5 : List RegDef := [
  ⟨"TB_SKEW", 0x20010, 1, 1, 0, 0, 0, 0, 0, false, 0⟩,
  ⟨"THERM_CTRL", 0x40000, 1, 1, 0x325F, 0xFFFF, 0x20000, 0, 0, true, 0⟩,
  ⟨"THERM_STATUS", 0x40004, 1, 1, 0x55000, 0, 0, 0, 0, false, 0⟩,
  ⟨"THERM_INLET", 0x40008, 1, 1, 0xB40000, 0xFFFF0000, 0, 0, 0, false, 0⟩,
  ⟨"THERM_PKG", 0x4000C, 1, 1, 0x154, 0, 0, 0, 0, false, 0⟩,
  ⟨"THERM_PARAM_SEL", 0x40010, 1, 1, 0, 0xFF, 0, 0, 0, true, 0⟩,
  ⟨"THERM_PARAM_DATA", 0x40014, 1, 1, 0, 0, 0, 0, 0, false, 0⟩,
  ⟨"THERM_THROTTLES", 0x40018, 1, 1, 0, 0, 0, 0, 0, false, 0xFFFFFFFF⟩,
  ⟨"THERM_UPDATES", 0x4001C, 1, 1, 0, 0, 0, 0, 0, false, 0⟩,
  ⟨"THERM_EST", 0x40100, 4, 11, 0x1540154, 0, 0, 0, 0, false, 0xFFFFFFFF⟩,
  ⟨"THERM_EST_HBM", 0x40200, 4, 8, 0x1540154, 0, 0, 0, 0, false, 0xFFFFFFFF⟩,
  ⟨"THERM_POWER", 0x40220, 4, 19, 0, 0, 0, 0, 0, false, 0xFFFFFFFF⟩,
  ⟨"FLT_STATUS", 0xA0000, 1, 1, 0, 0, 0, 0, 0, false, 0⟩,
  ⟨"FLT_SP", 0xA0004, 1, 1, 0, 0, 0, 0, 0, false, 0⟩,
  ⟨"FLT_GALLERIES", 0xA0008, 1, 1, 0, 0, 0, 0, 0, false, 0⟩,
  ⟨"FLT_SCAN_LATE", 0xA000C, 1, 1, 0, 0, 0, 0, 0, false, 0⟩,
  ⟨"FLT_SCAN_ROTATIONS", 0xA0010, 1, 1, 0, 0, 0, 0, 0, false, 0xFFFFFFFF⟩,
  ⟨"FLT_SCAN_FAILS", 0xA0014, 1, 1, 0, 0, 0, 0, 0, false, 0xFFFFFFFF⟩,
  ⟨"FLT_RETIRED", 0xA0018, 1, 1, 0, 0, 0, 0, 0, false, 0xFFFFFFFF⟩,
  ⟨"FLT_REPLAYS", 0xA001C, 1, 1, 0, 0, 0, 0, 0, false, 0xFFFFFFFF⟩,
  ⟨"FLT_REPLACE_FAILS", 0xA0020, 1, 1, 0, 0, 0, 0, 0, false, 0xFFFFFFFF⟩,
  ⟨"SNAP_STATUS", 0xA1000, 1, 1, 0, 0, 0, 0, 0, false, 0⟩,
  ⟨"SNAP_INSTANT_LO", 0xA1004, 1, 1, 0, 0, 0, 0, 0, false, 0⟩,
  ⟨"SNAP_INSTANT_HI", 0xA1008, 1, 1, 0, 0, 0, 0, 0, false, 0⟩]

/-- Registers at fixed BAR0 offsets (R433), part 6. -/
def mainRegs6 : List RegDef := [
  ⟨"TE_CTRL", 0xC0000, 1, 1, 0, 0xF, 0, 0, 0x10, true, 0⟩,
  ⟨"TE_TARGET", 0xC0004, 1, 1, 0, 0xFFFFFFFF, 0, 0, 0, true, 0⟩,
  ⟨"TE_ADDR_LO", 0xC0008, 1, 1, 0, 0xFFFFFFFF, 0, 0, 0, true, 0⟩,
  ⟨"TE_ADDR_HI", 0xC000C, 1, 1, 0, 0xFFFFFFFF, 0, 0, 0, true, 0⟩,
  ⟨"TE_LEN", 0xC0010, 1, 1, 0, 0xFFFFFFFF, 0, 0, 0, true, 0⟩,
  ⟨"TE_STATUS", 0xC0014, 1, 1, 0, 0, 8, 0, 0, true, 0⟩,
  ⟨"TE_DETAIL_LO", 0xC0018, 1, 1, 0, 0, 0, 0, 0, true, 0⟩,
  ⟨"TE_DETAIL_HI", 0xC001C, 1, 1, 0, 0, 0, 0, 0, true, 0⟩,
  ⟨"TE_RUNS", 0xC0020, 1, 1, 0, 0, 0, 0, 0, true, 0xFFFFFFFF⟩,
  ⟨"ID_PART", 0, 1, 1, 0xA00840, 0, 0, 0, 0, false, 0⟩,
  ⟨"ID_SERIAL_LO", 4, 1, 1, 0, 0, 0, 0, 0, false, 0⟩,
  ⟨"ID_SERIAL_HI", 8, 1, 1, 0, 0, 0, 0, 0, false, 0⟩,
  ⟨"ID_FUSE", 0xC, 1, 1, 0, 0, 0, 0, 0, false, 0⟩,
  ⟨"GLB_STATUS", 0x10, 1, 1, 0, 0, 0, 0, 0, false, 0⟩,
  ⟨"GLB_STRAPS", 0x14, 1, 1, 0, 0, 0, 0, 0, false, 0⟩,
  ⟨"GLB_CTRL", 0x18, 1, 1, 0, 0, 0, 0, 1, true, 0⟩,
  ⟨"GLB_SCRATCH", 0x1C, 1, 1, 0, 0xFFFFFFFF, 0, 0, 0, false, 0⟩,
  ⟨"GLB_EVENT_SEQ", 0x20, 1, 1, 0, 0, 0, 0, 0, false, 0xFFFFFFFF⟩,
  ⟨"NVLOG_DATA", 0xB0004, 1, 1, 0, 0, 0, 0, 0, false, 0⟩,
  ⟨"NVLOG_NEWEST", 0xB0008, 1, 1, 0, 0, 0, 0, 0, false, 0⟩,
  ⟨"NVLOG_WRITES", 0xB000C, 1, 1, 0, 0, 0, 0, 0, false, 0xFFFFFFFF⟩]

/-- Registers at fixed BAR0 offsets (R433). -/
def mainRegs : List RegDef := mainRegs1 ++ mainRegs2 ++ mainRegs3 ++ mainRegs4 ++ mainRegs5 ++ mainRegs6
/-- Does offset `o` name a register of the row? -/
def RegDef.covers (r : RegDef) (o : Nat) : Bool :=
  decide (r.base ≤ o) && decide ((o - r.base) % r.stride = 0) && decide ((o - r.base) / r.stride < r.count)

/-- Where a BAR0 offset lies: a gallery window, a converter window, an engine window or the fixed block (R434, R405,
R332), with the offset inside it. -/
inductive RegPlace where
  | gallery (hall gal off : Nat)
  | tmon (die conv off : Nat)
  | engine (e off : Nat)
  | fixed (off : Nat)
  deriving DecidableEq, Repr

def regPlace (o : Nat) : RegPlace :=
  if 0x100000 ≤ o ∧ o < 0x300000 ∧ 0x20000 ≤ o % 0x40000 then
    .gallery ((o - 0x100000) / 0x40000) ((o % 0x40000 - 0x20000) / 0x100) (o % 0x100)
  else if 0x30000 ≤ o ∧ o < 0x30000 + 11 * 0x400 ∧ o % 0x400 < 0x200 then
    .tmon ((o - 0x30000) / 0x400) (o % 0x400 / 0x100) (o % 0x100)
  else if 0x60000 ≤ o ∧ o < 0x60000 + 96 * 0x100 then .engine ((o - 0x60000) / 0x100) (o % 0x100)
  else .fixed o

/-- The table row of a BAR0 offset; none for a reserved offset (R11). -/
def regDef (o : Nat) : Option RegDef :=
  match regPlace o with
  | .gallery _ _ w => galRegs.find? (RegDef.covers · w)
  | .tmon _ _ w => tmonRegs.find? (RegDef.covers · w)
  | .engine _ w => dmaRegs.find? (RegDef.covers · w)
  | .fixed w => mainRegs.find? (RegDef.covers · w)

/-- Reset value of the register at a BAR0 offset; 0 where the offset is reserved. -/
def regReset (o : Nat) : Word :=
  match regDef o with
  | some r => BitVec.ofNat 32 r.reset
  | none => 0#32

/-- BAR0 offset of a gallery register (R67, R434); `k` = 512 · hall + gallery. -/
def galReg (k off : Nat) : Nat := 0x100000 + (k / 512) * 0x40000 + 0x20000 + (k % 512) * 0x100 + off

/-- BAR0 offset of a register of engine `e` (R332). -/
def engReg (e off : Nat) : Nat := 0x60000 + e * 0x100 + off

/-- BAR0 offset of a register of converter `c` (0 A, 1 B) of die `d` (R405). -/
def tmonReg (d c off : Nat) : Nat := 0x30000 + d * 0x400 + c * 0x100 + off

/-- The stored value after software writes `v` over `old` (R11): RW bits take the value, W1C bits clear, W1S bits set,
every other bit keeps. -/
def RegDef.write (r : RegDef) (old v : Word) : Word :=
  let rw := BitVec.ofNat 32 r.rw
  let w1c := BitVec.ofNat 32 r.w1c
  let w1s := BitVec.ofNat 32 r.w1s
  (((old &&& ~~~ rw) ||| (v &&& rw)) &&& ~~~ (v &&& w1c)) ||| (v &&& w1s)

end Sys2Proof.Machine
end

