-- ==== Sys2Proof/Machine/Num.lean ====
section
/-! DEFINITION. Number formats and conversions of "Narrow numbers" (R15 to R38): binary32, BF16, S8 scales, the
quantiser, carry, drive classes, blocks and parcels. -/

namespace Sys2Proof.Machine

/-! ### binary32 (R32) -/

/-- The one NaN the device writes (R32). -/
def nan32 : F32 := 0x7FC00000#32
/-- +0. -/
def zero32 : F32 := 0#32
/-- 1.0. -/
def one32 : F32 := 0x3F800000#32
/-- Positive infinity. -/
def inf32 : F32 := 0x7F800000#32

def F32.exp (x : F32) : Nat := (x.toNat >>> 23) % 256
def F32.man (x : F32) : Nat := x.toNat % 2 ^ 23
def F32.neg (x : F32) : Bool := x.getLsbD 31
def F32.isNaN (x : F32) : Bool := F32.exp x == 255 && F32.man x != 0
def F32.isInf (x : F32) : Bool := F32.exp x == 255 && F32.man x == 0
def F32.isFinite (x : F32) : Bool := F32.exp x != 255
/-- +0 or −0. -/
def F32.isZero (x : F32) : Bool := x.toNat % 2 ^ 31 == 0

/-- 2^e as a rational. -/
def pow2 (e : Int) : Rat := if 0 ≤ e then ((2 ^ e.toNat : Nat) : Rat) else 1 / ((2 ^ (-e).toNat : Nat) : Rat)

/-- The exact value of a finite binary32. -/
def F32.toRat (x : F32) : Rat :=
  let m : Nat := if F32.exp x = 0 then F32.man x else 2 ^ 23 + F32.man x
  let e : Int := (if F32.exp x = 0 then 1 else (F32.exp x : Int)) - 150
  (if F32.neg x then -1 else 1) * (m : Rat) * pow2 e

/-- How a quotient with a remainder is rounded. -/
inductive Rounding where
  | nearestEven
  | towardPos
  deriving DecidableEq, Repr

/-- Round the quotient `n / d` to an integer; for `towardPos` the value is positive. -/
def roundQuot (mode : Rounding) (n d : Nat) : Nat :=
  let q := n / d
  let r := n % d
  match mode with
  | .nearestEven => if 2 * r < d then q else if d < 2 * r then q + 1 else if q % 2 = 0 then q else q + 1
  | .towardPos => if r = 0 then q else q + 1

/-- Exponent of the binary32 interval that holds the positive value `n / d`, not below −126. -/
def binExp (n d : Nat) : Int :=
  let e0 : Int := (n.log2 : Int) - (d.log2 : Int)
  let e := if 0 ≤ e0 then (if n < d * 2 ^ e0.toNat then e0 - 1 else e0)
           else (if n * 2 ^ (-e0).toNat < d then e0 - 1 else e0)
  if e < -126 then -126 else e

/-- The magnitude bits of binary32 for the positive value `n / d`; overflow gives infinity (R32). -/
def packMag (mode : Rounding) (n d : Nat) : Nat :=
  if n = 0 then 0
  else
    let e := binExp n d
    let sh := 23 - e
    let q := if 0 ≤ sh then roundQuot mode (n * 2 ^ sh.toNat) d else roundQuot mode n (d * 2 ^ (-sh).toNat)
    let bits := (e + 126).toNat * 2 ^ 23 + q
    if 0x7F800000 ≤ bits then 0x7F800000 else bits

/-- The binary32 nearest a rational, ties to even; a zero takes the sign given (R32). -/
def F32.ofRat (r : Rat) (zeroNeg : Bool := false) : F32 :=
  if r.num = 0 then (if zeroNeg then 0x80000000#32 else 0#32)
  else BitVec.ofNat 32 (packMag .nearestEven r.num.natAbs r.den + (if r.num < 0 then 2 ^ 31 else 0))

/-- int32 to binary32, ties to even (R33). -/
def F32.ofInt (x : Int) : F32 := F32.ofRat (x : Rat)

def F32.negate (x : F32) : F32 := if F32.isNaN x then nan32 else x ^^^ 0x80000000#32
def F32.abs (x : F32) : F32 := x &&& 0x7FFFFFFF#32

/-- binary32 sum (R32). -/
def F32.add (x y : F32) : F32 :=
  if F32.isNaN x || F32.isNaN y then nan32
  else if F32.isInf x then (if F32.isInf y && F32.neg x != F32.neg y then nan32 else x)
  else if F32.isInf y then y
  else F32.ofRat (F32.toRat x + F32.toRat y) (F32.isZero x && F32.isZero y && F32.neg x && F32.neg y)

def F32.sub (x y : F32) : F32 := F32.add x (F32.negate y)

/-- binary32 product (R32). -/
def F32.mul (x y : F32) : F32 :=
  let s := F32.neg x != F32.neg y
  if F32.isNaN x || F32.isNaN y then nan32
  else if F32.isInf x || F32.isInf y then
    (if F32.isZero x || F32.isZero y then nan32 else if s then 0xFF800000#32 else inf32)
  else F32.ofRat (F32.toRat x * F32.toRat y) s

/-- binary32 quotient (R32). -/
def F32.div (x y : F32) : F32 :=
  let s := F32.neg x != F32.neg y
  if F32.isNaN x || F32.isNaN y then nan32
  else if F32.isInf x then (if F32.isInf y then nan32 else if s then 0xFF800000#32 else inf32)
  else if F32.isInf y then (if s then 0x80000000#32 else 0#32)
  else if F32.isZero y then (if F32.isZero x then nan32 else if s then 0xFF800000#32 else inf32)
  else F32.ofRat (F32.toRat x / F32.toRat y) s

/-- Integer square root of `n`, bit by bit from bit `k − 1` down, starting from `r`. -/
def isqrtFrom (n : Nat) : Nat → Nat → Nat
  | 0, r => r
  | k + 1, r => isqrtFrom n k (if (r + 2 ^ k) * (r + 2 ^ k) ≤ n then r + 2 ^ k else r)

/-- `⌊√n⌋`. -/
def isqrt (n : Nat) : Nat := isqrtFrom n (n.log2 / 2 + 1) 0

/-- Correctly rounded square root of a nonnegative rational: 40 or more bits of the root and a sticky bit decide. -/
def F32.sqrtRat (r : Rat) : F32 :=
  if r.num ≤ 0 then 0#32
  else
    let k := 40 + r.den.log2
    let n := r.num.toNat * 4 ^ k
    let q := isqrt (n / r.den)
    let sticky := if q * q * r.den = n then 0 else 1
    F32.ofRat (((2 * q + sticky : Nat) : Rat) / ((2 ^ (k + 1) : Nat) : Rat))

/-- binary32 square root (R32). -/
def F32.sqrt (x : F32) : F32 :=
  if F32.isNaN x then nan32
  else if F32.isZero x then x
  else if F32.neg x then nan32
  else if F32.isInf x then inf32
  else F32.sqrtRat (F32.toRat x)

/-- Order of two binary32 values that are not NaN; −0 equals +0. -/
def F32.lt (x y : F32) : Bool :=
  if F32.isNaN x || F32.isNaN y then false
  else if F32.isInf x then (F32.neg x && !(F32.isInf y && F32.neg y))
  else if F32.isInf y then !(F32.neg y)
  else decide (F32.toRat x < F32.toRat y)

def F32.le (x y : F32) : Bool := !(F32.isNaN x || F32.isNaN y) && !(F32.lt y x)
def F32.eq (x y : F32) : Bool := F32.le x y && F32.le y x
/-- The larger of two values; a NaN on either side gives NaN. -/
def F32.max (x y : F32) : F32 := if F32.isNaN x || F32.isNaN y then nan32 else if F32.lt x y then y else x
def F32.min (x y : F32) : F32 := if F32.isNaN x || F32.isNaN y then nan32 else if F32.lt y x then y else x

/-- Sum of a list, left to right, from the first element (R88 fixes the order). -/
def F32.sumFrom (a : F32) (xs : List F32) : F32 := xs.foldl F32.add a

/-- The integer nearest a rational, ties to even (R12). -/
def ratRhe (r : Rat) : Int := rhe r.num r.den

/-- BF16 to binary32, exact (R33). -/
def bf16To32 (b : BitVec 16) : F32 := b.setWidth 32 <<< 16

/-- binary32 to BF16: ties to even at bit 16, overflow to infinity, NaN to 0x7FC0 (R33). -/
def f32ToBf16 (x : F32) : BitVec 16 :=
  if F32.isNaN x then 0x7FC0#16
  else if F32.isInf x then BitVec.ofNat 16 (x.toNat / 2 ^ 16)
  else
    let mag := roundQuot .nearestEven (x.toNat % 2 ^ 31) (2 ^ 16)
    BitVec.ofNat 16 (mag + (if F32.neg x then 2 ^ 15 else 0))

/-! ### S8 block scales (R22 to R25) -/

/-- 0xF8 to 0xFF: the block is invalid (R23, R25). -/
def S8.isPoison (b : Byte) : Bool := decide (0xF8 ≤ b.toNat)

/-- The exact value of an S8 byte that is not poison (R23). -/
def S8.toRat (b : Byte) : Rat :=
  let e := b.toNat / 8
  let m := b.toNat % 8
  if e = 0 then (m : Rat) / 8 * pow2 (-14) else (1 + (m : Rat) / 8) * pow2 ((e : Int) - 15)

def S8.toF32 (b : Byte) : F32 := F32.ofRat (S8.toRat b)

/-- The largest scale, 61,440 (R23). -/
def s8Max : Rat := 61440

/-- Smallest S8 code other than 0x00 whose value is at least `t`; 0xF7 when none is (R26). -/
def s8AtLeast (t : Rat) : Byte :=
  match (List.range 0xF7).find? (fun c => decide (t ≤ S8.toRat (BitVec.ofNat 8 (c + 1)))) with
  | some c => BitVec.ofNat 8 (c + 1)
  | none => 0xF7#8

/-! ### Element formats (R15, R16, R18) -/

/-- The activation and value formats the quantiser writes (R15). -/
inductive ActFormat where
  | a4 | a3 | a2 | i8
  deriving DecidableEq, Repr

def ActFormat.width : ActFormat → Nat | .a4 => 4 | .a3 => 3 | .a2 => 2 | .i8 => 8
/-- Quantiser divisor Q (R15). -/
def ActFormat.q : ActFormat → Nat | .a4 => 7 | .a3 => 3 | .a2 => 1 | .i8 => 127
def ActFormat.lo : ActFormat → Int | .a4 => -8 | .a3 => -3 | .a2 => -2 | .i8 => -128
def ActFormat.hi : ActFormat → Int | .a4 => 7 | .a3 => 3 | .a2 => 1 | .i8 => 127

/-- Value of an activation code as read: two's complement, the A3 code 0b100 read as −3 (R16). -/
def ActFormat.decode (f : ActFormat) (c : Nat) : Int :=
  match f with
  | .a3 => if c % 8 = 4 then -3 else signed 3 c
  | _ => signed f.width c

/-- The weight formats (R15). -/
inductive WFormat where
  | w4 | w3 | w2 | wt
  deriving DecidableEq, Repr

def WFormat.width : WFormat → Nat | .w4 => 4 | .w3 => 3 | .w2 => 2 | .wt => 2
/-- log₂ of the format factor k (R18, R19). -/
def WFormat.logK : WFormat → Nat | .w4 => 0 | .w3 => 1 | .w2 => 2 | .wt => 2

/-- Value of a weight code as read; the WT code 0b10 is read as −1 (R16). -/
def WFormat.decode (f : WFormat) (c : Nat) : Int :=
  match f with
  | .wt => if c % 4 = 2 then -1 else signed 2 c
  | _ => signed f.width c

/-- Cell level of a weight code value (R18). -/
def WFormat.level (f : WFormat) (v : Int) : Int := 8 + 2 ^ f.logK * v

/-! ### Quantiser (R26 to R28) -/

/-- One quantised block: scale byte and 32 code values. -/
structure QBlock where
  scale : Byte
  codes : List Int
  deriving DecidableEq, Repr

/-- Largest magnitude of a block; −0.0 counts as 0 (R26). -/
def maxAbs (xs : List F32) : F32 := xs.foldl (fun a x => if F32.lt a (F32.abs x) then F32.abs x else a) 0#32

/-- R26's clip threshold counts when present, nonzero and below the largest magnitude. -/
def clipLowers (xs : List F32) (clip : Option F32) : Bool :=
  match clip with
  | some c => !(F32.isZero c) && F32.lt c (maxAbs xs)
  | none => false

/-- R26: the scale of a block. -/
def chooseScale (xs : List F32) (q : Nat) (clip : Option F32) : Byte :=
  if xs.any (fun x => !(F32.isFinite x)) then 0xF8#8
  else
    let a := if clipLowers xs clip then clip.getD 0#32 else maxAbs xs
    if F32.isZero a then 0x00#8
    else
      let r := F32.toRat a / (q : Rat)
      let t : F32 := BitVec.ofNat 32 (packMag .towardPos r.num.natAbs r.den)
      if !(F32.isFinite t) || decide (s8Max < F32.toRat t) then 0xF7#8
      else s8AtLeast (F32.toRat t)

/-- R27 before the clamp: quotient and rounding; an infinite quotient stands beyond every range. -/
def quotCode (x s : F32) : Int :=
  let u := F32.div x s
  if F32.isNaN u then 0
  else if F32.isInf u then (if F32.neg u then -(2 ^ 40 : Int) else 2 ^ 40)
  else ratRhe (F32.toRat u)

/-- R27: one element. -/
def encodeElem (x s : F32) (lo hi : Int) : Int := clampI lo hi (quotCode x s)

/-- R26 and R27: one block; zero and poison scales carry zero codes (R24, R25). -/
def quantBlock (f : ActFormat) (xs : List F32) (clip : Option F32) : QBlock :=
  let sc := chooseScale xs f.q clip
  if sc = 0x00#8 || S8.isPoison sc then { scale := sc, codes := xs.map (fun _ => 0) }
  else { scale := sc, codes := xs.map (fun x => encodeElem x (S8.toF32 sc) f.lo f.hi) }

/-- Carry scale of a main scale: exponent raised by 3, 0xF7 beyond the range; 0x00 for zero and poison (R28). -/
def carryScale (sc : Byte) : Byte :=
  if sc = 0x00#8 || S8.isPoison sc then 0x00#8 else s8AtLeast (8 * S8.toRat sc)

/-- R28: the carry block of a quantised block. -/
def carryBlock (f : ActFormat) (xs : List F32) (clip : Option F32) (qb : QBlock) : QBlock :=
  let csc := carryScale qb.scale
  if qb.scale = 0x00#8 || S8.isPoison qb.scale || !(clipLowers xs clip) then
    { scale := csc, codes := xs.map (fun _ => 0) }
  else
    let s := S8.toF32 qb.scale
    let one := fun (x : F32) =>
      let q := clampI f.lo f.hi (quotCode x s)
      if q = quotCode x s then (0 : Int)
      else encodeElem (F32.sub x (F32.mul (F32.ofInt q) s)) (S8.toF32 csc) (-8) 7
    { scale := csc, codes := xs.map one }

/-- The `(k+1)`-th largest magnitude of a block, the clip threshold of R93; none when the block has `k` or fewer
real elements. -/
def kthLargest (k : Nat) (xs : List F32) : Option F32 :=
  let desc := sortBy (fun x y => decide (y.toNat ≤ x.toNat)) (xs.map F32.abs)
  desc[k]?

/-! ### Drive classes (R20, R29, R46, R47, R53) -/

/-- Class of a block in a pass: 0 to 3, L for underrange. -/
inductive DClass where
  | c0 | c1 | c2 | c3 | low
  deriving DecidableEq, Repr

/-- Amplitude exponent n of classes 0 to 3, and 4 for class L (R46, R109). -/
def DClass.n : DClass → Nat | .c0 => 0 | .c1 => 1 | .c2 => 2 | .c3 => 3 | .low => 4

def DClass.all : List DClass := [.c0, .c1, .c2, .c3, .low]

/-- R29 and R49: the class of a nonzero, non-poison block under the underrange policy; none when not driven. -/
def classOf (lowpass : Bool) (smax sb : Byte) : Option DClass :=
  let m := S8.toRat smax
  let s := S8.toRat sb
  if s ≤ m / 16 then (if lowpass then some .low else none)
  else if s ≤ m / 8 then some .c3
  else if s ≤ m / 4 then some .c2
  else if s ≤ m / 2 then some .c1
  else some .c0

/-- A code re-expressed at the reference scale of its class: quotient in binary32, rounded half to even (R29, R47). -/
def reexpress (q : Int) (smax sb : Byte) (c : DClass) : Int :=
  let u := F32.ofRat ((q : Rat) * S8.toRat sb / (S8.toRat smax * pow2 (-(c.n : Int))))
  ratRhe (F32.toRat u)

/-- R53: a carry code re-expressed, then clamped to −8 … +7. -/
def reexpressCarry (q : Int) (smax sc : Byte) (c : DClass) : Int :=
  let u := F32.ofRat ((q : Rat) * S8.toRat sc / (8 * (S8.toRat smax * pow2 (-(c.n : Int)))))
  if F32.isInf u then (if F32.neg u then -8 else 7) else clampI (-8) 7 (ratRhe (F32.toRat u))

/-- High pair of a code (R20). -/
def highPair (q : Int) : Nat := q.natAbs / 4
/-- Low pair of a code (R20). -/
def lowPair (q : Int) : Nat := q.natAbs % 4

/-! ### Blocks in parcels (R34) -/

/-- The 4·w data bytes of one block of 32 codes of width `w`. -/
def packBlock (w : Nat) (codes : List Int) : List Byte :=
  natLE (4 * w) ((codes.zipIdx).foldl (fun a (c, i) => a + unsigned w c * 2 ^ (w * i)) 0)

/-- The raw codes of one block from its data bytes. -/
def unpackBlock (w : Nat) (bs : List Byte) : List Nat :=
  let v := leNat bs
  tabulate 32 (fun i => (v / 2 ^ (w * i)) % 2 ^ w)

/-- Lines of a parcel of element width 4, 3 or 2: 17, 13 or 9 (R34). -/
def parcelLines (w : Nat) : Nat := 4 * w + 1

/-- Decoded value of an element: exact product of code and scale (R17). -/
def dequant (c : Int) (sc : Byte) : F32 :=
  if S8.isPoison sc then nan32 else F32.ofRat ((c : Rat) * S8.toRat sc)

end Sys2Proof.Machine
end

