-- ==== Sys2Proof/Machine/State.lean ====
section
/-! DEFINITION. The state of the NZ840 as plain data, the reasons a step may stop, and the state after reset. The model's own choices: log
3 reset of run-time fields without a reset value (DESIGN CHOICE). -/

namespace Sys2Proof.Machine

/-- A sparse table: key and value pairs, keys strictly rising, no pair equal to the table's default (canonical form). -/
abbrev Tab (α : Type) := List (Nat × α)

/-! ### Writes in flight and arrival counters (R317, R329) -/

/-- An addition to an arrival counter; `key` = 4096 · memory + index, memory 0–7 hall n, 8 central store (R329). -/
structure Inc where
  key : Nat
  amount : Nat
  deriving DecidableEq, Repr

/-- The unit that issued a write; writes of one unit to one memory arrive in the order they left (R317). -/
inductive Owner where
  | gallery (k : Nat)
  | engine (e : Nat)
  | dme
  | spe
  | attention
  | serving
  | fabric
  deriving DecidableEq, Repr

/-- A write or an increment that has left its unit and has not arrived. -/
structure PendWrite where
  id : Nat
  due : Nat
  owner : Owner
  mem : Nat
  /-- address and bytes of each contiguous part; all land together -/
  parts : List (Nat × List Byte)
  marked : List Nat
  incs : List Inc
  /-- writes that must have arrived first -/
  after : List Nat
  /-- counts in the flight's ledger n_out when it arrives (R84) -/
  outbound : Bool
  /-- a CLOSE whose group had added a chained partial (R84) -/
  hadPartials : Bool
  deriving DecidableEq, Repr

/-! ### Galleries, flights and landings -/

/-- Power state of a gallery (R72). -/
inductive GalPower where
  | deep | waking | light | ready
  deriving DecidableEq, Repr

/-- A launch entry in a queue (R75). -/
structure Launch where
  bits : BitVec 256
  poster : Poster
  work : Work
  arrived : Nat
  deriving DecidableEq, Repr

/-- One loop level of a flight (R82). -/
structure LoopLevel where
  active : Bool
  remaining : Nat
  idx : Nat
  deriving DecidableEq, Repr

/-- The flight a gallery runs, or has stopped for a re-run (R76, R82 to R85). -/
structure Flight where
  launch : Launch
  pc : Nat
  issueAt : Nat
  loops : List LoopLevel
  nOut : Nat
  nWait : Nat
  skipOut : Nat
  skipWait : Nat
  sleep : Option Bool
  gapEnd : Option Nat
  waitSince : Option Nat
  passes : Nat
  lateArm : Bool
  rerun : Bool
  rerunAt : Option Nat
  deriving DecidableEq, Repr

/-- A segment of 32 blocks in a stager slot (R80). -/
structure Segment where
  format : ActFormat
  lowpass : Bool
  scales : List Byte
  codes : List Int
  readyAt : Nat
  deriving DecidableEq, Repr

/-- One pass of a pass list (R49, R53): the driven lines with sign and pulse width, and its timing once opened. -/
structure Pass where
  high : Bool
  cls : DClass
  carry : Bool
  /-- driven row (or column) and signed pulse width -/
  rows : List (Nat × Int)
  opened : Option Nat
  readyAt : Nat
  done : Bool
  /-- converter codes of each array of the mask -/
  codes : List (Nat × List Int)
  deriving DecidableEq, Repr

/-- An error-map entry as read (R104). -/
structure EmapEntry where
  row : Nat
  col : Nat
  dw : Int
  flags : Nat
  deriving DecidableEq, Repr

/-- An EVAL with the CARRY that belongs to it (R81, R98 to R100). -/
structure EvalRun where
  id : Nat
  slot : Nat
  mask : Nat
  budgetCode : Nat
  f : Nat
  transpose : Bool
  high : Bool
  low : Bool
  chkTol : Nat
  thresh : Nat
  replicaMode : Nat
  poison : Bool
  seg : Segment
  smax : Byte
  cls : List (Option DClass)
  carrySeg : Option Segment
  carryDue : Option Nat
  passes : List Pass
  residDue : Nat
  residDone : Bool
  emap : List (Nat × List EmapEntry)
  /-- ROLE and TARGET of the 64 spares of each array (R113) -/
  spares : List (Nat × List (Nat × Nat))
  /-- calibration blocks of the mask's arrays, as in force when the first pass was sampled (R102) -/
  coefs : List (Nat × List Byte)
  done : Bool
  readyAt : Nat
  /-- binary32 outputs per array, once done -/
  outs : List (Nat × List F32)
  landed : Nat
  /-- breaks of the run at the issue of the EVAL and of its CARRY (R61) -/
  era : Nat := 0
  carryEra : Nat := 0
  deriving DecidableEq, Repr

/-- A sweep that still occupies converters (R57, R58, R61). -/
structure Sweep where
  mask : Nat
  transpose : Bool
  /-- end of the last slot -/
  lastSlot : Nat
  /-- end of the scheduled sweep -/
  endAt : Nat
  /-- end of the integration window -/
  closeAt : Nat
  /-- breaks of the run at the issue of the pass's step -/
  era : Nat
  deriving DecidableEq, Repr

/-- An open accumulation group (R86, R88). -/
structure Group where
  tile : Nat
  base : Nat
  vals : List F32
  /-- chained partials added so far -/
  added : Nat
  deriving DecidableEq, Repr

/-- A chained partial, in transit or held in an inbox (R90 to R92). -/
structure Partial where
  id : Nat
  src : Nat
  dst : Nat
  group : Nat
  pos : Nat
  vals : List F32
  due : Nat
  hadPartials : Bool
  /-- belongs to the flight its sender runs: counts in n_out when it enters the inbox (R84) -/
  outbound : Bool := true
  deriving DecidableEq, Repr

/-- A WAKE or ARM_REF on its way to its target (R79). -/
structure PowerStep where
  target : Nat
  arm : Bool
  due : Nat
  deriving DecidableEq, Repr

/-- A background unit in progress on a gallery (R95). -/
structure BgUnit where
  /-- 0 survey, 1 scrub, 2 touch-up, 3 scan -/
  kind : Nat
  arrays : Nat
  endAt : Nat
  deriving DecidableEq, Repr

/-- The survey controller of a gallery (R192 to R202, R206). -/
structure Survey where
  focusArray : Nat
  focusBudget : Nat
  lastSample : Nat
  aAcc : List Int
  bAcc : List F32
  nAcc : List Nat
  firstUse : Bool
  rejectRun : Nat
  marginLevel : Nat
  /-- consecutive evaluations that found the level lower (R207) -/
  lowerRuns : Nat
  budgetsSeen : Nat
  /-- array and unit of the cycle to run next (R192) -/
  cycleArray : Nat
  cycleUnit : Nat
  /-- initial survey done for the present owner (R201) -/
  initialDone : Bool
  /-- OFFS_BASE values at the evaluation 24 h ago (R206) -/
  offsBefore : List Int
  deriving DecidableEq, Repr

def Survey.reset : Survey where
  focusArray := 0
  focusBudget := 3
  lastSample := 0
  aAcc := []
  bAcc := []
  nAcc := []
  firstUse := false
  rejectRun := 0
  marginLevel := 0
  lowerRuns := 0
  budgetsSeen := 0
  cycleArray := 0
  cycleUnit := 0
  initialDone := false
  offsBefore := []

/-- One gallery (R69 to R97, R127, R128). -/
structure Gallery where
  power : GalPower
  wakeDue : Option Nat
  armHeld : Bool
  refOn : Option Nat
  idleSince : Option Nat
  lightSince : Option Nat
  /-- first step and number of steps of the gallery's flights, as the loader placed them (R75) -/
  flightBase : Nat
  flightSteps : Nat
  /-- first step and steps of the flights of rotating layers that are not resident (R181) -/
  otherFlights : List (Nat × Nat)
  queue : List Launch
  /-- a decode launch waits for room in the queue (R261) -/
  decodeWaits : Bool
  flight : Option Flight
  pairReset : Option Nat
  slots : List (Option Segment)
  evals : List EvalRun
  nextEval : Nat
  sweeps : List Sweep
  /-- breaks of the run of passes so far: GAP steps, background units, stopped flights (R61) -/
  breaks : Nat
  groups : Tab Group
  drainEnd : List Nat
  landUntil : Nat
  /-- when the inbox port took its latest partial, and until when partials are being added (R89, R92) -/
  inboxTake : Nat
  addUntil : Nat
  /-- group number, CHAIN_IN of a CLOSE or CHAIN that waits for partials -/
  closing : Option (Nat × Nat)
  inbox : List Partial
  /-- time used by the four background activities in the 1 ms period `usedPeriod` (R94) -/
  used : List Nat
  usedPeriod : Nat
  bg : Option BgUnit
  suspect : Bool
  /-- retired (R419) -/
  retired : Bool
  cause : Nat
  forced : Bool
  mismatches : List Nat
  scrubRow : Nat
  scrubArray : Nat
  scrubRepeat : Option Nat
  survey : Survey
  /-- program iterations and rows of the most recent load or touch-up (R206) -/
  progIters : Nat
  progRows : Nat
  /-- instants of its latest suspects (R418) -/
  suspectTimes : List Nat
  /-- scan rotation (R411, R413): deferred units, those left over from before the latest wrap and the start of their rotation, start of
  the rotation in progress and of the latest complete one -/
  scanDefer : List Nat
  scanOld : List Nat
  scanOldStart : Nat
  scanStart : Nat
  scanLast : Nat
  /-- profile to apply before the next flight (R276) -/
  newProfile : Option Nat
  /-- since when it has run a flight or held queued launches, and such intervals that ended in the last 100 ms (R258) -/
  busySince : Option Nat
  busy : List (Nat × Nat)
  deriving DecidableEq, Repr

/-- A gallery after reset (R97: DEEP, nothing running). -/
def Gallery.reset : Gallery where
  power := .deep
  wakeDue := none
  armHeld := false
  refOn := none
  idleSince := none
  lightSince := none
  flightBase := 0
  flightSteps := 0
  otherFlights := []
  queue := []
  decodeWaits := false
  flight := none
  pairReset := none
  slots := [none, none]
  evals := []
  nextEval := 0
  sweeps := []
  breaks := 0
  groups := []
  drainEnd := [0, 0]
  landUntil := 0
  inboxTake := 0
  addUntil := 0
  closing := none
  inbox := []
  used := [0, 0, 0, 0]
  usedPeriod := 0
  bg := none
  suspect := false
  retired := false
  cause := 0
  forced := false
  mismatches := []
  scrubRow := 0
  scrubArray := 0
  scrubRepeat := none
  survey := Survey.reset
  progIters := 0
  progRows := 0
  suspectTimes := []
  scanDefer := []
  scanOld := []
  scanOldStart := 0
  scanStart := 0
  scanLast := 0
  newProfile := none
  busySince := none
  busy := []

/-! ### DMA engines (R308 to R322) -/

/-- A channel in a queue or running (R309). -/
structure DmaChan where
  head : Nat
  headSpace : Nat
  task : Nat
  host : Nat
  tag : Nat
  /-- the submission entry of a DMA_START, whose completion waits for the channel (R310) -/
  cmd : Option SubEntry
  /-- an undefined field, or a reserved bit set: the channel ends before any fetch (R309) -/
  bad : Bool
  deriving DecidableEq, Repr

/-- The channel an engine runs (R308, R314): the address of the fetch in flight and the instant it is due, the descriptor that
streams, the next one once fetched and checked, why the channel is to end after the current descriptor, the descriptors done,
the data writes issued. -/
structure DmaRun where
  chan : DmaChan
  fetch : Option (Nat × Nat)
  desc : Option (BitVec 512)
  next : Option (BitVec 512)
  stop : Option Nat
  descs : Nat
  issued : List Nat
  badSource : Bool
  /-- the status the channel ended with, while its record is held (R315) -/
  ended : Option Nat
  /-- instant from which the streaming descriptor may run: its checks are done (R449) -/
  descAt : Nat := 0
  /-- the same of the next descriptor -/
  nextAt : Nat := 0
  /-- instant from which the next source read may issue (R307) -/
  readAt : Nat := 0
  /-- instant at which the channel's last write so far has left the engine (R316) -/
  leaveAt : Nat := 0
  deriving DecidableEq, Repr

structure DmaEngine where
  queue : List DmaChan
  run : Option DmaRun
  deriving DecidableEq, Repr

def DmaEngine.reset : DmaEngine := { queue := [], run := none }

/-! ### Host rings (R283 to R296) -/

/-- One ring: its set-up registers and its run-time state. -/
structure Ring where
  baseLo : Word
  baseHi : Word
  cfg : Word
  int : Word
  enabled : Bool
  parked : Bool
  fetchError : Bool
  phase : Bool
  index : Nat
  /-- tail of a submission ring, head of another ring, as the last accepted doorbell set it (R285) -/
  db : Nat
  /-- R287: instant of the first read that returned the wrong PHASE, re-reads issued, re-reads returned -/
  firstBack : Option Nat
  rereads : Nat
  returned : Nat
  /-- records that wait for room: the on-chip holding space of an event ring, held completions, held token records -/
  waiting : List (List Byte)
  /-- events dropped since the last record written (R292) -/
  lost : Nat
  /-- RING_LOST (R293) -/
  lostTotal : Word
  unsignalled : Nat
  oldest : Option Nat
  deriving DecidableEq, Repr

/-- A ring after reset (R296). -/
def Ring.reset : Ring where
  baseLo := 0#32
  baseHi := 0#32
  cfg := 0x20#32
  int := 0x1000#32
  enabled := false
  parked := false
  fetchError := false
  phase := false
  index := 0
  db := 0
  firstBack := none
  rereads := 0
  returned := 0
  waiting := []
  lost := 0
  lostTotal := 0#32
  unsignalled := 0
  oldest := none

/-- Registers private to one function (R435). -/
structure FnRegs where
  ringSel : Word
  snapView : Word
  nvAddr : Word
  msix : Tab Word
  pba : Tab Word
  /-- PCIe power state: D3hot, else D0 (R280) -/
  d3hot : Bool
  deriving DecidableEq, Repr

def FnRegs.reset : FnRegs := { ringSel := 0#32, snapView := 0#32, nvAddr := 0#32, msix := [], pba := [], d3hot := false }

/-- An event raised while no enabled ring covered it (R294): the 64-byte record without LOST, and its context. -/
structure HeldEvent where
  record : List Byte
  ctx : Option Nat
  deriving DecidableEq, Repr

/-! ### Arrays: what a load placed, wear, programming and survey data (R163, R170, R183, R203) -/

/-- What the loader holds of an array record of the atlas (R163 to R165). -/
structure ArrayRec where
  context : Nat
  varray : Nat
  matrix : Nat
  rowblk : Nat
  colblk : Nat
  rows : Nat
  cols : Nat
  format : WFormat
  gc : Nat
  rotLayer : Nat
  /-- S8 column scale of each weight column (R43) -/
  scales : List Byte
  /-- code values, one list of 1,024 rows per weight column (R164) -/
  codes : List (List Int)
  /-- MU and SIGMA2 of each weight column (R165) -/
  stats : List (F32 × F32)
  /-- ρ0 and ρ1 of each row (R118) -/
  rho : List (Int × Int)
  /-- K of each weight column (R118) -/
  colSums : List Int
  deriving DecidableEq, Repr

/-- A programming job of one array (R170, R173, R177, R181). -/
structure ProgJob where
  /-- 1 load, 2 touch-up, 3 rotation (GAL_PROG.MODE) -/
  mode : Nat
  row : Nat
  /-- spares of a repair sweep (R173); empty in a first sweep -/
  sweep : List Nat
  /-- instant from which the next row may start -/
  readyAt : Nat
  deriving DecidableEq, Repr

/-- One ladder unit's measurement: budget code, type (false A, true B) and stage-1 quarter codes, OFFS removed, of the two
converters whose ladder carries signal (R191). -/
structure LadderUnit where
  budget : Nat
  typeB : Bool
  lo : Int
  hi : Int
  deriving DecidableEq, Repr

/-- The latest row the programmer ran on an array, as HOLDUP would cut it (R176): its number, the start of its first pulse, its end, by pulse
the columns and quarter levels of its cells before the pulse, and the wear record and error-map entries before the row. -/
structure RowCut where
  row : Nat
  first : Nat
  endAt : Nat
  before : List (List (Nat × Int))
  wear : BitVec 128
  entries : List EmapEntry
  deriving DecidableEq, Repr

/-- One array. -/
structure ArrayState where
  record : Option ArrayRec
  /-- the programmer holds the array until this instant (R66, R170) -/
  heldUntil : Nat
  cut : Option RowCut
  job : Option ProgJob
  lastProgrammed : Nat
  /-- the wear record in on-chip SRAM, when it differs from the NV log's (R183) -/
  wear : Option (BitVec 128)
  /-- ZERO units: budget code and raw codes, newest first (R195) -/
  zeros : List (Nat × List Int)
  zeroCount : List Nat
  ladders : List LadderUnit
  /-- |T0| and |T1| of SENTINEL units, newest first (R203) -/
  sentinels : List (Int × Int)
  /-- ROWZERO units: k and raw codes, newest first (R195) -/
  rowZeros : List (Nat × List Int)
  rowZeroCount : List Nat
  /-- budgets with an accepted gain commit since the load, as a mask (R202) -/
  committed : Nat
  m : Rat
  m0 : Rat
  s0 : Rat
  driftEst : Rat
  /-- columns of the latest accepted gain commit, whose mean gain M is (R203) -/
  surveyed : List Nat
  /-- AGE_EQ in equivalent seconds at 60 °C (R203) -/
  ageEq : Rat
  due : Bool
  deriving DecidableEq, Repr

def ArrayState.reset : ArrayState where
  record := none
  heldUntil := 0
  cut := none
  job := none
  lastProgrammed := 0
  wear := none
  zeros := []
  zeroCount := [0, 0, 0, 0]
  ladders := []
  sentinels := []
  rowZeros := []
  rowZeroCount := [0, 0, 0, 0]
  committed := 0
  m := 0
  m0 := 0
  s0 := 0
  driftEst := 0
  surveyed := []
  ageEq := 0
  due := false

/-- A DME job in a queue (R132). -/
structure DmeJob where
  desc : BitVec 512
  task : Nat
  deriving DecidableEq, Repr

/-- The job that runs: the values its group's entries take once its last term is added, its weight lines and its end (R134, R136). -/
structure DmeRun where
  job : DmeJob
  vals : List F32
  lines : Nat
  endAt : Nat
  deriving DecidableEq, Repr

/-- An open accumulation group of the DME (R135); `closing` is the write of its CLOSE, whose arrival closes it. -/
structure DmeGroup where
  tile : Nat
  base : Nat
  m : Nat
  n : Nat
  closing : Option Nat
  deriving DecidableEq, Repr

/-- The digital matrix engine (R132 to R137). -/
structure Dme where
  mgmtQueue : List DmeJob
  queue : List DmeJob
  /-- jobs of a management processor that wait for room in its queue (R132) -/
  mgmtWait : List DmeJob
  /-- operations of matrices with a queued job, collected until that job starts (R143) -/
  collected : List DmeJob
  run : Option DmeRun
  groups : Tab DmeGroup
  /-- entries of tiles A and B by 16,384 · tile + entry -/
  tiles : Tab F32
  /-- end of the drain of tiles A and B -/
  drainEnd : List Nat
  deriving DecidableEq, Repr

/-- A descriptor in the SPE's queue (R148). -/
structure SpeJob where
  desc : BitVec 512
  task : Nat
  deriving DecidableEq, Repr

/-- A ROUTE whose launches are being posted: the galleries and launch entries still to post, the writes its record waits for, its count
and its status (R153). -/
structure SpeHold where
  launches : List (Nat × BitVec 256)
  after : List Nat
  count : Nat
  status : Nat
  deriving DecidableEq, Repr

/-- A context (R156): what its loaded image gives it. -/
structure Context where
  live : Bool
  ident : Nat
  matrices : Nat
  layers : Nat
  /-- byte address of its dispatch entries (R138) -/
  dispatch : Nat
  /-- matrix and gallery of every part it holds on galleries -/
  parts : List (Nat × Nat)
  /-- first SCRATCH line and lines in each hall (R160), first flight step and steps of its flights in each hall -/
  scratch : List (Nat × Nat)
  flightRegion : List (Nat × Nat)
  /-- first byte and bytes of its wide copies in tier 0, and of its rotation store in each hall's local region -/
  wide : Nat × Nat
  rotStore : List (Nat × Nat)
  /-- first line of its region of the central store -/
  central : Nat
  saturated : Bool
  nLive : Nat
  liveSet : List Nat
  deriving DecidableEq, Repr

/-- A virtual gallery bound to a gallery (R168): its record's layer (0xFFFF outside the rotation pool), virtual and physical
arrays in pairs, and whether that layer is programmed. -/
structure Bound where
  vhall : Nat
  vgal : Nat
  layer : Nat
  key : Nat
  perm : List (Nat × Nat)
  ready : Bool
  deriving DecidableEq, Repr

/-- A load (R169); it stays, with its image, while the context is loaded. -/
structure Load where
  cmd : SubEntry
  context : Nat
  source : Nat
  addr : Nat
  nsid : Nat
  tree : Nat
  sendOnly : Bool
  /-- bytes of the image received so far -/
  image : List Byte
  /-- 0 header and table awaited; 1 + n: n sections taken -/
  stage : Nat
  retried : Bool
  bound : List Bound
  /-- array records whose cell image has been taken, in record order -/
  arraysStarted : Nat
  /-- instant from which programming has waited for a closed window (R175) -/
  waitSince : Option Nat
  lastData : Nat
  done : Bool
  deriving DecidableEq, Repr

/-- Running maximum, sum and weighted values of one query head (R226). -/
structure Softmax where
  m : F32
  l : F32
  o : List F32
  deriving DecidableEq, Repr

/-- An attention job descriptor in the queue (R220, R221). -/
structure AttJob where
  id : Nat
  desc : BitVec 512
  task : Nat
  deriving DecidableEq, Repr

/-- A unit of an attention job (R222): entry, KV head, split or tile, the pages it reads, and once done its results by query
index and query head. -/
structure AttUnit where
  entry : Nat
  head : Nat
  idx : Nat
  pages : List Nat
  /-- candidates of the head in rank order, and how many of them were selected (R230) -/
  ranked : List Nat
  selected : Nat
  done : Bool
  res : List (Nat × Nat × Softmax)
  deriving DecidableEq, Repr

/-- A started attention job. -/
structure AttRun where
  job : AttJob
  startAt : Nat
  built : Bool
  units : List AttUnit
  /-- entries whose tokens were appended (R237) -/
  fitted : Nat
  reads : Nat
  /-- latest end of a unit so far -/
  lastEnd : Nat
  /-- stand-ins already taken under SKIP: head and page (R240) -/
  standIns : List (Nat × Nat)
  ended : Option Nat
  deriving DecidableEq, Repr

/-- A PREFILL job the scheduler has formed and a stream processor has not yet posted (R257): its context, layer and bucket, and its
entries (stream, first position, tokens). -/
structure PrefillJob where
  ctx : Nat
  layer : Nat
  bucket : Nat
  entries : List (Nat × Nat × Nat)
  deriving DecidableEq, Repr

/-- A page of a stream: layer, KV head, page position (R210). -/
structure PageId where
  stream : Nat
  layer : Nat
  head : Nat
  page : Nat
  deriving DecidableEq, Repr

/-- A slot of the page cache (R238): the page it holds, or with `part` some j part j of the index chunk that begins at that page
position (R239); `held` while prefetched for a job that has not started; and the copy's bytes. -/
structure CacheSlot where
  id : PageId
  part : Option Nat
  lastRead : Nat
  held : Bool
  copy : List Byte
  deriving DecidableEq, Repr

/-- A fetch of a page, or of the index chunk that begins at its page position, into the cache (R239, R240). -/
structure Fetch where
  id : PageId
  index : Bool
  demand : Bool
  deriving DecidableEq, Repr

/-- A park (R243): the command that waits for its end, its tier and time to live, the record's first slot and bytes once it is
written, and the command of a resume in progress. -/
structure Park where
  cmd : Option SubEntry
  tier : Nat
  ttl : Nat
  expires : Nat
  slot : Nat
  bytes : Nat
  parked : Bool
  resume : Option SubEntry
  deriving DecidableEq, Repr

/-- State of a stream (R250, R252), in the order of its code. -/
inductive StreamState where
  | free | admitted | prefill | decode | shipping | parked | mirroring | done
  deriving DecidableEq, Repr

/-- What a standby holds of a mirrored stream (R271 to R273): its token ring, the active package and its stream number, the two
buffers, the current one, the tokens logged as ordinal and identifier, and the instant of the last heartbeat. -/
structure Standby where
  ring : Nat
  active : Nat
  origin : Nat
  buffers : List (Option Checkpoint)
  current : Option Nat
  logged : List (Nat × Nat)
  lastBeat : Nat
  deriving DecidableEq, Repr

/-- Firmware's working state of a stream (R250 bytes 136 to 255, which software may not rely on). -/
structure StreamWork where
  /-- positions before the input that is being prefilled, and PROMPT_LEN before it (R253) -/
  basePos : Nat
  basePrompt : Nat
  /-- GENERATED at the latest open or continue (MAX_NEW counts from there) -/
  baseGen : Nat
  /-- first ordinal and first position of each run of generated tokens -/
  spans : List (Nat × Nat)
  /-- input not yet taken by the prefill scheduler (R257) -/
  queued : Bool
  /-- sampled and settled, not yet in a record: ordinal, and identifier or byte (R269, R270, R295) -/
  ready : List (Nat × Nat)
  /-- sampled, held back: may begin a stop sequence or end an incomplete UTF-8 sequence -/
  heldBack : List (Nat × Nat)
  /-- the record with END is still to be written -/
  endDue : Bool
  cancel : Option SubEntry
  /-- DIRECTION 1 in progress (R271); ordinals below it the standby has acknowledged; start of the last heartbeat -/
  mirrorCmd : Option SubEntry
  acked : Nat
  standby : Option Standby
  /-- replays since admission (R422) -/
  replays : Nat
  /-- pages by position shipped to the standby, or layers shipped to the origin (R260, R271) -/
  shipped : Nat
  /-- on a prefill peer: the origin package and its stream number (R259) -/
  origin : Option (Nat × Nat)
  /-- on the origin: the peer has sent its hidden state, the end of the shipment (R260) -/
  peerDone : Bool
  /-- layers of the step in progress whose DECODE job has ended (R258) -/
  layer : Nat
  deriving DecidableEq, Repr

def StreamWork.reset : StreamWork where
  basePos := 0
  basePrompt := 0
  baseGen := 0
  spans := []
  queued := false
  ready := []
  heldBack := []
  endDue := false
  cancel := none
  mirrorCmd := none
  acked := 0
  standby := none
  replays := 0
  shipped := 0
  origin := none
  peerDone := false
  layer := 0

/-- One entry of the stream table (R250). -/
structure Stream where
  state : StreamState
  context : Nat
  remote : Bool
  mirrored : Bool
  flags : Nat
  endReason : Nat
  tokenRing : Nat
  peer : Nat
  seed : DWord
  admitTime : DWord
  lastStep : DWord
  promptLen : Nat
  generated : Nat
  maxNew : Nat
  delivered : Nat
  kvDir : Nat
  countsAddr : Nat
  historyAddr : Nat
  temperature : F32
  topP : F32
  minP : F32
  repPenalty : F32
  freqPenalty : F32
  presPenalty : F32
  topK : Nat
  stopCount : Nat
  endCount : Nat
  endTokens : List Nat
  stopAddr : Nat
  tag : DWord
  parkedFrom : StreamState
  work : StreamWork
  deriving DecidableEq, Repr

def Stream.reset : Stream where
  state := .free
  context := 0
  remote := false
  mirrored := false
  flags := 0
  endReason := 0
  tokenRing := 0
  peer := 0
  seed := 0#64
  admitTime := 0#64
  lastStep := 0#64
  promptLen := 0
  generated := 0
  maxNew := 0
  delivered := 0
  kvDir := 0
  countsAddr := 0
  historyAddr := 0
  temperature := 0#32
  topP := 0#32
  minP := 0#32
  repPenalty := 0#32
  freqPenalty := 0#32
  presPenalty := 0#32
  topK := 0
  stopCount := 0
  endCount := 0
  endTokens := [0, 0, 0, 0]
  stopAddr := 0
  tag := 0#64
  parkedFrom := .free
  work := StreamWork.reset
/-- A tokeniser image that waits until no stream of its context is in ADMITTED or PREFILL (R267). -/
structure TokWait where
  cmd : SubEntry
  image : List Byte
  deriving DecidableEq, Repr

/-- A host line in the host-line cache: held exclusive, else shared (R280). -/
structure HostLine where
  addr : Nat
  exclusive : Bool
  deriving DecidableEq, Repr

/-- State of a line in one L1 (R297). -/
inductive Mesi where
  | modified | exclusive | shared
  deriving DecidableEq, Repr

/-- A holder of a central-store line: its directory port and the line's state there (R297, R299). -/
structure DirHold where
  port : Nat
  mesi : Mesi
  deriving DecidableEq, Repr

/-- A range on a scoreboard and the instant its last access ends (R325). -/
structure SbEntry where
  addr : Nat
  len : Nat
  until_ : Nat
  deriving DecidableEq, Repr

/-- A message handed to the fabric, until every flit of it is acknowledged (R352, R355): `src` is another package's number in
transit, `link` the link it goes by once chosen, `sent` the flits sent. -/
structure FabMsg where
  uid : Nat
  kind : Nat
  flags : Nat
  dest : Nat
  src : Nat
  flow : Nat
  msgNo : Nat
  offset : Nat
  body : List Byte
  link : Option Nat
  sent : Nat
  deriving DecidableEq, Repr

/-- A data flit in a replay buffer (R350): its SEQ, message, virtual channel, and whether it is the message's last. -/
structure SentFlit where
  seq : Nat
  uid : Nat
  vc : Nat
  last : Bool
  deriving DecidableEq, Repr

/-- One Zemlink link (R347 to R353). -/
structure Link where
  /-- FAB_LINK_STATUS.STATE: 0 down, 1 training, 2 up, 3 up on one lane, 4 isolated, 5 retired -/
  state : Nat
  oneLane : Bool
  peer : Nat
  peerLink : Nat
  peerDomain : Nat
  peerInc : Nat
  /-- a HELLO has come since link-up; an advert on the link claimed this package's PKG_ID -/
  greeted : Bool
  clash : Bool
  cause : Nat
  hold : Bool
  nextSeq : Nat
  expected : Nat
  naked : Bool
  replay : List SentFlit
  /-- SEQ the peer asked to resend, and how often in a row without an ACK (R352) -/
  resendSeq : Nat
  resends : Nat
  /-- of each virtual channel: flits sent, buffers the peer has freed, buffers freed here, all since link-up modulo 2^16 -/
  sent : List Nat
  freed : List Nat
  rxFreed : List Nat
  /-- BCAST was the latest of BULK and BCAST to be sent (R351) -/
  bcastTurn : Bool
  /-- bytes of the message being received on each virtual channel -/
  partials : List (Option (List Byte))
  sinceAck : Nat
  ackAt : Nat
  lastFlit : Nat
  lastHello : Nat
  crcTimes : List Nat
  retrainTimes : List Nat
  trainFails : Nat
  trainAt : Nat
  crc : Word
  replays : Word
  tx : Word
  rx : Word
  deriving DecidableEq, Repr

def Link.reset : Link where
  state := 0
  oneLane := false
  peer := 0
  peerLink := 0
  peerDomain := 0
  peerInc := 0
  greeted := false
  clash := false
  cause := 0
  hold := false
  nextSeq := 0
  expected := 0
  naked := false
  replay := []
  resendSeq := 0
  resends := 0
  sent := [0, 0, 0]
  freed := [0, 0, 0]
  rxFreed := [0, 0, 0]
  bcastTurn := true
  partials := [none, none, none]
  sinceAck := 0
  ackAt := 0
  lastFlit := 0
  lastHello := 0
  crcTimes := []
  retrainTimes := []
  trainFails := 0
  trainAt := 0
  crc := 0#32
  replays := 0#32
  tx := 0#32
  rx := 0#32

/-- A link-state advert held of a package (R354). -/
structure Advert where
  inc : Nat
  seq : Nat
  links : List (Nat × Nat)
  slots : Nat
  deriving DecidableEq, Repr

/-- A message received whole for this package and not yet taken (R355). -/
structure RxMsg where
  link : Nat
  kind : Nat
  flags : Nat
  dest : Nat
  src : Nat
  flow : Nat
  msgNo : Nat
  offset : Nat
  body : List Byte
  deriving DecidableEq, Repr

/-- A receive window (R355). -/
structure RxWindow where
  base : Nat
  len : Nat
  counter : Nat
  deriving DecidableEq, Repr

/-- A flow as its receiver knows it: numbers delivered, newest first, at most 64; a transfer has begun without END (R355, R357). -/
structure RxFlow where
  last : List Nat
  begun : Bool
  deriving DecidableEq, Repr

/-- A broadcast in progress on a tree (R358): MSG_NO to deliver next, the link each child edge took last, edges dropped. -/
structure TreeRun where
  next : Nat
  turns : List Nat
  dropped : List Nat
  deriving DecidableEq, Repr

/-- What the power sequence is doing (R362 to R377, R382). `rail`, `settle` and `down` name the rail; `down` also the package
state that follows; `retry` the failed step and its rail. -/
inductive PwrPhase where
  | off
  /-- AON_ON in progress -/
  | aonOn
  | rest
  /-- WAKING holds until the estimates are below 60 °C (R403) -/
  | cooling
  | rail (r : Nat)
  | settle (r : Nat)
  | osc
  | bist
  | baseline
  | retry (step rail : Nat)
  /-- the actions of R382 -/
  | handover
  | down (r state : Nat)
  /-- hand-over ended, rails down: MAIN_OK is awaited (R384) -/
  | holdWait
  deriving DecidableEq, Repr

/-- The always-on domain (R362 to R386). -/
structure Power where
  phase : PwrPhase
  /-- instant of the latest action of the sequence -/
  since : Nat
  /-- end of AON_ON -/
  aonAt : Nat
  /-- instant of the latest filtered rise of MAIN_OK, while it is high -/
  mainSince : Option Nat
  retries : Nat
  /-- thermal latch; a hold before REG_CHECK; WAS_SHUTDOWN to set at READY (R402, R403) -/
  latch : Bool
  hold : Bool
  wasShut : Bool
  /-- start and cause of the hand-over: 0 to 3 as HOLDUP_ENTER, 4 a thermal shutdown (R382, R402) -/
  holdAt : Nat
  cause : Nat
  railLost : Bool
  /-- failure codes whose records wait for the NV log (R377) -/
  deferred : List Nat
  /-- HOLDUP_EXIT records kept for the next READY (R380, R384) -/
  exits : List (List Byte)
  /-- of each port, PERST# is deasserted: speed, width and kind its link trains to (R379) -/
  perst : List (Option (Nat × Nat × Bool))
  /-- what BIST and SURVEY_BASELINE found (R380) -/
  found : Bist
  hallsOut : List Nat
  /-- instant of READY, once reached since VDD_CORE came up -/
  ready : Option Nat
  /-- halls that left QUIET and whose converter PLL has not relocked (R373) -/
  relock : List Nat
  /-- instant at which each hall last left QUIET -/
  quietLeft : List Nat
  /-- SEQ of the next NV log record (R385) -/
  nvSeq : Nat
  deriving DecidableEq, Repr

def Power.reset : Power where
  phase := .aonOn
  since := 0
  aonAt := 0
  mainSince := none
  retries := 0
  latch := false
  hold := false
  wasShut := false
  holdAt := 0
  cause := 0
  railLost := false
  deferred := []
  exits := []
  perst := [none, none]
  found := Bist.none
  hallsOut := []
  ready := none
  relock := []
  quietLeft := List.replicate 8 0
  nvSeq := 0

/-- A conversion that waits or runs: its channel, gain index as requested, and whether it is urgent (R392). -/
structure ConvReq where
  ch : Nat
  gain : Nat
  urgent : Bool
  deriving DecidableEq, Repr

/-- One telemetry converter (R388 to R395). -/
structure Tmon where
  refOn : Option Nat
  /-- by channel: gain index that autorange holds, and conversions since its latest change (R393) -/
  gains : Tab Nat
  since : Tab Nat
  /-- channel and gain index of the latest conversion, and conversions since they changed (R393) -/
  last : Option (Nat × Nat)
  settled : Nat
  /-- requests of software, urgent ones first; the head runs and ends at `due` -/
  queue : List ConvReq
  due : Nat
  /-- calibration in progress: OP and gain index; its raw codes; candidate offset by gain index (R395) -/
  cal : Option (Nat × Nat)
  raws : List Int
  calAt : Nat
  offs : Tab Int
  deriving DecidableEq, Repr

def Tmon.reset : Tmon where
  refOn := none
  gains := []
  since := []
  last := none
  settled := 0
  queue := []
  due := 0
  cal := none
  raws := []
  calAt := 0
  offs := []

/-- The thermal model and its inputs (R396 to R403), kept by the always-on domain. -/
structure Thermal where
  started : Bool
  tj : List F32
  ts : List F32
  tl : List F32
  tp : F32
  history : Nat
  /-- T_in of the latest valid reading, whether the latest scan gave one, and the instant of the latest valid reading -/
  tIn : Option F32
  tValid : Bool
  tAt : Nat
  /-- INLET_MAX is in use (R396) -/
  useMax : Bool
  /-- latest product of each rail in W: key 16 · die + 8 · converter + rail -/
  rails : Tab Rat
  /-- latest P_d of the 19 dies -/
  p : List F32
  lastScan : Nat
  lastCheck : Nat
  lastUpdate : Nat
  /-- instant since which every estimate has been below THROTTLE_C − 5 °C (R401) -/
  coolSince : Option Nat
  /-- dies whose cross-check has failed once and is to be repeated, and dies that have raised their event (R394) -/
  recheck : List Nat
  checkAt : Nat
  bad : List Nat
  deriving DecidableEq, Repr

def Thermal.reset : Thermal where
  started := false
  tj := []
  ts := []
  tl := []
  tp := 0#32
  history := 0
  tIn := none
  tValid := false
  tAt := 0
  useMax := false
  rails := []
  p := List.replicate 19 0#32
  lastScan := 0
  lastCheck := 0
  lastUpdate := 0
  coolSince := none
  recheck := []
  checkAt := 0
  bad := []

/-- The test that the test engine runs (R415, R416), and the instant it is to end by. -/
structure TestRun where
  test : Nat
  target : Nat
  addr : Nat
  len : Nat
  startAt : Nat
  deriving DecidableEq, Repr

/-- The latched set of a snapshot (R427, R428): its epoch, its instant, and the registers that latched; a register shown through
a selection carries the selected index above bit 32 of its key. -/
structure Snap where
  epoch : Nat
  instant : DWord
  regs : Tab Word
  deriving DecidableEq, Repr


/-- The machine. -/
structure State where
  /-- commands that wait, first in, first out -/
  pending : List Instr
  /-- the model's clock, in ticks of 1/12 ns -/
  now : Nat
  /-- the model's own counter of free values drawn so far -/
  free : Nat
  nextId : Nat
  bar0 : Tab Word
  fns : Tab FnRegs
  /-- value returned by the latest register or sideband read that is a command of its own -/
  lastRead : DWord
  rings : Tab Ring
  accepted : List SubEntry
  eventSeq : Nat
  held : List HeldEvent
  heldLost : Nat
  hostMem : Tab Byte
  mem : Tab Byte
  marks : Tab Bool
  counters : Tab Nat
  counterSat : Tab Bool
  writes : List PendWrite
  engines : Tab DmaEngine
  galleries : Tab Gallery
  partials : List Partial
  powerSteps : List PowerStep
  cells : Tab Int
  arrays : Tab ArrayState
  /-- the 4 MiB NV log region (R437) -/
  nv : Tab Byte
  dme : Dme
  spe : List SpeJob
  /-- the ROUTE at the head of the SPE's queue that waits for room in a launch queue (R75, R153) -/
  speHold : Option SpeHold
  contexts : Tab Context
  /-- the correction-die clock runs at 1.5 GHz (R372) -/
  coreSlow : Bool
  /-- instant of the latest 24 h margin evaluation (R206) -/
  lastMargin : Nat
  /-- per hall, is its programming window open (R175)? -/
  windowOpen : List Bool
  /-- arrays the power arbiter has admitted, and those that wait, in request order; the hall granted last (R174) -/
  progActive : List Nat
  progWait : List Nat
  progHall : Nat
  /-- instant EN_PROG was asserted, and instant at which it is due to be deasserted (R174, R367) -/
  vprogAt : Option Nat
  vprogOff : Option Nat
  /-- instant of the latest write of the wear table (R183) -/
  lastWear : Nat
  /-- bytes of cell images written to the staging ring of each hall so far (R169) -/
  staged : List Nat
  loads : Tab Load
  /-- PREFILL jobs formed and not yet posted (R257) -/
  prefillJobs : List PrefillJob
  attQueue : List AttJob
  attRuns : List AttRun
  /-- instant until which each attention engine is busy (R219) -/
  attBusy : List Nat
  kvCache : Tab CacheSlot
  fetches : List Fetch
  /-- slots in use: 2^40 · tier + slot, to stream + 1 (R235) -/
  kvUsed : Tab Nat
  parks : Tab Park
  /-- tokeniser image of each context, and images that wait (R267) -/
  tokenisers : Tab (List Byte)
  tokWait : Tab (List TokWait)
  /-- PROFILE_SET in progress, by context (R276) -/
  profileCmd : Tab (List SubEntry)
  /-- CONTEXT_UNLOADs that wait for a step to end, by context (R180, R252) -/
  unloads : Tab (List SubEntry)
  /-- context the prefill scheduler served last (R257) -/
  prefillTurn : Nat
  /-- instant of the latest mirror heartbeat (R271) -/
  lastBeat : Nat
  streams : Tab Stream
  /-- port whose function 1 is the management function now; HOST_CTRL.MGMT_PORT takes effect at a hot reset (R279) -/
  mgmtPort : Nat
  /-- boot records kept for event rings, and the rings that have had them (R380) -/
  boot : List (List Byte)
  bootGiven : List Nat
  /-- commands accepted through a function that has since been reset: their completions are discarded (R301) -/
  orphans : List SubEntry
  /-- host lines the device holds in its host-line cache (R280, R286), oldest first -/
  hostLines : List HostLine
  /-- the directory: holders of each central-store line (R297) -/
  dir : Tab (List DirHold)
  /-- central-store lines in the L2, oldest first (R297) -/
  l2 : List Nat
  /-- submission ring whose turn it is, and the entries it has been served in this turn (R288) -/
  fetchRing : Nat
  fetchTaken : Nat
  /-- range scoreboards: halls 0 to 7, central store 8 (R325) -/
  scoreboard : Tab (List SbEntry)
  /-- what the reads of the last cycle in which both ports of a bank were used returned (R326) -/
  portReads : List (Nat × List Byte)
  /-- of each arrival counter, the cycle of its last additions and their sum (R330) -/
  cntAdds : Tab (Nat × Nat)
  /-- HBM stacks in the tier-0 map, ascending (R334) -/
  hbmStacks : List Nat
  /-- DDR5 channels in the tier-1 map, ascending, and the capacity each contributes in bytes (R336) -/
  t1Channels : List Nat
  t1ChannelBytes : Nat
  /-- tier-1 channels retired since power-up (R346) -/
  t1Retired : List Nat
  /-- instant at which the global time base started, absent before (R5, R370) -/
  tbStart : Option Nat
  /-- messages handed to the fabric and not yet sent, oldest first; next MSG_NO of each flow (R355) -/
  fabOut : List FabMsg
  fabNo : Tab Nat
  links : Tab Link
  adverts : Tab Advert
  advertSeq : Nat
  advertAt : Nat
  /-- packages reachable when last looked at, with their incarnation (R356) -/
  members : Tab Nat
  fabIn : List RxMsg
  /-- receive windows and flows by 65536 · source + flow (R355) -/
  windows : Tab RxWindow
  flows : Tab RxFlow
  /-- FAB_TREE_MAP words by 16 · tree + k, and broadcasts in progress (R358) -/
  treeMap : Tab Word
  trees : Tab TreeRun
  /-- markings and corrected errors of the last 24 h: unit (16 · memory + unit) and instant, newest first (R346) -/
  ueTimes : List (Nat × Nat)
  ceTimes : List (Nat × Nat)
  /-- corrected errors since the unit's previous event, and the instant of that event (R344) -/
  ceSince : Tab Nat
  ceLast : Tab Nat
  /-- units pending retirement at the next power-up (R346) -/
  retirePending : List Nat
  /-- members of each volume; member registers by 32 · volume + 4 · member + 0 (T2_MEMBER), 1 (LBA_LO), 2 (LBA_HI) (R339) -/
  t2Vol : Tab Nat
  t2Mem : Tab Word
  /-- root ports with a working drive, and retired drives (R341) -/
  drives : List Nat
  drivesRetired : List Nat
  /-- bytes of the tier-2 volumes; the key carries the volume above bit 60 (R339) -/
  tier2 : Tab Byte
  /-- NVMe commands issued a second time, and drives whose controller was reset, with the instant (R341) -/
  nvmeRetried : List NvmeCmd
  driveReset : Tab Nat
  /-- stacks (144 + n) and channels (160 + c) that report more than 85 °C: their refresh runs twice as often (R335, R337) -/
  hotUnits : List Nat
  /-- line returned by the latest CXL.mem read; none is poison (R343) -/
  lastLine : Option (List Byte)
  power : Power
  /-- converters by 2 · die + converter -/
  tmons : Tab Tmon
  thermal : Thermal
  /-- galleries under diagnosis (R417) -/
  diags : List Nat
  test : Option TestRun
  /-- snapshot that is pending: its command and its instant in ns (R426) -/
  snapDue : Option (SubEntry × Nat)
  snap : Option Snap
  lastEpoch : Nat
  /-- instant of the latest management-processor heartbeat (R424) -/
  mpBeat : Nat
  /-- bits [63:32] of the time base latched by a read of TB_LO (R387) -/
  tbHi : Word
  /-- what the dies' copies of the time base differ by, in ns, after the latest tick's correction (R371) -/
  tbDiffs : List Int
  deriving DecidableEq, Repr

/-- The machine right after reset. -/
def State.reset : State where
  pending := []
  now := 0
  free := 0
  nextId := 0
  bar0 := []
  fns := []
  lastRead := 0#64
  rings := []
  accepted := []
  eventSeq := 0
  held := []
  heldLost := 0
  hostMem := []
  mem := []
  marks := []
  counters := []
  counterSat := []
  writes := []
  engines := []
  galleries := []
  partials := []
  powerSteps := []
  cells := []
  arrays := []
  nv := []
  dme := { mgmtQueue := [], queue := [], mgmtWait := [], collected := [], run := none, groups := [], tiles := [], drainEnd := [0, 0] }
  spe := []
  speHold := none
  contexts := []
  coreSlow := false
  lastMargin := 0
  windowOpen := List.replicate 8 false
  progActive := []
  progWait := []
  progHall := 7
  vprogAt := none
  vprogOff := none
  lastWear := 0
  staged := List.replicate 8 0
  loads := []
  prefillJobs := []
  attQueue := []
  attRuns := []
  attBusy := List.replicate 32 0
  kvCache := []
  fetches := []
  kvUsed := []
  parks := []
  tokenisers := []
  tokWait := []
  profileCmd := []
  unloads := []
  prefillTurn := 63
  lastBeat := 0
  streams := []
  mgmtPort := 0
  boot := []
  bootGiven := []
  orphans := []
  hostLines := []
  l2 := []
  fetchRing := 0
  fetchTaken := 0
  dir := []
  scoreboard := []
  portReads := []
  cntAdds := []
  hbmStacks := []
  t1Channels := []
  t1ChannelBytes := 0
  t1Retired := []
  tbStart := none
  fabOut := []
  fabNo := []
  links := []
  adverts := []
  advertSeq := 0
  advertAt := 0
  members := []
  fabIn := []
  windows := []
  flows := []
  treeMap := []
  trees := []
  ueTimes := []
  ceTimes := []
  ceSince := []
  ceLast := []
  retirePending := []
  t2Vol := []
  t2Mem := []
  drives := []
  drivesRetired := []
  tier2 := []
  nvmeRetried := []
  driveReset := []
  hotUnits := []
  lastLine := some []
  power := Power.reset
  tmons := []
  thermal := Thermal.reset
  diags := []
  test := none
  snapDue := none
  snap := none
  lastEpoch := 0
  mpBeat := 0
  tbHi := 0#32
  tbDiffs := []

/-- Why a step would stop with a fault: for no reason. What the spec calls a fault is an event, a status or a register bit of a next
state, so the type has no constructor (safe). -/
inductive Fault where
  deriving DecidableEq, Repr

/-- Why a step would refuse a command. -/
inductive Refusal where
  /-- The command has no meaning yet; raised by a refused arm of the dispatch (safe). -/
  | notModelled (mnemonic : String)
  /-- SPE_DESCRIPTOR_POST of a descriptor whose OP R149 calls undefined: the spec gives it no effect. Safe. -/
  | undefinedSpeDescriptor
  deriving DecidableEq, Repr

end Sys2Proof.Machine
end

