-- ==== Sys2Proof/Machine/Ops.lean ====
section
/-! DEFINITION. The named operations over the state: tables, time, registers, memory and its marks, task windows, arrival counters and
writes in flight. The model's own choices: log 1 time and events (DESIGN CHOICE); log 2 free values (DESIGN CHOICE); log 4 memory never
written (DESIGN CHOICE); log 5 host memory (DESIGN CHOICE); log 6 commands in a power state where they cannot come (DESIGN CHOICE); log 7
cells before programming (DESIGN CHOICE); log 16 delivery times (DEDUCED); log 21 NV log as manufactured (DESIGN CHOICE); log 44
arbitration within a cycle (DEDUCED, DESIGN CHOICE). -/

namespace Sys2Proof.Machine

/-! ### Tables -/

/-- The value stored under a key. -/
def Tab.find {α : Type} : Tab α → Nat → Option α
  | [], _ => none
  | (k, v) :: t, x => if x = k then some v else Tab.find t x

/-- Insert or replace, keeping the keys rising. -/
def Tab.put {α : Type} : Tab α → Nat → α → Tab α
  | [], k, v => [(k, v)]
  | (k', v') :: t, k, v =>
    if k < k' then (k, v) :: (k', v') :: t
    else if k = k' then (k, v) :: t
    else (k', v') :: Tab.put t k v

/-- Remove a key. -/
def Tab.del {α : Type} : Tab α → Nat → Tab α
  | [], _ => []
  | (k', v') :: t, k => if k = k' then Tab.del t k else (k', v') :: Tab.del t k

/-- The value of a key, with what an unlisted key reads as. -/
def Tab.get {α : Type} (d : α) (t : Tab α) (k : Nat) : α := (Tab.find t k).getD d

/-- Write a key, keeping the canonical form: a default value is not listed. -/
def Tab.set {α : Type} [DecidableEq α] (d : α) (t : Tab α) (k : Nat) (v : α) : Tab α :=
  if v = d then Tab.del t k else Tab.put t k v

/-- Change every listed value, keeping the canonical form. -/
def Tab.mapAll {α : Type} [DecidableEq α] (d : α) (f : Nat → α → α) : Tab α → Tab α
  | [] => []
  | (k, v) :: t => if f k v = d then Tab.mapAll d f t else (k, f k v) :: Tab.mapAll d f t

/-- Keys strictly rising, from a lower bound. -/
def Tab.rising {α : Type} : Option Nat → Tab α → Bool
  | _, [] => true
  | lo, (k, _) :: t => (match lo with | some l => decide (l < k) | none => true) && Tab.rising (some k) t

/-- The canonical form for default `d`. -/
def Tab.wf {α : Type} [DecidableEq α] (d : α) (t : Tab α) : Bool :=
  Tab.rising none t && t.all (fun p => decide (p.2 ≠ d))

/-- The canonical form of a table whose default depends on the key. -/
def Tab.wfBy {α : Type} [DecidableEq α] (d : Nat → α) (t : Tab α) : Bool :=
  Tab.rising none t && t.all (fun p => decide (p.2 ≠ d p.1))

/-- The canonical form of device memory: addresses rising, no byte listed that reads 0 anyway. -/
abbrev Memory.wf (m : Tab Byte) : Bool := Tab.wf 0#8 m

/-! ### Time and free values -/

/-- Move the clock forward to an instant, never back. -/
def State.at (s : State) (t : Nat) : State := { s with now := max s.now t }

/-- The global time base in ns; 0 before it starts (R5, R370). -/
def State.time (s : State) : DWord :=
  match s.tbStart with
  | some t0 => BitVec.ofNat 64 ((s.now - t0) / 12)
  | none => 0#64

/-- The next free number, and the state with the counter advanced. -/
def State.draw (s : State) : Nat × State := (Config.freeNat s.free, { s with free := s.free + 1 })

/-! ### Shared registers -/

/-- The stored value of a shared BAR0 register. -/
def State.reg (s : State) (o : Nat) : Word := Tab.get (regReset o) s.bar0 o

/-- Store a register. -/
def State.setReg (s : State) (o : Nat) (v : Word) : State := { s with bar0 := Tab.set (regReset o) s.bar0 o v }

/-- Field [hi:lo] of a register. -/
def State.rfld (s : State) (o hi lo : Nat) : Nat := fld (s.reg o) hi lo

/-- Set field [hi:lo] of a register. -/
def State.setRfld (s : State) (o hi lo x : Nat) : State := s.setReg o (setFld (s.reg o) hi lo x)

/-- Set one bit of a register. -/
def State.setRbit (s : State) (o i : Nat) (b : Bool) : State := s.setRfld o i i (b2n b)

/-- Add to a 32-bit counting register; wraps at 2^32. -/
def State.bump (s : State) (o n : Nat) : State := s.setReg o (s.reg o + BitVec.ofNat 32 n)

/-- Add to the counting field [hi:lo], saturating. -/
def State.bumpSat (s : State) (o hi lo n : Nat) : State :=
  s.setRfld o hi lo (min (s.rfld o hi lo + n) (2 ^ (hi + 1 - lo) - 1))

/-- Package state (R362): 0 OFF, 1 STANDBY, 2 WAKING, 3 RUN, 4 HOLDUP, 5 HALTED. -/
def State.pkg (s : State) : Nat := s.rfld 0x10000 2 0
def State.railEn (s : State) (i : Nat) : Bool := bit (s.reg 0x10008) i
def State.railPg (s : State) (i : Nat) : Bool := bit (s.reg 0x10008) (8 + i)

/-- Has a hand-over stopped the work (R382)? -/
def State.stopped (s : State) : Bool :=
  match s.power.phase with
  | .handover => true
  | .down _ _ => true
  | .holdWait => true
  | _ => false

/-- While throttled, new work starts only in the first DUTY % of each 100 µs window of the time base (R401). -/
def State.dutyOpen (s : State) : Bool :=
  !(bit (s.reg 0x40000) 16) || decide (s.time.toNat % 100000 < 1000 * max 1 (min 100 (s.rfld 0x40000 15 8)))

/-- May units start new work now (R382, R401)? -/
def State.newWork (s : State) : Bool := !s.stopped && s.dutyOpen

/-- May this poster post a launch or a job now? The throttle binds the stream processors (R401). -/
def State.mayPost (s : State) (p : Poster) : Bool := !s.stopped && (decide (p ≠ .sp) || s.dutyOpen)

/-! ### Device memory (R305) -/

def centralBase : Nat := 0
def hallBase (n : Nat) : Nat := 0x100000000 + n * 0x20000000
def tier0Base : Nat := 0x10000000000
def tier1Base : Nat := 0x20000000000
def centralSize : Nat := 0x60000000
def hallSize : Nat := 0x14000000
def gib : Nat := 0x40000000
def mib : Nat := 0x100000

/-- Base address of memory `m` (0–7 hall n, 8 central store, 9 tier 0, 10 tier 1). -/
def memBase (m : Nat) : Nat :=
  if m < 8 then hallBase m else if m = 8 then centralBase else if m = 9 then tier0Base else tier1Base

/-- The memory an address lies in: 0–7 hall n, 8 central store, 9 tier 0, 10 tier 1; none when unmapped (R305, R334,
R336). -/
def State.memOf (s : State) (a : Nat) : Option Nat :=
  if a < centralSize then some 8
  else if hallBase 0 ≤ a ∧ a < hallBase 8 ∧ (a - hallBase 0) % 0x20000000 < hallSize then
    some ((a - hallBase 0) / 0x20000000)
  else if tier0Base ≤ a ∧ a < tier0Base + s.hbmStacks.length * 48 * gib then some 9
  else if tier1Base ≤ a ∧ a < tier1Base + s.t1Channels.length * s.t1ChannelBytes then some 10
  else none

/-- Are all of `n` bytes from `a` in one mapped memory? -/
def State.mapped (s : State) (a n : Nat) : Bool :=
  match s.memOf a with
  | none => false
  | some m => decide (n = 0) || decide (s.memOf (a + n - 1) = some m)

/-- The tier-1 channel that serves an address (R336). -/
def State.t1ChannelOf (s : State) (a : Nat) : Option Nat :=
  s.t1Channels[((a - tier1Base) / 4096) % s.t1Channels.length]?

/-- Does the byte lie on a retired tier-1 channel (R346)? -/
def State.onRetired (s : State) (a : Nat) : Bool :=
  decide (s.memOf a = some 10) &&
    (match s.t1ChannelOf a with | some c => s.t1Retired.contains c | none => false)

/-- Bytes of the interleaved part of tier 0 (R334). -/
def State.t0Inter (s : State) : Nat := s.hbmStacks.length * (48 - s.rfld 0x90000 4 0) * gib

/-- The stack a tier-0 address lies in, and its address there (R334). -/
def State.stackOf (s : State) (a : Nat) : Nat × Nat :=
  let o := a - tier0Base
  let n := s.hbmStacks.length
  let l := s.rfld 0x90000 4 0 * gib
  if o < s.t0Inter then
    let g := o / 4096
    (s.hbmStacks.getD (g % n) 0, (g / n) * 4096 + o % 4096)
  else
    let j := (o - s.t0Inter) / l
    (s.hbmStacks.getD j 0, (48 * gib - l) + (o - s.t0Inter) % l)

/-- First byte of the local region of hall `n`: its stack's, or that of the next stack in the map (R334). -/
def State.localBase (s : State) (n : Nat) : Nat :=
  let j := ((List.range 8).findSome? (fun d => s.hbmStacks.idxOf? ((n + d) % 8))).getD 0
  tier0Base + s.t0Inter + j * (s.rfld 0x90000 4 0 * gib)

/-- One byte of device memory; a byte nothing has written reads 0 (a choice of the model). -/
def State.byte (s : State) (a : Nat) : Byte := Tab.get 0#8 s.mem a

def State.bytes (s : State) (a n : Nat) : List Byte := tabulate n (fun i => s.byte (a + i))

/-- A little-endian number of `n` bytes (R10). -/
def State.readLE (s : State) (a n : Nat) : Nat := leNat (s.bytes a n)

/-- Is the line of address `a` marked uncorrectable (R343), or on a retired channel (R346)? -/
def State.marked (s : State) (a : Nat) : Bool := Tab.get false s.marks (a / 64) || s.onRetired a

/-- Is any line of `n` bytes from `a` marked? -/
def State.anyMarked (s : State) (a n : Nat) : Bool :=
  (List.range ((a + n + 63) / 64 - a / 64)).any (fun i => s.marked ((a / 64 + i) * 64))

def putBytes (m : Tab Byte) (a : Nat) : List Byte → Tab Byte
  | [] => m
  | b :: bs => putBytes (Tab.set 0#8 m a b) (a + 1) bs

/-- As `putBytes`, leaving out the bytes that `keep` refuses. -/
def putBytesIf (keep : Nat → Bool) (m : Tab Byte) (a : Nat) : List Byte → Tab Byte
  | [] => m
  | b :: bs => putBytesIf keep (if keep a then Tab.set 0#8 m a b else m) (a + 1) bs

def clearMarks (m : Tab Bool) (line : Nat) : Nat → Tab Bool
  | 0 => m
  | k + 1 => clearMarks (Tab.set false m line false) (line + 1) k

/-- Write bytes; a line written whole loses its mark (R343); writes to a retired channel are dropped (R346); L1 copies of the lines
are invalidated (R298). -/
def State.writeBytes (s : State) (a : Nat) (bs : List Byte) : State :=
  let first := (a + 63) / 64
  let last := (a + bs.length) / 64
  { s with
    mem := if s.t1Retired.isEmpty then putBytes s.mem a bs else putBytesIf (fun x => !(s.onRetired x)) s.mem a bs
    marks := clearMarks s.marks first (last - first)
    dir := s.dir.filter (fun p => !(decide (a / 64 ≤ p.1 ∧ 64 * p.1 < a + bs.length))) }

def State.writeLE (s : State) (a n x : Nat) : State := s.writeBytes a (natLE n x)

/-- Mark a line uncorrectable (R343). -/
def State.markLine (s : State) (a : Nat) : State := { s with marks := Tab.set false s.marks (a / 64) true }

/-- Bytes the device writes toward host memory on a port; the key carries the port above bit 64. -/
def State.hostWrite (s : State) (port a : Nat) (bs : List Byte) : State :=
  { s with hostMem := putBytes s.hostMem (port * 2 ^ 64 + a) bs }

/-! ### Task windows (R327, R328) -/

/-- Does window `w` of task `t` cover the bytes with the needed permission? -/
def State.windowCovers (s : State) (t w : Nat) (write : Bool) (a n : Nat) : Bool :=
  let o := 0x70000 + 0x80 * t + 0x10 * w
  let lo := s.reg o
  let base := (lo.toNat / 64) * 64 + (s.reg (o + 4)).toNat * 2 ^ 32
  let last := (s.rfld (o + 8) 31 6) * 64 + (s.reg (o + 12)).toNat * 2 ^ 32
  bit lo 0 && bit lo (if write then 2 else 1) && decide (base ≤ a) && decide (a + n ≤ last + 64)

/-- R328: all bytes in mapped memory and, unless the task is 64, in one valid window that grants the access. -/
def State.allowed (s : State) (task : Nat) (write : Bool) (a n : Nat) : Bool :=
  s.mapped a n && (decide (64 ≤ task) || (List.range 8).any (fun w => s.windowCovers task w write a n))

/-! ### Arrival counters (R329, R330) -/

def State.counter (s : State) (key : Nat) : Nat := Tab.get 0 s.counters key

def State.setCounter (s : State) (key v : Nat) : State := { s with counters := Tab.set 0 s.counters key v }

/-- R329: an addition saturates at 0xFFFF_FFFF and sets SATURATED. -/
def State.addCounter (s : State) (key n : Nat) : State :=
  let v := s.counter key + n
  if 0xFFFFFFFF < v then
    { s.setCounter key 0xFFFFFFFF with counterSat := Tab.set false s.counterSat key true }
  else s.setCounter key v

def State.applyIncs (s : State) (is : List Inc) : State := is.foldl (fun s i => s.addCounter i.key i.amount) s

/-- The cycle of the clock of the die that holds a counter (R330). -/
def State.cntCycle (s : State) (key : Nat) : Nat := s.now / (if key / 4096 < 8 then 8 else if s.coreSlow then 8 else 6)

/-- The additions a counter has taken in the cycle that runs (R330). -/
def State.cycleAdds (s : State) (key : Nat) : Nat :=
  let a := Tab.get (0, 0) s.cntAdds key
  if a.1 = s.cntCycle key then a.2 else 0

/-- Keep what additions a cycle has brought (R330). -/
def State.noteAdds (s : State) (is : List Inc) : State :=
  { s with cntAdds := is.foldl (fun t i => Tab.set (0, 0) t i.key (s.cntCycle i.key,
      (let a := Tab.get (0, 0) t i.key
       if a.1 = s.cntCycle i.key then a.2 else 0) + i.amount)) s.cntAdds }

/-- A set takes effect before the additions of its cycle, which it never swallows (R330). -/
def State.setCounterAt (s : State) (key v : Nat) : State := (s.setCounter key v).addCounter key (s.cycleAdds key)

/-- Key of counter `i` of memory `m`. -/
def cntKey (m i : Nat) : Nat := 4096 * m + i % 4096

/-! ### Writes in flight (R317, R449) -/

/-- Hops between two halls the shorter way round the ring (R91). -/
def ringHops (a b : Nat) : Nat := min ((a + 8 - b) % 8) ((b + 8 - a) % 8)

/-- R91: latency of a full chained partial between two halls. -/
def chainLatency (a b : Nat) : Nat :=
  let h := ringHops a b
  if h = 0 then ns 32 else ns (64 + 24 * (h - 1))

/-- R449: write latency from hall `h` to memory `m`. -/
def hallWriteLatency (h m : Nat) : Nat :=
  if m = h then ns 8 else if m < 8 then chainLatency h m else if m = 8 then ns 60 else if m = 9 then ns 150 else ns 500

/-- R449: write latency from the correction die to memory `m`. -/
def coreWriteLatency (m : Nat) : Nat :=
  if m = 8 then ns 20 else if m < 8 then ns 60 else if m = 9 then ns 150 else ns 500

/-- Send a write: it lands when WRITE_ARRIVAL takes it (R317). Answers its number too. -/
def State.send (s : State) (w : PendWrite) : State :=
  { s with writes := s.writes ++ [{ w with id := s.nextId }], nextId := s.nextId + 1 }

/-- A plain write of one unit. -/
def mkWrite (s : State) (o : Owner) (a : Nat) (bs : List Byte) (due : Nat) (incs : List Inc) : PendWrite :=
  { id := 0, due := due, owner := o, mem := (s.memOf a).getD 11, parts := [(a, bs)], marked := [], incs := incs,
    after := [], outbound := false, hadPartials := false }

/-- Land one write: its bytes, its marks, then its increments (R317). -/
def State.land (s : State) (w : PendWrite) : State :=
  let s := w.parts.foldl (fun s p => s.writeBytes p.1 p.2) s
  let s := w.marked.foldl State.markLine s
  (s.applyIncs w.incs).noteAdds w.incs

/-! ### Bank ports and range scoreboards (R323 to R326) -/

/-- The 4 KiB chunk of memory `m` that a march has taken out at this instant, registered until it is restored (R416). -/
def State.testChunk (s : State) (m : Nat) : List SbEntry :=
  match s.test with
  | none => []
  | some t =>
    if (t.test = 1 ∨ t.test = 2) ∧ t.target % 16 = m then
      let c := if t.test = 1 then us 1 else us 20
      let i := (s.now - t.startAt) / c
      if 4096 * i < t.len then [{ addr := t.addr + 4096 * i, len := 4096, until_ := t.startAt + (i + 1) * c }] else []
    else []

/-- Do bytes of a memory lie in the chunk that a march has taken out (R416)? -/
def State.underTest (s : State) (m a n : Nat) : Bool := (s.testChunk m).any (fun e => decide (a < e.addr + e.len ∧ e.addr < a + n))

/-- The store of a narrow access (R323). -/
def State.narrowStore (s : State) (x : NarrowAccess) : State :=
  match x.store with
  | some bs => s.writeBytes x.addr bs
  | none => s

/-- May a narrow access take place: in a scratchpad, outside a chunk under test, and within a window of its task (R323, R327, R328, R416)? -/
def State.narrowOk (s : State) (x : NarrowAccess) : Bool :=
  (match s.memOf x.addr with | some m => decide (m ≤ 8) && !(s.underTest m (x.addr - memBase m) 8) | none => false) && s.allowed x.task x.store.isSome x.addr 8

/-- R326: one cycle of the two ports of a bank. Every read, `reads` of the wide view among them, answers from before the cycle; where both
views write a byte the wide write takes effect. -/
def State.portCycle (s : State) (narrow : List NarrowAccess) (reads : List (Nat × Nat)) (wide : State → State) : State :=
  let narrow := narrow.filter s.narrowOk
  let all := (narrow.filter (fun x => x.store.isNone)).map (fun x => (x.addr, 8)) ++ reads
  { wide (narrow.foldl State.narrowStore s) with portReads := all.map (fun r => (r.1, s.bytes r.1 r.2)) }

/-- Ranges on scoreboard `m` that the bytes overlap and that are not released yet (R325). -/
def State.liveRanges (s : State) (m a n : Nat) : List SbEntry :=
  (Tab.get [] s.scoreboard m ++ s.testChunk m).filter (fun e => decide (s.now < e.until_) && decide (a < e.addr + e.len ∧ e.addr < a + n))

/-- A static step whose bytes overlap a registered range issues once it is released (R324, R325). -/
def State.clearRanges (s : State) (m a n : Nat) : State :=
  match s.liveRanges m a n with
  | [] => s
  | es => (s.at (es.foldl (fun t e => max t e.until_) 0)).bump (0x78100 + 4 * m) 1

/-- May the write at position `k` land now: no earlier write of the same unit to the same memory, and nothing it waits
for, is still in flight (R317). -/
def writeFree (ws : List PendWrite) (k : Nat) : Bool :=
  match ws[k]? with
  | none => false
  | some w => (ws.take k).all (fun v => !(decide (v.owner = w.owner) && decide (v.mem = w.mem))) &&
      ws.all (fun v => !(w.after.contains v.id))

/-! ### Galleries -/

def State.gal (s : State) (k : Nat) : Gallery := Tab.get Gallery.reset s.galleries k
def State.setGal (s : State) (k : Nat) (g : Gallery) : State :=
  { s with galleries := Tab.set Gallery.reset s.galleries k g }
def State.modGal (s : State) (k : Nat) (f : Gallery → Gallery) : State := s.setGal k (f (s.gal k))

/-- Gallery key of hall `h`, gallery `g`. -/
def galKey (h g : Nat) : Nat := 512 * (h % 8) + g % 512

/-- Array key of array `a` of gallery `k`; also its index in the wear table (R183). -/
def arrKey (k a : Nat) : Nat := 32 * k + a % 32
def State.arr (s : State) (i : Nat) : ArrayState := Tab.get ArrayState.reset s.arrays i
def State.setArr (s : State) (i : Nat) (a : ArrayState) : State :=
  { s with arrays := Tab.set ArrayState.reset s.arrays i a }
def State.modArr (s : State) (i : Nat) (f : ArrayState → ArrayState) : State := s.setArr i (f (s.arr i))

/-! ### The NV log (R437) -/

/-- What a byte of the NV log reads as before the device writes it: factory contents below 0x30_3160, else 0. -/
def nvReset (a : Nat) : Byte := if a < 0x303160 then Config.nvFactory a else 0#8

/-- The canonical form of the NV log region. -/
abbrev NvLog.wf (m : Tab Byte) : Bool := Tab.wfBy nvReset m

def State.nvByte (s : State) (a : Nat) : Byte := Tab.get (nvReset a) s.nv a
def State.nvLE (s : State) (a n : Nat) : Nat := leNat (tabulate n (fun i => s.nvByte (a + i)))

def putNv (m : Tab Byte) (a : Nat) : List Byte → Tab Byte
  | [] => m
  | b :: bs => putNv (Tab.set (nvReset a) m a b) (a + 1) bs

def State.nvWrite (s : State) (a : Nat) (bs : List Byte) : State := { s with nv := putNv s.nv a bs }

/-! ### Wear records (R183) -/

/-- The wear record of an array: the SRAM copy, or the NV log's record. -/
def State.wear (s : State) (i : Nat) : BitVec 128 := (s.arr i).wear.getD (BitVec.ofNat 128 (s.nvLE (16 * i) 16))

def wearRows (w : BitVec 128) : Nat := fld w 29 0
def wearState (w : BitVec 128) : Nat := fld w 31 30
def deadCount (w : BitVec 128) : Nat := min 4 (fld w 34 32)
/-- Dead weight columns recorded (R183). -/
def deadCols (w : BitVec 128) : List Nat := tabulate (deadCount w) (fun i => fld w (46 + 11 * i) (36 + 11 * i))
def deadConv (w : BitVec 128) : Nat := fld w 95 80
def State.setWear (s : State) (i : Nat) (w : BitVec 128) : State := s.modArr i (fun a => { a with wear := some w })

/-- An array becomes RETIRED; a failing converter is recorded (R184, R418). -/
def State.retireArray (s : State) (k a : Nat) (conv : Option Nat) : State :=
  let i := arrKey k a
  let w := setFld (s.wear i) 31 30 2
  s.setWear i (match conv with | some c => setFld w (80 + c % 16) (80 + c % 16) 1 | none => w)

/-- GAL_OWNER: the owning context of a gallery, none when it has no owner (R186). -/
def State.owner (s : State) (k : Nat) : Option Nat :=
  let w := s.reg (galReg k 0xC0)
  if bit w 6 then some (fld w 5 0) else none

/-- Is hall `h` in QUIET: allowed to be, none of its galleries owned, all of them DEEP (R373)? -/
def State.quiet (s : State) (h : Nat) : Bool :=
  bit (s.reg 0x1001C) h &&
  (List.range 512).all (fun g => (s.owner (galKey h g)).isNone && decide ((s.gal (galKey h g)).power = .deep))

/-- A load binds a gallery of hall `h`: a hall in QUIET leaves it, and its converter PLL has to relock (R373). -/
def State.leaveQuiet (s : State) (h : Nat) : State :=
  if s.quiet h then { s with power := { s.power with relock := s.power.relock ++ [h], quietLeft := s.power.quietLeft.set h s.now } } else s

/-- The arrays of a gallery that hold an array record, ascending. -/
def State.recArrays (s : State) (k : Nat) : List Nat :=
  (List.range 32).filter (fun a => (s.arr (arrKey k a)).record.isSome)

end Sys2Proof.Machine
end

