-- ==== Sys2Proof/Machine/Flags.lean ====
section
/-! DEFINITION. Status codes, event codes, and the records, interrupts and flags they set: R13, R283 to R296. The model's own choices: log
18 MSI-X vector control (PRESUMED); log 37 rings (DEDUCED, DESIGN CHOICE, PRESUMED). -/

namespace Sys2Proof
open Machine

/-- Byte `i` of a submission entry. -/
def SubEntry.byte (e : SubEntry) (i : Nat) : Nat := fld e.bytes (8 * i + 7) (8 * i)
/-- Little-endian number in bytes `lo` to `hi` of a submission entry (R290). -/
def SubEntry.num (e : SubEntry) (lo hi : Nat) : Nat := fld e.bytes (8 * hi + 7) (8 * lo)
def SubEntry.opcode (e : SubEntry) : Nat := e.byte 0

end Sys2Proof

namespace Sys2Proof.Machine

/-! ### Status codes (R13) -/

def stOk : Nat := 0x00
def stPartial : Nat := 0x01
def stTimeout : Nat := 0x10
def stLoopLimit : Nat := 0x11
def stAccessFault : Nat := 0x12
def stAborted : Nat := 0x13
def stNoCapacity : Nat := 0x20
def stProgramWindow : Nat := 0x21
def stDeviceFault : Nat := 0x30

/-! ### Event codes (R13) -/

def evBootReady : Nat := 0x0010
def evBootDegraded : Nat := 0x0011
def evGallerySuspect : Nat := 0x0101
def evGalleryRetired : Nat := 0x0102
def evCheckMismatch : Nat := 0x0103
def evSequencerMismatch : Nat := 0x0104
def evSurveyReject : Nat := 0x0201
def evDriftRefreshDue : Nat := 0x0202
def evMarginReplan : Nat := 0x0203
def evFallbackEnter : Nat := 0x0301
def evFallbackExit : Nat := 0x0302
def evFallbackSaturated : Nat := 0x0303
def evThermalThrottle : Nat := 0x0401
def evThermalShutdown : Nat := 0x0402
def evProgramWindowClosed : Nat := 0x0403
def evHoldupEnter : Nat := 0x0501
def evHoldupExit : Nat := 0x0502
def evLinkRetired : Nat := 0x0601
def evPeerJoined : Nat := 0x0602
def evPeerLeft : Nat := 0x0603
def evPeerResetMidtransfer : Nat := 0x0604
def evMirrorTakeover : Nat := 0x0701
def evStreamReplay : Nat := 0x0702
def evDmaLoopLimit : Nat := 0x0801
def evDmaTimeout : Nat := 0x0802
def evDoorbellAhead : Nat := 0x0803
def evMemoryChannelRetired : Nat := 0x0901
def evEccCorrected : Nat := 0x0902
def evEccUncorrected : Nat := 0x0903
def evTmonCrosscheckFail : Nat := 0x0A01

/-! ### Rings (R283 to R285) -/

def State.ring (s : State) (n : Nat) : Ring := Tab.get Ring.reset s.rings n
def State.setRing (s : State) (n : Nat) (r : Ring) : State := { s with rings := Tab.set Ring.reset s.rings n r }

def Ring.kind (r : Ring) : Nat := fld r.cfg 1 0
/-- Entries of the ring; SIZE_LOG2 outside 4–16 acts as 4 (R296). -/
def Ring.size (r : Ring) : Nat :=
  let k := fld r.cfg 7 3
  2 ^ (if 4 ≤ k ∧ k ≤ 16 then k else 4)
def Ring.port (r : Ring) : Nat := fld r.cfg 8 8
def Ring.func (r : Ring) : Nat := fld r.cfg 9 9
/-- Number of the bound function: 2 · port + function. -/
def Ring.fn (r : Ring) : Nat := 2 * r.port + r.func
def Ring.ctx (r : Ring) : Nat := fld r.cfg 15 10
def Ring.all (r : Ring) : Bool := bit r.cfg 16
def Ring.cq (r : Ring) : Nat := fld r.cfg 29 17
def Ring.base (r : Ring) : Nat := fld r.baseHi 31 0 * 2 ^ 32 + (fld r.baseLo 31 12) * 4096
/-- A ring the device produces has no room when the next index would reach the head (R285). -/
def Ring.full (r : Ring) : Bool := decide ((r.index + 1) % r.size = r.db % r.size)

/-! ### MSI-X (R280, R282) -/

def State.fn (s : State) (f : Nat) : FnRegs := Tab.get FnRegs.reset s.fns f
def State.setFn (s : State) (f : Nat) (r : FnRegs) : State := { s with fns := (Tab.set FnRegs.reset s.fns f r) }

/-- Reset value of word `i` of the MSI-X table: the mask bit of each vector is set, as PCI Express has it. -/
def msixReset (i : Nat) : Word := if i % 4 = 3 then 1#32 else 0#32

def FnRegs.msixWord (r : FnRegs) (i : Nat) : Word := Tab.get (msixReset i) r.msix i

/-- Send the message of a vector, or set its pending bit while the vector is masked. -/
def State.sendMsix (s : State) (f vec : Nat) : State :=
  let r := s.fn f
  if bit (r.msixWord (4 * vec + 3)) 0 then
    let w := Tab.get 0#32 r.pba (vec / 32) ||| BitVec.ofNat 32 (2 ^ (vec % 32))
    s.setFn f { r with pba := Tab.set 0#32 r.pba (vec / 32) w }
  else
    let a := (r.msixWord (4 * vec)).toNat + (r.msixWord (4 * vec + 1)).toNat * 2 ^ 32
    s.hostWrite (f / 2) a (natLE 4 (r.msixWord (4 * vec + 2)).toNat)

/-- Count one written entry toward the ring's interrupt (RING_INT, R296). -/
def State.signal (s : State) (n : Nat) : State :=
  let r := s.ring n
  if bit r.int 11 then
    let cnt := if fld r.int 19 12 = 0 then 1 else fld r.int 19 12
    if cnt ≤ r.unsignalled + 1 then
      (s.setRing n { r with unsignalled := 0, oldest := none }).sendMsix r.fn (fld r.int 10 0)
    else s.setRing n { r with unsignalled := r.unsignalled + 1, oldest := some (r.oldest.getD s.now) }
  else s

/-! ### Records -/

/-- Set byte `i` of a record. -/
def setByte (bs : List Byte) (i : Nat) (b : Byte) : List Byte := bs.set i b

/-- Write one 64-byte entry at the ring's index with the pass's PHASE, and advance (R284). -/
def State.writeEntry (s : State) (n : Nat) (bs : List Byte) : State :=
  let r := s.ring n
  let flags := ((bs.getD 1 0#8) &&& 0xFE#8) ||| BitVec.ofNat 8 (b2n r.phase)
  let s := s.hostWrite r.port (r.base + 64 * r.index) (setByte bs 1 flags)
  let wraps := decide (r.index + 1 = r.size)
  let s := s.setRing n { r with index := if wraps then 0 else r.index + 1, phase := r.phase != wraps }
  s.signal n

/-- Entries an event ring can hold on chip (R293). -/
def holdingSpace : Nat := 4096

/-- The LOST field goes into an event record when it is written (R292, R293). -/
def withLost (bs : List Byte) (lost : Nat) : List Byte :=
  let l := min lost 0xFFFF
  setByte (setByte bs 6 (BitVec.ofNat 8 l)) 7 (BitVec.ofNat 8 (l / 256))

/-- Write an event record now: the ring's drop count goes out with it. -/
def State.writeEvent (s : State) (n : Nat) (bs : List Byte) : State :=
  let r := s.ring n
  (s.setRing n { r with lost := 0 }).writeEntry n
    (withLost bs (r.lost + leNat ((bs.drop 6).take 2)))

/-- R293: write to an event ring, or wait in its holding space, or drop and count. -/
def State.putEvent (s : State) (n : Nat) (bs : List Byte) : State :=
  let r := s.ring n
  if !r.full && r.waiting.isEmpty then s.writeEvent n bs
  else if r.waiting.length < holdingSpace then s.setRing n { r with waiting := r.waiting ++ [bs] }
  else s.setRing n { r with lost := r.lost + 1, lostTotal := r.lostTotal + 1#32 }

/-- R289, R293: a completion record is never dropped; it waits for room, and for its ring to be enabled. -/
def State.putRecord (s : State) (n : Nat) (bs : List Byte) : State :=
  let r := s.ring n
  if r.enabled && !r.full && r.waiting.isEmpty then s.writeEntry n bs
  else s.setRing n { r with waiting := r.waiting ++ [bs] }

/-- Write a token record: SRV_DELIVERED counts it (R278). -/
def State.writeToken (s : State) (n : Nat) (bs : List Byte) : State := (s.writeEntry n bs).bump 0xA6058 1

/-- R293: a token record is never dropped; it waits as a completion record does. -/
def State.putToken (s : State) (n : Nat) (bs : List Byte) : State :=
  let r := s.ring n
  if r.enabled && !r.full && r.waiting.isEmpty then s.writeToken n bs
  else s.setRing n { r with waiting := r.waiting ++ [bs] }

/-- Write waiting records while the ring has room; `fuel` bounds the number written. -/
def State.drainRing (s : State) (n : Nat) : Nat → State
  | 0 => s
  | fuel + 1 =>
    let r := s.ring n
    match r.waiting with
    | [] => s
    | bs :: rest =>
      if r.full then s
      else
        let s := s.setRing n { r with waiting := rest }
        (if r.kind = 2 then s.writeEvent n bs else if r.kind = 3 then s.writeToken n bs else s.writeEntry n bs).drainRing n fuel

/-! ### Events (R292 to R294) -/

/-- Does an event ring's binding cover an event with this context (R292)? -/
def Ring.covers (r : Ring) (ctx : Option Nat) : Bool :=
  r.enabled && decide (r.kind = 2) && (r.all || (match ctx with | some c => decide (r.ctx = c) | none => false))

/-- The 64 bytes of an event record, LOST zero (R292). -/
def eventRecord (code source : Nat) (ctx : Option Nat) (detail : Nat) (time : DWord) (seq : Nat) : List Byte :=
  [0x02#8, 0#8] ++ natLE 2 code ++ [BitVec.ofNat 8 source] ++
  [BitVec.ofNat 8 (match ctx with | some c => c % 64 + 128 | none => 0)] ++ [0#8, 0#8] ++
  natLE 8 time.toNat ++ natLE 8 detail ++ natLE 4 seq ++ List.replicate 36 0#8

/-- Records the device-wide buffer holds (R294). -/
def heldSpace : Nat := 4096

/-- R294: hold an event that no enabled ring covers; a full buffer drops the oldest. -/
def State.holdEvent (s : State) (bs : List Byte) (ctx : Option Nat) : State :=
  if s.held.length < heldSpace then { s with held := s.held ++ [{ record := bs, ctx := ctx }] }
  else { s with held := s.held.drop 1 ++ [{ record := bs, ctx := ctx }], heldLost := s.heldLost + 1 }

/-- The enabled event rings that cover an event. -/
def State.coverers (s : State) (ctx : Option Nat) : List Nat :=
  (s.rings.filter (fun p => p.2.covers ctx)).map Prod.fst

/-- Raise an event: it takes the next SEQ and goes to every ring that covers it, or is held (R292, R294). -/
def State.raise (s : State) (code source : Nat) (ctx : Option Nat) (detail : Nat) : State :=
  let bs := eventRecord code source ctx detail s.time s.eventSeq
  let s := { s.setReg 0x20 (BitVec.ofNat 32 s.eventSeq) with eventSeq := (s.eventSeq + 1) % 2 ^ 32 }
  match s.coverers ctx with
  | [] => s.holdEvent bs ctx
  | ns => ns.foldl (fun s n => s.putEvent n bs) s

/-- The detail an event of a gallery carries when its chapter defines none (R292). -/
def galDetail (k : Nat) : Nat := k / 512 + (k % 512) * 8

/-- R294: an event ring that is enabled receives every held record it covers, in the order raised. -/
def State.flushHeld (s : State) (n : Nat) : State :=
  let r := s.ring n
  let mine := s.held.filter (fun h => r.covers h.ctx)
  let rest := s.held.filter (fun h => !(r.covers h.ctx))
  match mine with
  | [] => s
  | h :: hs =>
    let s1 := { s with held := rest, heldLost := 0 }
    let s2 := s1.putEvent n (withLost h.record s.heldLost)
    hs.foldl (fun s h => s.putEvent n h.record) s2

/-! ### Completions (R289, R291) -/

/-- The 64 bytes of a completion record (R291). -/
def completionRecord (e : SubEntry) (status result : Nat) (time : DWord) : List Byte :=
  [0x01#8, 0#8, BitVec.ofNat 8 status, BitVec.ofNat 8 e.opcode] ++ natLE 2 e.sq ++ natLE 2 e.index ++
  natLE 8 (e.num 8 15) ++ natLE 8 result ++ natLE 8 time.toNat ++ List.replicate 32 0#8

/-- Complete a command: its record goes to the completion ring its submission ring names, and waits there while that ring is full or
disabled; a completion whose function was reset meanwhile is discarded, and one for a ring of another kind has nowhere to go
(R283, R289, R293, R301). -/
def State.complete (s : State) (e : SubEntry) (status result : Nat) : State :=
  let s := { s with accepted := s.accepted.erase e }
  let cq := (s.ring e.sq).cq
  let r := s.ring cq
  if s.orphans.contains e then { s with orphans := s.orphans.erase e }
  else if r.kind = 1 then s.putRecord cq (completionRecord e status result s.time) else s

/-- A next state. -/
abbrev next (s : State) : Host.Outcome State Fault Refusal := .next s

end Sys2Proof.Machine
end

