-- ==== Sys2Proof/Machine/Operands.lean ====
section
/-! DEFINITION. Operand forms: step words of flights, launch entries, and the descriptors and tables other units read. The model's own
choices: log 13 directory of the error map (DEDUCED). -/

namespace Sys2Proof.Machine

/-! ### Launch entries (R75) -/

def Launch.flight (l : Launch) : Nat := fld l.bits 24 0
def Launch.route (l : Launch) : DWord := BitVec.ofNat 64 (fld l.bits 95 32)
def Launch.tag (l : Launch) : Nat := fld l.bits 111 96
def Launch.compCounter (l : Launch) : Nat := fld l.bits 123 112
def Launch.compAddr (l : Launch) : Nat := fld l.bits 152 128

/-! ### Step words (R78 to R93) -/

abbrev StepWord := BitVec 128

def StepWord.op (w : StepWord) : Nat := fld w 127 122

def opWake : Nat := 0x01
def opArmRef : Nat := 0x02
def opSleep : Nat := 0x03
def opStage : Nat := 0x08
def opEval : Nat := 0x09
def opCarry : Nat := 0x0A
def opLand : Nat := 0x10
def opClose : Nat := 0x11
def opChain : Nat := 0x12
def opWait : Nat := 0x18
def opSignal : Nat := 0x19
def opFence : Nat := 0x1A
def opBranch : Nat := 0x20
def opLoop : Nat := 0x21
def opGap : Nat := 0x28
def opHalt : Nat := 0x3F

/-- Lowest bit an opcode's fields use; the bits below are reserved (R78). None: the opcode is undefined. -/
def stepLowBit (op : Nat) : Option Nat :=
  if op = opWake ∨ op = opArmRef then some 91
  else if op = opSleep then some 121
  else if op = opStage then some 76
  else if op = opEval then some 78
  else if op = opCarry then some 79
  else if op = opLand then some 79
  else if op = opClose then some 49
  else if op = opChain then some 96
  else if op = opWait then some 77
  else if op = opSignal then some 90
  else if op = opFence then some 119
  else if op = opBranch then some 99
  else if op = opLoop then some 88
  else if op = opGap then some 106
  else if op = opHalt then some 122
  else none

/-- Fields inside their stated ranges (R71). -/
def stepRanges (w : StepWord) : Bool :=
  let op := StepWord.op w
  if op = opStage then decide (fld w 120 119 ≠ 3)
  else if op = opLand then
    decide (64 * fld w 117 114 + fld w 113 104 ≤ 1023) && decide (fld w 98 89 + fld w 113 104 ≤ 1023)
  else if op = opClose then decide (fld w 114 111 ≤ 8) && decide (fld w 84 82 ≤ 5)
  else if op = opChain then decide (fld w 99 96 ≠ 0)
  else if op = opSignal then decide (fld w 121 118 ≤ 8) && decide (fld w 105 90 ≠ 0)
  else if op = opLoop then decide (fld w 103 88 ≠ 0)
  else true

/-- R71: a defined opcode, zero reserved bits, every field in range. -/
def stepOk (w : StepWord) : Bool :=
  match stepLowBit (StepWord.op w) with
  | none => false
  | some lo => decide (w.toNat % 2 ^ lo = 0) && stepRanges w

/-- Signed line stride times the loop index, added to a line address (R80, R93). -/
def strided (addr lvl stride : Nat) (loops : List LoopLevel) : Int :=
  (addr : Int) + signed 16 stride * (((loops[lvl]?).map LoopLevel.idx).getD 0 : Nat)

/-- Rows of a budget code (R48). -/
def budgetRows (code : Nat) : Nat := 128 * (code % 4 + 1)

/-! ### Columns of an array (R39 to R42) -/

/-- Converter group of a column (R40). -/
def groupOf (col : Nat) : Nat :=
  if col < 1024 then col / 64 else if col < 1088 then (col - 1024) / 4 else col - 1088

/-- Columns of a converter group in slot order (R40). -/
def groupCols (g : Nat) : List Nat :=
  tabulate 64 (fun i => 64 * g + i) ++ tabulate 4 (fun i => 1024 + 4 * g + i) ++ [1088 + g]

/-- Datum column that serves a column (R41); a datum column serves itself. -/
def datumOf (col : Nat) : Nat :=
  if col < 1024 then 1088 + col / 128
  else if col < 1088 then 1088 + (col - 1024) / 8
  else if col < 1096 then col
  else if col < 1098 then 1092
  else if col < 1100 then 1093
  else if col < 1102 then 1094
  else 1095

def isDatum (col : Nat) : Bool := decide (1088 ≤ col ∧ col < 1096)

/-- Level of a datum, ladder or sentinel cell as R42 gives it; check columns depend on the weights. -/
def refLevel (col r : Nat) : Int :=
  if 1096 ≤ col ∧ col < 1100 then (((r + 4 * (col - 1096)) % 16 : Nat) : Int)
  else if col = 1102 then (if r % 2 = 0 then 3 else 12)
  else if col = 1103 then (if r % 2 = 0 then 0 else 15)
  else 8

/-! ### Regions of a hall scratchpad (R107, R108, R189) -/

/-- Size of the error-map region in MiB (EMAP_CFG, R108, R186). -/
def State.emapMib (s : State) : Nat := max 64 (min 192 (s.rfld 0xA5020 7 0))

/-- First byte of the calibration region of a hall (R189). -/
def calRegion (h : Nat) : Nat := hallBase h + 249 * mib

/-- First byte of array `a`'s coefficient table (R189). -/
def calTable (k a : Nat) : Nat := calRegion (k / 512) + (k % 512) * 145408 + a * 4544

/-- Words of a gallery's error-map pool (R107). -/
def State.poolWords (s : State) : Nat := s.emapMib * mib / 512 / 4

/-- First byte of a gallery's error-map pool (R107, R108). -/
def State.poolBase (s : State) (k : Nat) : Nat :=
  calRegion (k / 512) - s.emapMib * mib + (k % 512) * (s.poolWords * 4)

/-- Word `i` of a gallery's pool. -/
def State.poolWord (s : State) (k i : Nat) : Word := BitVec.ofNat 32 (s.readLE (s.poolBase k + 4 * i) 4)

/-- Entry counts come from the directory: index of the first entry of array `a`, and one past its last (R107). -/
def State.emapRange (s : State) (k a : Nat) : Nat × Nat :=
  ((s.poolWord k (17 * a)).toNat, (s.poolWord k (17 * a + 16)).toNat)

def EmapEntry.ofWord (w : Word) : EmapEntry :=
  { row := fld w 9 0, col := fld w 20 10, dw := signed 8 (fld w 28 21), flags := fld w 31 29 }

def EmapEntry.toWord (e : EmapEntry) : Word :=
  place 32 9 0 e.row ||| place 32 20 10 e.col ||| place 32 28 21 (unsigned 8 e.dw) ||| place 32 31 29 e.flags

/-- An array's entries (R104, R107). -/
def State.emapOf (s : State) (k a : Nat) : List EmapEntry :=
  let (lo, hi) := s.emapRange k a
  tabulate (hi - lo) (fun i => EmapEntry.ofWord (s.poolWord k (1568 + lo + i)))

/-- ROLE and TARGET of the 64 spares of an array (R113). -/
def State.sparesOf (s : State) (k a : Nat) : List (Nat × Nat) :=
  tabulate 64 (fun i =>
    let w := s.poolWord k (544 + 32 * a + i / 2)
    let h := if i % 2 = 0 then fld w 15 0 else fld w 31 16
    (h % 4, h / 4 % 1024))

/-- Entries in use in a gallery's pool (GAL_EMAP_USED). -/
def State.emapUsed (s : State) (k : Nat) : Nat :=
  (List.range 32).foldl (fun n a => n + ((s.emapRange k a).2 - (s.emapRange k a).1)) 0

/-! ### Coefficient tables (R187 to R189) -/

/-- `n`-byte number at an offset of a table. -/
def tblNum (t : List Byte) (o n : Nat) : Nat := leNat ((t.drop o).take n)

/-- GAIN and OFFS of a column at a budget code, expanded (R187). -/
def coefCol (t : List Byte) (col code : Nat) : Int × Int :=
  let trim := tblNum t (2 * col) 2
  let base := tblNum t (0x8A0 + 4 * (4 * groupOf col + code)) 4
  ((base % 2 ^ 15 : Nat) + 4 * signed 9 trim, signed 10 (base / 2 ^ 16) + signed 7 (trim / 2 ^ 9))

/-- GAIN and OFFS of a row for transpose passes (R188). -/
def coefRow (t : List Byte) (row : Nat) : Int × Int :=
  let trim := tblNum t (0x9A0 + 2 * row) 2
  let base := tblNum t (0x11A0 + 4 * (row / 256)) 4
  ((base % 2 ^ 15 : Nat) + 4 * signed 9 trim, signed 10 (base / 2 ^ 16) + signed 7 (trim / 2 ^ 9))

/-- Full-scale exponent of a budget code (R55). -/
def State.fsExp (s : State) (k code : Nat) : Nat := 6 + s.rfld (galReg k 0x40) (4 * code + 2) (4 * code)

/-- FS_T of a gallery (R64). -/
def State.fsT (s : State) (k : Nat) : Nat := 6 + s.rfld (galReg k 0x40) 18 16

end Sys2Proof.Machine
end

