-- ==== Sys2Proof/Machine/FlightCheck.lean ====
section
/-! DEFINITION. What the loader checks of a gallery's flights before an atlas goes live: R71, R79, R81 to R83, R86 to R88,
R90, R106, R114. -/

namespace Sys2Proof.Machine

/-- A loop body: positions of its first step and of its LOOP, and its level. -/
structure LoopBody where
  first : Nat
  last : Nat
  lvl : Nat
  deriving DecidableEq, Repr

/-- The steps skipped by a BRANCH_ROUTE: first and last position, empty when `hi < lo`. -/
structure Skip where
  at_ : Nat
  lo : Nat
  hi : Nat
  deriving DecidableEq, Repr

def stepAt (ws : List StepWord) (i : Nat) : StepWord := ws.getD i 0#128

def loopBodies (ws : List StepWord) : List LoopBody :=
  ws.zipIdx.filterMap (fun (w, i) => if StepWord.op w = opLoop then
    some { first := i - fld w 103 88, last := i, lvl := fld w 121 120 } else none)

def skips (ws : List StepWord) : List Skip :=
  ws.zipIdx.filterMap (fun (w, i) => if StepWord.op w = opBranch then
    some { at_ := i, lo := i + 1, hi := i + fld w 114 99 } else none)

def haltIn (ws : List StepWord) (lo hi : Nat) : Bool :=
  ws.zipIdx.any (fun (w, i) => decide (lo ≤ i ∧ i ≤ hi) && decide (StepWord.op w = opHalt))

/-- R71 and R82: every body starts at or after the first step, holds no HALT, and bodies nest without reusing a level. -/
def loopsOk (ws : List StepWord) : Bool :=
  let bs := loopBodies ws
  ws.zipIdx.all (fun (w, i) => decide (StepWord.op w ≠ opLoop) || decide (fld w 103 88 ≤ i)) &&
  bs.all (fun b => !(haltIn ws b.first b.last)) &&
  bs.all (fun b => bs.all (fun c => decide (b.last = c.last) || decide (b.last < c.first) || decide (c.last < b.first) ||
    ((decide (b.first ≤ c.first ∧ c.last ≤ b.last) || decide (c.first ≤ b.first ∧ b.last ≤ c.last)) && decide (b.lvl ≠ c.lvl))))

/-- R83: a skip passes no HALT and does not cross the boundary of a body. -/
def skipsOk (ws : List StepWord) : Bool :=
  (skips ws).all (fun k => decide (k.hi < k.lo) || (!(haltIn ws k.lo k.hi) && decide (k.hi < ws.length) &&
    (loopBodies ws).all (fun b =>
      if b.first ≤ k.at_ ∧ k.at_ ≤ b.last then decide (k.hi < b.last)
      else decide (k.hi < b.first) || decide (b.last < k.lo) || decide (k.lo ≤ b.first ∧ b.last ≤ k.hi))))

/-- First step of the flight that holds position `j`: after the HALT before it. -/
def flightStart (ws : List StepWord) (j : Nat) : Nat :=
  (((List.range j).filter (fun i => decide (StepWord.op (stepAt ws i) = opHalt))).map (· + 1)).getLastD 0

/-- First step of the innermost body that holds position `j`, else of its flight. -/
def innermost (ws : List StepWord) (j : Nat) : Nat :=
  (loopBodies ws).foldl (fun m b => if b.first ≤ j ∧ j ≤ b.last then max m b.first else m) (flightStart ws j)

/-- Can a skip leave out every position of `is` and not `j`? -/
def skipsWithout (ws : List StepWord) (is : List Nat) (j : Nat) : Bool :=
  (skips ws).any (fun k => is.all (fun i => decide (k.lo ≤ i ∧ i ≤ k.hi)) && !(decide (k.lo ≤ j ∧ j ≤ k.hi)))

/-- R81: a CARRY at position `j` belongs to one EVAL whose results nothing has taken. -/
def carryOk (ws : List StepWord) (j : Nat) : Bool :=
  let slot := fld (stepAt ws j) 121 121
  let before := (List.range j).filter (fun i => decide (innermost ws j ≤ i))
  match (before.filter (fun i => decide (StepWord.op (stepAt ws i) = opEval) && decide (fld (stepAt ws i) 121 121 = slot))).getLast? with
  | none => false
  | some i =>
    let mask := fld (stepAt ws i) 120 89
    !(skipsWithout ws [i] j) &&
    (before.filter (fun x => decide (i < x))).all (fun x =>
      let w := stepAt ws x
      let op := StepWord.op w
      !((decide (op = opStage ∨ op = opEval ∨ op = opCarry) && decide (fld w 121 121 = slot)) ||
        (decide (op = opLand) && mask.testBit (fld w 103 99))))

/-- R87: the array of the LAND at `j` took part in an EVAL since its previous LAND. -/
def landOk (ws : List StepWord) (j : Nat) : Bool :=
  let a := fld (stepAt ws j) 103 99
  let prev := (((List.range j).filter (fun i => decide (StepWord.op (stepAt ws i) = opLand) &&
    decide (fld (stepAt ws i) 103 99 = a))).map (· + 1)).getLastD 0
  let from_ := max prev (innermost ws j)
  let es := (List.range j).filter (fun i => decide (from_ ≤ i) && decide (StepWord.op (stepAt ws i) = opEval) &&
    (fld (stepAt ws i) 120 89).testBit a)
  !es.isEmpty && !(skipsWithout ws es j)

/-- An open group in the scan of R86: group, tile, base, length less one, row block of its latest LAND. -/
structure OpenGroup where
  group : Nat
  tile : Nat
  base : Nat
  len : Nat
  rowblk : Nat
  deriving DecidableEq, Repr

/-- A step that closes a group: position, group, CHAIN_IN, length less one, and the target of a CHAIN. -/
structure CloseStep where
  group : Nat
  chainIn : Nat
  len : Nat
  target : Option (Nat × Nat × Nat × Nat)
  deriving DecidableEq, Repr

def overlaps (x y : OpenGroup) : Bool :=
  decide (x.tile = y.tile) && decide (64 * x.base ≤ 64 * y.base + y.len) && decide (64 * y.base ≤ 64 * x.base + x.len)

/-- R86, R88: scan a gallery's steps in order; none when a rule is broken, else every step that closes a group. -/
def scanGroups : List OpenGroup → List CloseStep → List StepWord → Option (List CloseStep)
  | open_, cs, [] => if open_.isEmpty then some cs else none
  | open_, cs, w :: ws =>
    let op := StepWord.op w
    let gi := fld w 121 119
    if op = opLand then
      let n : OpenGroup := { group := gi, tile := fld w 118 118, base := fld w 117 114, len := fld w 113 104, rowblk := fld w 88 79 }
      match open_.find? (fun o => decide (o.group = gi)) with
      | none => if open_.any (overlaps n) || decide (8 ≤ open_.length) then none else scanGroups (n :: open_) cs ws
      | some o =>
        if o.tile = n.tile ∧ o.base = n.base ∧ o.len = n.len ∧ o.rowblk < n.rowblk then
          scanGroups (n :: open_.erase o) cs ws
        else none
    else if op = opClose ∨ op = opChain then
      match open_.find? (fun o => decide (o.group = gi)) with
      | none => none
      | some o =>
        let c : CloseStep :=
          { group := gi, chainIn := fld w 118 115, len := o.len, target :=
            if op = opChain then some (fld w 114 112, fld w 111 103, fld w 102 100, fld w 99 96) else none }
        scanGroups (open_.erase o) (cs ++ [c]) ws
    else if op = opHalt then (if open_.isEmpty then scanGroups [] cs ws else none)
    else scanGroups open_ cs ws

/-- Every rule the loader checks of one gallery's steps on their own. -/
def stepsOk (ws : List StepWord) : Bool :=
  let pos := List.range ws.length
  ws.all stepOk &&
  (match ws.getLast? with | some w => decide (StepWord.op w = opHalt) | none => true) &&
  pos.all (fun i => decide (StepWord.op (stepAt ws i) ≠ opSleep) || decide (StepWord.op (stepAt ws (i + 1)) = opHalt)) &&
  loopsOk ws && skipsOk ws &&
  pos.all (fun i => decide (StepWord.op (stepAt ws i) ≠ opCarry) || carryOk ws i) &&
  pos.all (fun i => decide (StepWord.op (stepAt ws i) ≠ opLand) || landOk ws i) &&
  (scanGroups [] [] ws).isSome

/-- R90 over the flights of a context: `cs` gives each gallery's closing steps under its (hall, gallery) name. -/
def chainsOk (cs : List ((Nat × Nat) × List CloseStep)) : Bool :=
  let sends := cs.flatMap (fun (_, xs) => xs.filterMap (fun c => c.target.map (fun t => (t, c.len))))
  let recvs := cs.flatMap (fun (name, xs) => (xs.filter (fun c => decide (0 < c.chainIn))).map (fun c => (name, c)))
  recvs.all (fun (name, c) =>
    recvs.all (fun (name', c') => decide (name ≠ name' ∨ c.group ≠ c'.group) || decide (c.chainIn = c'.chainIn ∧ c.len = c'.len)) &&
    (List.range c.chainIn).all (fun i =>
      match sends.filter (fun (t, _) => decide (t = (name.1, name.2, c.group, i + 1))) with
      | [(_, len)] => decide (len = c.len)
      | _ => false)) &&
  sends.all (fun ((h, g, gi, p), _) => recvs.any (fun (name, c) =>
    decide (name = (h, g) ∧ c.group = gi ∧ 1 ≤ p ∧ p ≤ c.chainIn)))

/-! ### Seeds (R106, R114) -/

/-- R114: repair spares never come in an image, one repair per target, and 0, 1 or 3 replicas of kind 2, and of both. -/
def sparesOk (sp : List (Nat × Nat)) : Bool :=
  (List.range 1024).all (fun t =>
    let mine := fun (role : Nat) => (sp.filter (fun x => decide (x = (role, t)))).length
    let good := fun (n : Nat) => decide (n = 0 ∨ n = 1 ∨ n = 3)
    decide (mine 1 ≤ 1) && (decide (mine 1 = 0) || decide (mine 2 = 0)) && good (mine 2) && good (mine 2 + mine 3))

/-- R106 for the RANGE entries of a seed: kind, column and strict order. -/
def rangesOk (es : List EmapEntry) : Bool :=
  let key := fun (e : EmapEntry) => (groupOf e.col * 2048 + e.col) * 1024 + e.row
  es.all (fun e => decide (e.flags = 3) && decide (e.col < 1088)) &&
  (es.zip (es.drop 1)).all (fun (x, y) => decide (key x < key y))

end Sys2Proof.Machine
end

