-- ==== Sys2Proof/Machine/Passes.lean ====
section
/-! DEFINITION. Pass lists, the signal of a pass and its codes: "Resistive arrays, passes and column converters" (R44 to R64). The model's
own choices: log 7 cells before programming (DESIGN CHOICE); log 8 converter codes (DEDUCED, DESIGN CHOICE); log 15 datum of a transpose
pass (DEDUCED). -/

namespace Sys2Proof.Machine

/-- Largest scale of a segment's blocks that are neither zero nor poison; 0x00 when there is none (R49). S8 codes rise
with their values. -/
def segMax (scales : List Byte) : Byte :=
  scales.foldl (fun a b => if S8.isPoison b then a else if a.toNat < b.toNat then b else a) 0x00#8

def segPoison (g : Segment) : Bool := g.scales.any S8.isPoison

/-- R49: the class of each block; none for a block that is not driven. -/
def segClasses (g : Segment) : List (Option DClass) :=
  let m := segMax g.scales
  g.scales.map (fun b => if b = 0x00#8 || S8.isPoison b then none else classOf g.lowpass m b)

/-- The code a line is driven with in the main passes, re-expressed (R29, R47); 0 when its block is not driven. -/
def mainCode (g : Segment) (cls : List (Option DClass)) (r : Nat) : Int :=
  match cls[r / 32]? with
  | some (some c) => reexpress (g.codes.getD r 0) (segMax g.scales) (g.scales.getD (r / 32) 0#8) c
  | _ => 0

/-- The driven carry code of a line (R53); the class is that of its main block. -/
def carryCode (main carry : Segment) (cls : List (Option DClass)) (r : Nat) : Int :=
  match cls[r / 32]? with
  | some (some c) => reexpressCarry (carry.codes.getD r 0) (segMax main.scales) (carry.scales.getD (r / 32) 0#8) c
  | _ => 0

/-- Signed pulse width of a code in a step (R20, R45). -/
def pulse (high : Bool) (q : Int) : Int :=
  let p := if high then highPair q else lowPair q
  if q < 0 then -(p : Int) else p

/-- Lines of one step and class with nonzero pulse, in ascending order (R49). -/
def stepRows (cls : List (Option DClass)) (code : Nat → Int) (high : Bool) (c : DClass) : List (Nat × Int) :=
  (List.range 1024).filterMap (fun r =>
    if cls.getD (r / 32) none = some c then
      (if pulse high (code r) = 0 then none else some (r, pulse high (code r)))
    else none)

/-- R49, R50, R53: the passes of the selected steps, high before low, classes in order, rows by the budget. -/
def passList (cls : List (Option DClass)) (code : Nat → Int) (budget : Nat) (high low carry : Bool) : List Pass :=
  let one := fun (h : Bool) (c : DClass) =>
    (chunks budget 1024 (stepRows cls code h c)).map (fun rs =>
      ({ high := h, cls := c, carry := carry, rows := rs, opened := none, readyAt := 0, done := false,
         codes := [] } : Pass))
  (if high then DClass.all.flatMap (one true) else []) ++ (if low then DClass.all.flatMap (one false) else [])

/-! ### Cells and signals (R42, R44, R63) -/

/-- Key of a cell. -/
def cellKey (arr col row : Nat) : Nat := (arr * 1104 + col) * 1024 + row

/-- Level of a cell in quarter levels; a cell nothing has programmed holds level 8, a sentinel its factory level. -/
def State.cellQ (s : State) (arr col row : Nat) : Int :=
  Tab.get (if 1102 ≤ col then 4 * refLevel col row else 32) s.cells (cellKey arr col row)

def State.setCellQ (s : State) (arr col row : Nat) (q : Int) : State :=
  { s with cells := Tab.set (if 1102 ≤ col then 4 * refLevel col row else 32) s.cells (cellKey arr col row) q }

/-- R44: ideal forward signal of a column, in quarters of a level-pulse unit; a datum column is sensed against a nominal
level-8 column (R41). -/
def State.signal4 (s : State) (arr : Nat) (rows : List (Nat × Int)) (col : Nat) : Int :=
  isum (rows.map (fun (r, p) =>
    p * (s.cellQ arr col r - (if isDatum col then 32 else s.cellQ arr (datumOf col) r))))

/-- R63, R117: ideal transpose signal of a row, in thirty-secondths of a level-pulse unit: the reference is the mean of
the row's eight datum cells. -/
def State.rowSignal32 (s : State) (arr : Nat) (cols : List (Nat × Int)) (row : Nat) : Int :=
  let d := isum (tabulate 8 (fun i => s.cellQ arr (1088 + i) row))
  isum (cols.map (fun (c, p) => p * (8 * s.cellQ arr c row - d)))

/-- R54: the ideal code of a signal given as `num / den` level-pulse units, with the converter's own departure. -/
def codeOf (num : Int) (den f k : Nat) : Int :=
  clampI (-128) 127 (rhe (num * 128) (den * 2 ^ f) + Config.codeError k)

/-- Codes of the 1,104 columns of one array in a forward pass; `k` numbers the first free value used. -/
def State.forwardCodes (s : State) (arr : Nat) (rows : List (Nat × Int)) (f k : Nat) : List Int :=
  tabulate 1104 (fun col => codeOf (s.signal4 arr rows col) 4 f (k + col))

/-- Codes of the 1,024 rows of one array in a transpose pass. -/
def State.transposeCodes (s : State) (arr : Nat) (cols : List (Nat × Int)) (f k : Nat) : List Int :=
  tabulate 1024 (fun row => codeOf (s.rowSignal32 arr cols row) 32 f (k + row))

/-- The repair spare of a weight column, from a spare table (R113, R115). -/
def repairOf (spares : List (Nat × Nat)) (col : Nat) : Option Nat :=
  ((List.range 64).find? (fun i => decide (spares.getD i (0, 0) = (1, col)))).map (1024 + ·)

/-- R63: the columns a transpose pass drives: a repair spare stands in for its dead column. -/
def drivenCols (spares : List (Nat × Nat)) (rows : List (Nat × Int)) : List (Nat × Int) :=
  rows.map (fun (c, p) => ((repairOf spares c).getD c, p))

/-- Arrays of a mask, ascending. -/
def maskArrays (mask : Nat) : List Nat := (List.range 32).filter (fun a => mask.testBit a)

end Sys2Proof.Machine
end

