-- ==== Sys2Proof/Machine/Correction.lean ====
section
/-! DEFINITION. The correction pipeline and the arithmetic checks: "Digital correction and arithmetic checks" (R98 to R122). The model's
own choices: log 46 poison column scale of an analogue matrix (DEDUCED, DESIGN CHOICE). -/

namespace Sys2Proof.Machine

/-! ### Stages 2 to 4 -/

/-- R102: one code, in quarter code steps. -/
def correctCode (c gain offs : Int) : Int := rhe ((4 * c - offs) * gain) (2 ^ 14)

/-- R103: the shift of a pass. -/
def passShift (p : Pass) : Nat :=
  let lo := match p.cls with
    | .low => if p.carry then 3 else 0
    | c => (if p.carry then 7 else 4) - c.n
  if p.high then lo + 2 else lo

/-- Codes of one array in a pass. -/
def passCodes (p : Pass) (a : Nat) : List Int := ((p.codes.find? (fun x => decide (x.1 = a))).map Prod.snd).getD []

/-- Stages 2 to 4 for every line of an array: corrected codes weighted and added over the passes, exact (R103). -/
def stage4 (ps : List Pass) (a n : Nat) (coef : Nat → Int × Int) : List Int :=
  let ws := ps.map (fun p => ((2 : Int) ^ passShift p, passCodes p a))
  tabulate n (fun j =>
    isum (ws.map (fun (w, cs) => correctCode (cs.getD j 0) (coef j).1 (coef j).2 * w)))

/-! ### Stage 5 (R104 to R110) -/

/-- Driven part of a code under the selected steps (R109). -/
def drivenPart (high low : Bool) (q : Int) : Int :=
  let m : Nat := (if high then 4 * highPair q else 0) + (if low then lowPair q else 0)
  if q < 0 then -(m : Int) else m

/-- Driven input of a line in units of 2^−4 level-pulse units: `(q_main + 8 · q_carry) · 2^(4 − n)` (R109). -/
def drivenInput (e : EvalRun) (r : Nat) : Int :=
  let qm := drivenPart e.high e.low (mainCode e.seg e.cls r)
  let qc := match e.carrySeg with
    | some g => drivenPart e.high e.low (carryCode e.seg g e.cls r)
    | none => 0
  match e.cls.getD (r / 32) none with
  | some c => (qm + 8 * qc) * 2 ^ (4 - c.n)
  | none => 0

/-- Is the entry applied to outputs (R104)? -/
def appliedOut (thresh : Nat) (e : EmapEntry) : Bool :=
  match e.flags with
  | 1 => decide (thresh ≤ e.dw.natAbs)
  | 2 | 3 | 4 => true
  | _ => false

/-- Is the entry applied in the check (R104)? -/
def appliedCheck (e : EmapEntry) : Bool :=
  match e.flags with
  | 1 | 2 | 4 => true
  | _ => false

/-- Residual sum of a column, in units of 2^−6 level-pulse units (R109). -/
def residSum (es : List EmapEntry) (use : EmapEntry → Bool) (x : Nat → Int) (col : Nat) : Int :=
  isum (es.map (fun e =>
    if !(use e) then 0
    else if e.flags = 4 then
      (if e.col = col then x e.row * e.dw
       else if !(isDatum col) && decide (datumOf col = e.col) then -(x e.row * e.dw) else 0)
    else if e.col = col then x e.row * e.dw else 0))

/-- R110: a residual sum in the flight unit; `extra` = 3 for the transpose datum term (R117). -/
def toFlightUnit (f extra : Nat) (r : Int) : Int :=
  if f + extra < 7 then r * 2 ^ (7 - f - extra) else rhe r (2 ^ (f + extra - 7))

/-- Residual sum of a row in a transpose EVAL, in the flight unit (R117). -/
def residRow (es : List EmapEntry) (use : EmapEntry → Bool) (spares : List (Nat × Nat)) (x : Nat → Int) (f row : Nat) :
    Int :=
  let input := fun (col : Nat) =>
    if col < 1024 then (if (repairOf spares col).isSome then 0 else x col)
    else match spares[col - 1024]? with
      | some (1, t) => if col < 1088 then x t else 0
      | _ => 0
  let total := isum (tabulate 1024 x)
  let cells := isum (es.map (fun e => if use e && decide (e.row = row) && decide (e.flags ≠ 4) then input e.col * e.dw else 0))
  let datum := isum (es.map (fun e => if use e && decide (e.row = row) && decide (e.flags = 4) then -(total * e.dw) else 0))
  toFlightUnit f 0 cells + toFlightUnit f 3 datum

/-! ### Stages 6 and 7 (R115 to R117) -/

/-- Active replicas of a weight column under a REPLICA_MODE (R115). -/
def activeReplicas (spares : List (Nat × Nat)) (mode col : Nat) : List Nat :=
  (List.range 64).filterMap (fun i =>
    let (role, t) := spares.getD i (0, 0)
    if t = col ∧ ((role = 2 ∧ 1 ≤ mode) ∨ (role = 3 ∧ 2 ≤ mode)) then some (1024 + i) else none)

/-- R115: the partial of a weight column after stage 6. -/
def stage6 (spares : List (Nat × Nat)) (mode : Nat) (s5 : List Int) (col : Nat) : Int :=
  let prim := s5.getD ((repairOf spares col).getD col) 0
  let reps := (activeReplicas spares mode col).map (fun c => s5.getD c 0)
  if reps.length = 1 ∨ reps.length = 3 then rhe (prim + isum reps) (reps.length + 1) else prim

/-- 2^e as binary32. -/
def pow2F (e : Int) : F32 := F32.ofRat (pow2 e)

/-- R116: the binary32 output of a partial. A poison column scale is no number (R23, R25), so its column's outputs are the NaN that
R38 gives a poison weight block on the wide path: R38 has no row for an analogue column (log 46, DESIGN CHOICE). -/
def scaleOut (f logK : Nat) (smax : Byte) (scol : Option Byte) (s6 : Int) : F32 :=
  let y := F32.mul (F32.mul (F32.ofInt s6) (pow2F ((f : Int) - 13 - logK))) (S8.toF32 smax)
  match scol with
  | some b => if S8.isPoison b then nan32 else F32.mul y (S8.toF32 b)
  | none => y

/-! ### Checks (R118 to R122) -/

/-- Which check failed first: part code of GAL_CHK_LAST and converter group. -/
structure CheckFail where
  array : Nat
  part : Nat
  group : Nat
  deriving DecidableEq, Repr

/-- Outcome of the checks of one array: done and skipped counts, and failures in R124's order. -/
structure CheckResult where
  passed : Nat
  skipped : Nat
  fails : List CheckFail
  deriving DecidableEq, Repr

def CheckResult.join (a b : CheckResult) : CheckResult :=
  { passed := a.passed + b.passed, skipped := a.skipped + b.skipped, fails := a.fails ++ b.fails }

/-- τ of R119 in units of 2^−7 level-pulse units. -/
def tolerance (tol f passes : Nat) : Int := ((tol + 1) * 2 ^ (f + 3) * ceilSqrt passes : Nat)

def clipped (c : Int) : Bool := decide (c = -128) || decide (c = 127)

/-- R119 and R120: the check of half `h`. `x` gives driven inputs in units of 2^−4; S5c is in the flight unit. -/
def checkHalf (ps : List Pass) (a h f tol gc : Nat) (spares : List (Nat × Nat)) (rho : List (Int × Int))
    (s5c : List Int) (x : Nat → Int) : CheckResult :=
  let cols := tabulate 512 (fun j => 512 * h + j)
  let watched := cols ++ cols.filterMap (repairOf spares) ++ [1100 + h]
  if ps.any (fun p => watched.any (fun c => clipped ((passCodes p a).getD c 0))) then
    { passed := 0, skipped := 1, fails := [] }
  else
    let sum := isum (cols.map (fun c => s5c.getD ((repairOf spares c).getD c) 0))
    let xh := isum (tabulate 1024 (fun r =>
      x r * (let (r0, r1) := rho.getD r (0, 0); if h = 0 then r0 else r1)))
    let d := (sum - 2 ^ gc * s5c.getD (1100 + h) 0) * 2 ^ (f - 6) - xh * 8
    if d.natAbs ≤ (tolerance tol f ps.length).toNat then { passed := 1, skipped := 0, fails := [] }
    else { passed := 0, skipped := 0, fails := [{ array := a, part := h, group := 0 }] }

/-- R121: the reference check of converter group `g`. -/
def checkGroup (ps : List Pass) (a g f tol : Nat) (s5c : List Int) (x : Nat → Int) : CheckResult :=
  let col := 1088 + g
  let lev := fun (r : Nat) => if isDatum col then 0 else refLevel col r - 8
  let predPass := fun (p : Pass) => isum (p.rows.map (fun (r, w) => w * lev r))
  if ps.any (fun p => decide (3 * 2 ^ f < 4 * (predPass p).natAbs)) then { passed := 0, skipped := 0, fails := [] }
  else
    let pred := isum (tabulate 1024 (fun r => x r * lev r)) * 8
    let v := s5c.getD col 0 * 2 ^ (f - 6)
    if 16 * (v - pred).natAbs ≤ (tolerance tol f ps.length).toNat then { passed := 1, skipped := 0, fails := [] }
    else { passed := 0, skipped := 0, fails := [{ array := a, part := 2, group := g }] }

/-- R122: the check of a transpose EVAL; GAL_CHK_DONE counts half and group checks only (R131). -/
def checkTranspose (ps : List Pass) (a f tol : Nat) (colSums : List Int) (s5c : List Int) (x : Nat → Int) : CheckResult :=
  if ps.any (fun p => (passCodes p a).any clipped) then { passed := 0, skipped := 0, fails := [] }
  else
    let d := isum s5c * 2 ^ (f - 6) - isum (tabulate 1024 (fun j => x j * colSums.getD j 0)) * 8
    if d.natAbs ≤ (tolerance tol f ps.length).toNat then { passed := 0, skipped := 0, fails := [] }
    else { passed := 0, skipped := 0, fails := [{ array := a, part := 3, group := 0 }] }

/-- All checks of one array of a forward EVAL, in R124's order. -/
def checksForward (ps : List Pass) (a f tol gc : Nat) (spares : List (Nat × Nat)) (rho : List (Int × Int))
    (s5c : List Int) (x : Nat → Int) : CheckResult :=
  let halves := [checkHalf ps a 0 f tol gc spares rho s5c x, checkHalf ps a 1 f tol gc spares rho s5c x]
  let groups := ((List.range 16).filter (fun g => decide (g ≠ 12 ∧ g ≠ 13))).map (fun g => checkGroup ps a g f tol s5c x)
  (halves ++ groups).foldl CheckResult.join { passed := 0, skipped := 0, fails := [] }

/-! ### One EVAL, one array -/

def lookupArr {α : Type} (xs : List (Nat × α)) (a : Nat) : Option α := (xs.find? (fun x => decide (x.1 = a))).map Prod.snd

/-- Stage-5 partials of an array: for outputs, and for the check (R110, R117). -/
def stage5 (e : EvalRun) (a : Nat) : List Int × List Int :=
  let tbl := (lookupArr e.coefs a).getD []
  let es := (lookupArr e.emap a).getD []
  let spares := (lookupArr e.spares a).getD []
  let xs := tabulate 1024 (drivenInput e)
  let x := fun r => xs.getD r 0
  if e.transpose then
    let s4 := stage4 e.passes a 1024 (coefRow tbl)
    (s4.zipIdx.map (fun (v, r) => v + residRow es (appliedOut e.thresh) spares x e.f r),
     s4.zipIdx.map (fun (v, r) => v + residRow es appliedCheck spares x e.f r))
  else
    let s4 := stage4 e.passes a 1104 (fun c => coefCol tbl c e.budgetCode)
    (s4.zipIdx.map (fun (v, c) => v + toFlightUnit e.f 0 (residSum es (appliedOut e.thresh) x c)),
     s4.zipIdx.map (fun (v, c) => v + toFlightUnit e.f 0 (residSum es appliedCheck x c)))

/-- The binary32 outputs of one array of an EVAL (R51, R115 to R117). -/
def evalOutputs (e : EvalRun) (a : Nat) (fmt : WFormat) (scales : List Byte) : List F32 :=
  if e.poison then List.replicate 1024 nan32
  else if e.passes.isEmpty then List.replicate 1024 zero32
  else
    let s5 := (stage5 e a).1
    let spares := (lookupArr e.spares a).getD []
    if e.transpose then s5.map (scaleOut e.f fmt.logK e.smax none)
    else tabulate 1024 (fun j =>
      scaleOut e.f fmt.logK e.smax (some (scales.getD j 0#8)) (stage6 spares e.replicaMode s5 j))

/-- The checks of one array of an EVAL; an EVAL without passes has none (R130). -/
def evalChecks (e : EvalRun) (a gc : Nat) (rho : List (Int × Int)) (colSums : List Int) : CheckResult :=
  if e.poison || e.passes.isEmpty then { passed := 0, skipped := 0, fails := [] }
  else
    let s5c := (stage5 e a).2
    let xs := tabulate 1024 (drivenInput e)
    let x := fun r => xs.getD r 0
    let spares := (lookupArr e.spares a).getD []
    if e.transpose then checkTranspose e.passes a e.f e.chkTol colSums s5c x
    else checksForward e.passes a e.f e.chkTol gc spares rho s5c x

end Sys2Proof.Machine
end

