-- ==== Sys2Proof/Machine/GalleryOps.lean ====
section
/-! DEFINITION. What a gallery does whatever the step: power, launches, the end of a flight, stops and re-runs, the suspect state (R70 to
R77, R84, R124 to R127). The model's own choices: log 12 instants of steps and passes (DEDUCED); log 16 delivery times (DEDUCED); log 17
what a re-run suppresses (DEDUCED); log 19 a step row whose step is not at the PC (DEDUCED, DESIGN CHOICE); log 31 rotation (DEDUCED); log
47 outbound operations of a flight that is cut off (DEDUCED, DESIGN CHOICE); log 50 dead converters and requests of the management
processors (DEDUCED, DESIGN CHOICE). -/

namespace Sys2Proof.Machine

/-! ### Power (R72, R73) -/

/-- Time a wake from DEEP takes to READY. -/
def deepWake : Nat := ns 400
/-- Time a wake from LIGHT takes to READY. -/
def lightWake : Nat := ns 40
/-- Time the reference buffer must be on before a pass (R59). -/
def refWarm : Nat := us 2

/-- A WAKE, a launch or a chained partial reaches the gallery (R73). -/
def Gallery.wake (g : Gallery) (now : Nat) : Gallery :=
  match g.power with
  | .deep => { g with power := .waking, wakeDue := some (now + deepWake) }
  | .light => if g.wakeDue.isSome then g else { g with wakeDue := some (now + lightWake) }
  | _ => g

/-- An ARM_REF reaches the gallery (R73). -/
def Gallery.arm (g : Gallery) (now : Nat) : Gallery :=
  match g.power with
  | .deep => { g with power := .waking, wakeDue := some (now + deepWake), armHeld := true }
  | .waking => { g with armHeld := true }
  | _ => { g with refOn := some (g.refOn.getD now) }

/-- The gallery enters LIGHT; the buffer comes on (R73). -/
def Gallery.enterLight (g : Gallery) (now : Nat) : Gallery :=
  { g with power := .light, wakeDue := none, refOn := some (g.refOn.getD now), idleSince := none, lightSince := some now }

/-- The gallery enters DEEP: power off, stager contents lost (R72). -/
def Gallery.enterDeep (g : Gallery) : Gallery :=
  { g with power := .deep, wakeDue := none, armHeld := false, refOn := none, idleSince := none, lightSince := none,
           slots := [none, none] }

/-- Does the landing hold an open group or a chained partial (R73, R79)? -/
def Gallery.landingHolds (g : Gallery) : Bool := !g.groups.isEmpty || !g.inbox.isEmpty

/-! ### Events of a gallery -/

/-- Raise an event of gallery `k` with its default detail (R292). -/
def State.raiseGal (s : State) (k code : Nat) : State := s.raise code (k / 512) (s.owner k) (galDetail k)

/-- Raise SEQUENCER_MISMATCH and count it in GAL_SEQ_MISMATCH (R70, R71, R97). -/
def State.raiseSequencer (s : State) (k : Nat) : State :=
  (s.bumpSat (galReg k 0x18) 15 0 1).raiseGal k evSequencerMismatch

/-! ### The end of a flight (R76, R77) -/

/-- The 16-byte completion record (R76). -/
def completion16 (tag status : Nat) (rerun late : Bool) (passes : Nat) (time : DWord) : List Byte :=
  natLE 2 tag ++ [BitVec.ofNat 8 status, BitVec.ofNat 8 (b2n rerun + 2 * b2n late)] ++ natLE 4 passes ++
  natLE 8 time.toNat

/-- Span over which SRV_LOAD measures (R258). -/
def loadSpan : Nat := ms 100

/-- Note whether the gallery is RUNNING or holds queued launches (R258). -/
def Gallery.noteBusy (g : Gallery) (now : Nat) : Gallery :=
  match g.flight.isSome || !g.queue.isEmpty, g.busySince with
  | true, none => { g with busySince := some now }
  | false, some t => { g with busySince := none, busy := g.busy.filter (fun p => decide (now < p.2 + loadSpan)) ++ [(t, now)] }
  | _, _ => g

/-- Index of the 1 ms period of the global time base in progress (R94); 0 before the time base starts. -/
def State.period (s : State) : Nat := match s.tbStart with | some t0 => (s.now - t0) / ms 1 | none => 0

/-- Time a background activity has used in the period in progress: what an earlier period used is gone at the boundary, whether or not a
command brought the boundary (R94, R96). -/
def State.usedTime (s : State) (k kind : Nat) : Nat :=
  let g := s.gal k
  if g.usedPeriod = s.period then g.used.getD kind 0 else 0

/-- Charge a unit's whole time to the period in progress (R94). -/
def State.chargeTime (s : State) (k kind t : Nat) : State :=
  let used := tabulate 4 (s.usedTime k)
  s.modGal k (fun g => { g with used := used.set kind (used.getD kind 0 + t), usedPeriod := s.period })

/-- Send the completion record of a launch to the central store, with its counter (R76). -/
def State.flightRecord (s : State) (k : Nat) (l : Launch) (status : Nat) (rerun late : Bool) (passes : Nat) : State :=
  let s := (s.modGal k (fun g => g.noteBusy s.now)).bump (galReg k 0x1C) 1
  s.send (mkWrite s (.gallery k) (centralBase + 64 * l.compAddr)
    (completion16 l.tag status rerun late passes s.time) (s.now + hallWriteLatency (k / 512) 8)
    [{ key := cntKey 8 l.compCounter, amount := 1 }])

/-- Discard what a stopped flight had in the gallery: passes, groups and staged segments (R70, R77). -/
def Gallery.discard (g : Gallery) : Gallery :=
  { g with slots := [none, none], evals := [], groups := [], closing := none, breaks := g.breaks + 1 }

/-- What a flight that has ended leaves behind of its outbound operations still arrives, and no later flight of the gallery counts it
or waits for it (R84, R85). -/
def State.releaseOutbound (s : State) (k : Nat) : State :=
  { s with
    writes := s.writes.map (fun w => if w.owner = .gallery k then { w with outbound := false } else w)
    partials := s.partials.map (fun p => if p.src = k then { p with outbound := false } else p) }

/-- A flight that runs no step ends with a status: what the gallery holds of groups, partials and segments is discarded (R77). -/
def State.endUnrun (s : State) (k : Nat) (l : Launch) (status : Nat) : State :=
  (s.modGal k (fun g => { g.discard with inbox := [] })).flightRecord k l status false false 0

/-- Is the FLIGHT of a launch inside the gallery's flights (R75)? -/
def Gallery.flightInside (g : Gallery) (l : Launch) : Bool :=
  decide (g.flightBase ≤ l.flight) && decide (l.flight < g.flightBase + g.flightSteps)

/-- Is the FLIGHT of a launch in a rotating layer that is not resident? Such a launch waits (R181). -/
def Gallery.flightElsewhere (g : Gallery) (l : Launch) : Bool :=
  g.otherFlights.any (fun x => decide (x.1 ≤ l.flight) && decide (l.flight < x.1 + x.2))

def LoopLevel.reset : LoopLevel := { active := false, remaining := 0, idx := 0 }

/-- A flight at its first step. -/
def Flight.start (l : Launch) (issueAt : Nat) : Flight :=
  { launch := l, pc := l.flight, issueAt := issueAt, loops := List.replicate 4 LoopLevel.reset, nOut := 0, nWait := 0,
    skipOut := 0, skipWait := 0, sleep := none, gapEnd := none, waitSince := none, passes := 0, lateArm := false,
    rerun := false, rerunAt := none }

/-- REPLICA_MODE of an operating profile (R275). -/
def profileReplica (p : Nat) : Nat := if p = 0 then 1 else if p = 2 then 2 else 0
/-- Replica floor of a margin level (R207). -/
def replicaFloor (l : Nat) : Nat := if l = 0 then 0 else if l = 3 then 2 else 1

/-- BUDGET code of every EVAL in a profile (R275). -/
def profileBudget (p : Nat) : Nat := if p = 2 then 1 else 3

/-- Rewrite the BUDGET field of the EVAL steps among `n` steps of hall `h` from step address `a` (R276). -/
def State.rewriteBudgets (s : State) (h a budget : Nat) : Nat → State
  | 0 => s
  | n + 1 =>
    let w : BitVec 128 := BitVec.ofNat 128 (s.readLE (hallBase h + 16 * (a + n)) 16)
    let s := if fld w 127 122 = opEval then s.writeLE (hallBase h + 16 * (a + n)) 16 (setFld w 88 87 budget).toNat else s
    s.rewriteBudgets h a budget n

/-- R275: the settings of a profile at one gallery. -/
def State.applyProfile (s : State) (k p : Nat) : State :=
  let g := s.gal k
  let s := (g.flightBase, g.flightSteps) :: g.otherFlights |>.foldl (fun s (a, n) => s.rewriteBudgets (k / 512) a (profileBudget p) n) s
  let s := s.setRfld (galReg k 0x60) 9 8 (max (profileReplica p) (replicaFloor g.survey.marginLevel))
  let s := s.setRfld (galReg k 0x60) 3 0 (if p = 2 then 0 else if p = 3 then 8 else 4)
  let s := s.setRfld (galReg k 0x20) 7 0 (if p = 0 then 20 else if p = 2 then 40 else 10)
  let s := s.setRfld (galReg k 0x08) 1 0 (if p = 0 then 3 else if p = 3 then 1 else 2)
  (s.setRfld (galReg k 0x0C) 9 0 1).setRfld (galReg k 0x0C) 25 16 (if p = 3 then 1 else 10)

/-- PROFILE_SET completes once every gallery of the context has the profile (R276). -/
def State.profileDone (s : State) (c : Nat) : State :=
  match Tab.find s.profileCmd c with
  | none => s
  | some es =>
    if s.galleries.any (fun p => decide (s.owner p.1 = some c) && p.2.newProfile.isSome) then s
    else es.foldl (fun s e => s.complete e stOk 0) { s with profileCmd := Tab.del s.profileCmd c }

/-- Between flights a gallery takes up a new profile (R276). -/
def State.takeProfile (s : State) (k : Nat) : State :=
  let g := s.gal k
  match g.newProfile, g.flight with
  | some p, none =>
    let s := (s.setGal k { g with newProfile := none }).applyProfile k p
    (match s.owner k with | some c => s.profileDone c | none => s)
  | _, _ => s

/-- Does test 5 of the test engine hold the gallery (R416)? -/
def State.testHolds (s : State) (k : Nat) : Bool :=
  match s.test with
  | some t => decide (t.test = 5 ∧ 512 * (t.target % 8) + t.target / 8 % 512 = k)
  | none => false

/-- End of the gallery's latest background unit, for which a launch or a pass waits (R95). -/
def State.bgUntil (s : State) (k : Nat) : Nat := match (s.gal k).bg with | some b => b.endAt | none => 0

/-- Start the next launch entry of a READY, idle gallery (R75); entries that cannot run end at once: ACCESS_FAULT outside
the gallery's flights, DEVICE_FAULT on a suspect gallery (R77, R127); a scan of the test engine or a pair reset holds them (R70). `fuel`
bounds the entries taken. -/
def State.startNext (s : State) (k : Nat) : Nat → State
  | 0 => s
  | fuel + 1 =>
    let s := s.takeProfile k
    let g := s.gal k
    match g.queue, g.flight with
    | l :: rest, none =>
      let s := s.setGal k { g with queue := rest }
      if g.suspect && decide (l.poster ≠ .mp) then (s.endUnrun k l stDeviceFault).startNext k fuel
      else if g.flightElsewhere l then s.setGal k g
      else if !(g.flightInside l) then (s.endUnrun k l stAccessFault).startNext k fuel
      else if s.testHolds k || g.pairReset.isSome then s.setGal k g
      else if g.power = .ready then
        s.setGal k { s.gal k with
          flight := some (Flight.start l (max (max s.now (l.arrived + ns 8)) (s.bgUntil k))), idleSince := none, slots := [none, none] }
      else s.setGal k g
    | _, _ => s

/-- Entries of the queue at most, and one more turn to stop (R75). -/
def queueDepth : Nat := 8

/-- End the running flight with a status; ends other than HALT discard groups, held partials and segments (R77). A pair reset in progress
goes on (R70). -/
def State.endFlight (s : State) (k status : Nat) : State :=
  let g := s.gal k
  match g.flight with
  | none => s
  | some f =>
    let g1 := { g with flight := none, closing := none, idleSince := some s.now }
    let g2 := if status = stOk then { g1 with evals := [], slots := [none, none] }
      else { g1.discard with inbox := [] }
    let s := ((s.setGal k g2).releaseOutbound k).flightRecord k f.launch status f.rerun f.lateArm f.passes
    s.startNext k (queueDepth + 1)

/-- Drop every outbound operation of the gallery's flight that has not arrived (R70, R127). The rules say so of a flight that stops for a
re-run and of one that ends because the gallery becomes suspect; for a corrupted step, marked control data and an abort by a management
processor they are silent, and the model drops them there too (log 47, DESIGN CHOICE). -/
def State.dropOutbound (s : State) (k : Nat) : State :=
  { s with
    writes := s.writes.filter (fun w => !(decide (w.owner = .gallery k) && w.outbound))
    partials := s.partials.filter (fun p => !(decide (p.src = k) && p.outbound)) }

/-! ### Suspect galleries (R126, R127) -/

/-- Every queued launch entry that no management processor posted ends at once with DEVICE_FAULT (R127). -/
def State.refuseQueued (s : State) (k : Nat) : State :=
  let g := s.gal k
  (g.queue.filter (fun l => decide (l.poster ≠ .mp))).foldl (fun s l => s.flightRecord k l stDeviceFault false false 0)
    (s.setGal k { g with queue := g.queue.filter (fun l => decide (l.poster = .mp)) })

/-- The gallery becomes suspect: the event, the cause, the end of every flight and entry not posted by a management
processor. -/
def State.becomeSuspect (s : State) (k cause : Nat) : State :=
  let g := s.gal k
  if g.suspect then s
  else
    let s := (s.setGal k { g with suspect := true, cause := cause, suspectTimes := s.now :: g.suspectTimes.take 2 }).raiseGal k evGallerySuspect
    match g.flight with
    | some f =>
      if f.launch.poster = .mp then s.refuseQueued k
      else ((s.dropOutbound k).endFlight k stDeviceFault).refuseQueued k
    | none => (s.startNext k (queueDepth + 1)).refuseQueued k

/-! ### Stops and re-runs (R70, R84, R124, R125) -/

/-- Had the flight added a chained partial to a group whose CLOSE or CHAIN has not arrived (R84)? -/
def State.partialsSpent (s : State) (k : Nat) : Bool :=
  (s.gal k).groups.any (fun p => decide (0 < p.2.added)) ||
  s.writes.any (fun w => decide (w.owner = .gallery k) && w.outbound && w.hadPartials) ||
  s.partials.any (fun p => decide (p.src = k) && p.outbound && p.hadPartials)

/-- Stop the flight as steps 1 and 2 of R70 do and arrange its re-run at `at?` (none: after the pair reset); a flight that
may not be re-run ends with DEVICE_FAULT and the gallery becomes suspect with the cause given (R125). A comparator difference resets the
pair either way (`reset`, step 4 of R70). -/
def State.stopForRerun (s : State) (k cause : Nat) (reset : Bool) : State :=
  let g := s.gal k
  match g.flight with
  | none => s
  | some f =>
    if f.rerun || s.partialsSpent k then
      let s := if reset then s.setGal k { g with pairReset := some (s.now + us 2) } else s
      ((s.dropOutbound k).endFlight k stDeviceFault).becomeSuspect k cause
    else
      let f1 := { f with rerunAt := if reset then none else some (s.now + ns 8), gapEnd := none, waitSince := none }
      let s := s.dropOutbound k
      s.setGal k { (s.gal k).discard with
        flight := some f1, pairReset := if reset then some (s.now + us 2) else none }

/-- A comparator difference of the sequencer pair (R70). -/
def State.sequencerMismatch (s : State) (k : Nat) : State := (s.raiseSequencer k).stopForRerun k 4 true

/-- A corrupted step: SEQUENCER_MISMATCH, and the flight ends with DEVICE_FAULT without a re-run (R71). -/
def State.corruptStep (s : State) (k : Nat) : State := ((s.raiseSequencer k).dropOutbound k).endFlight k stDeviceFault

/-- Control data read with an uncorrectable mark ends the flight; the management processor requests suspect (R343). -/
def State.markedControl (s : State) (k : Nat) : State :=
  ((s.dropOutbound k).endFlight k stDeviceFault).becomeSuspect k 6

/-! ### Issue of a step (R78) -/

/-- The step word at a step address of hall `h`; none when its line is marked or it lies outside the scratchpad. -/
def State.stepWord (s : State) (h pc : Nat) : Option StepWord :=
  if s.marked (hallBase h + 16 * pc) || decide (hallSize < 16 * pc + 16) then none
  else some (BitVec.ofNat 128 (s.readLE (hallBase h + 16 * pc) 16))

/-- May the sequencers issue: READY, a flight running, no GAP, no pair reset, no re-run pending? -/
def Gallery.issuing (g : Gallery) : Bool :=
  decide (g.power = .ready) && g.pairReset.isNone &&
  (match g.flight with | some f => f.gapEnd.isNone && f.rerunAt.isNone | none => false)

/-- Issue one step of the opcode `op`: the flight's step at its instant. A corrupted step ends the flight (R71), a marked
one too (R343); where the step at the PC is another opcode, or the gallery may not issue, nothing happens. -/
def State.withStep (s : State) (k op : Nat) (body : State → Flight → StepWord → State) : State :=
  let g := s.gal k
  if !g.issuing then s
  else match g.flight with
    | none => s
    | some f =>
      let s1 := s.at f.issueAt
      match s.stepWord (k / 512) f.pc with
      | none => s1.markedControl k
      | some w => if !(stepOk w) then s1.corruptStep k else if StepWord.op w = op then body s1 f w else s

/-- As `withStep`, with the comparator: it checks every output in every hall cycle, whether the step issues in it or is blocked, and
`differ` says that it found a difference (R69, R70). -/
def State.withChecked (s : State) (k op : Nat) (differ : Bool) (body : State → Flight → StepWord → State) : State :=
  s.withStep k op (fun s f w => if differ then s.sequencerMismatch k else body s f w)

/-- Put the flight back with its PC moved and the next step one hall cycle on (R78). -/
def State.advanceTo (s : State) (k : Nat) (f : Flight) (pc : Nat) : State :=
  s.modGal k (fun g => { g with flight := some { f with pc := pc, issueAt := s.now + hallCycles 1, waitSince := none } })

def State.stepDone (s : State) (k : Nat) (f : Flight) : State := s.advanceTo k f (f.pc + 1)

/-- Task of a gallery's accesses: its owner; a gallery without an owner has no windows (R327). -/
def State.galTask (s : State) (k : Nat) : Nat := (s.owner k).getD 0

def State.galAllowed (s : State) (k : Nat) (write : Bool) (a n : Nat) : Bool :=
  (s.owner k).isSome && s.allowed (s.galTask k) write a n

/-- Outbound operations of the gallery that have not arrived (R85). -/
def State.outboundPending (s : State) (k : Nat) : Bool :=
  s.writes.any (fun w => decide (w.owner = .gallery k) && w.outbound) ||
    s.partials.any (fun p => decide (p.src = k) && p.outbound)

/-- An outbound operation completes: the ledger counts it (R84). -/
def State.countOut (s : State) (k : Nat) : State :=
  s.modGal k (fun g => { g with flight := g.flight.map (fun f => { f with nOut := f.nOut + 1 }) })

end Sys2Proof.Machine
end

