-- ==== Sys2Proof/Machine/Flight.lean ====
section
/-! DEFINITION. The steps of a flight and the events of a gallery that runs one: "Galleries, flights and landings" and the pass timing of
"Resistive arrays, passes and column converters". The model's own choices: log 9 CLOSE of a group that is not open (DESIGN CHOICE); log 10
parcels at a window's edge (DEDUCED); log 11 pass counters (DEDUCED); log 12 instants of steps and passes (DEDUCED); log 14 a carry that
is still to come (DEDUCED); log 16 delivery times (DEDUCED); log 17 what a re-run suppresses (DEDUCED); log 19 a step row whose step is
not at the PC (DEDUCED, DESIGN CHOICE); log 20 full queues (DEDUCED); log 44 arbitration within a cycle (DEDUCED, DESIGN CHOICE); log 48
scrub mismatches and R126's count (DESIGN CHOICE); log 50 dead converters and requests of the management processors (DEDUCED, DESIGN
CHOICE). -/

namespace Sys2Proof.Machine

/-! ### Launch (R75) -/

/-- Post an entry: it joins the queue, wakes the gallery and starts when the gallery is READY and idle; a full queue leaves the poster
waiting. An entry posted to a suspect gallery by another than a management processor ends at once (R127, R130). -/
def flightLaunch (h g : Nat) (entry : BitVec 256) (poster : Poster) (work : Work) (s : State) : State :=
  let k := galKey h g
  let gl := s.gal k
  let l : Launch := { bits := entry, poster := poster, work := work, arrived := s.now }
  if gl.suspect && decide (poster ≠ .mp) then (s.setGal k (gl.wake s.now)).flightRecord k l stDeviceFault false false 0
  else if queueDepth ≤ gl.queue.length then (if work = Work.decode then s.setGal k { gl with decodeWaits := true } else s)
  else
    (s.setGal k (({ gl with queue := gl.queue ++ [l], decodeWaits := gl.decodeWaits && decide (work ≠ Work.decode) }.wake s.now).noteBusy
      s.now)).startNext k (queueDepth + 1)

/-! ### Power steps (R73, R74, R79) -/

/-- A power step takes effect at its target. -/
def State.powerAt (s : State) (target : Nat) (arm : Bool) : State :=
  s.modGal target (fun g => if arm then g.arm s.now else g.wake s.now)

/-- The target of a WAKE or ARM_REF, and its delivery time: 8 ns within a hall, 40 ns to another (R74). -/
def powerTarget (k : Nat) (w : StepWord) : Nat × Nat :=
  if bit w 121 then
    (galKey (fld w 120 118) (fld w 117 109), if fld w 120 118 = k / 512 then ns 8 else ns 40)
  else (k, 0)

def powerStep (arm : Bool) (k : Nat) (s : State) (f : Flight) (w : StepWord) : State :=
  let dist := fld w 108 107
  let s1 :=
    if dist = 0 ∨ dist = s.rfld (galReg k 0x08) 1 0 then
      let (t, lat) := powerTarget k w
      let due := s.now + lat + ns (fld w 106 91)
      if due = s.now then s.powerAt t arm
      else { s with powerSteps := s.powerSteps ++ [{ target := t, arm := arm, due := due }] }
    else s
  s1.modGal k (fun g => { g with flight := some { f with pc := f.pc + 1, issueAt := s.now + hallCycles 1 } })

/-- WAKE (R73, R74, R79). -/
def execWake (h g : Nat) (s : State) (differ : Bool := false) : Host.Outcome State Fault Refusal :=
  next (s.withChecked (galKey h g) opWake differ (powerStep false (galKey h g)))

/-- ARM_REF (R73, R74, R79). -/
def execArmRef (h g : Nat) (s : State) (differ : Bool := false) : Host.Outcome State Fault Refusal :=
  next (s.withChecked (galKey h g) opArmRef differ (powerStep true (galKey h g)))

/-- The power step that is due first. -/
def firstPowerStep : List PowerStep → Option PowerStep
  | [] => none
  | p :: ps => match firstPowerStep ps with
    | some q => if q.due < p.due then some q else some p
    | none => some p

/-- REMOTE_POWER_STEP_ARRIVAL (R79): the step that is due first reaches its target. -/
def execRemotePowerStepArrival (s : State) : Host.Outcome State Fault Refusal :=
  match firstPowerStep s.powerSteps with
  | none => next s
  | some p => next (({ s with powerSteps := s.powerSteps.erase p }.at p.due).powerAt p.target p.arm)

/-- SLEEP (R79): names the state entered at the HALT that follows; true is DEEP. -/
def execSleep (h g : Nat) (s : State) (differ : Bool := false) : Host.Outcome State Fault Refusal :=
  let k := galKey h g
  next (s.withChecked k opSleep differ (fun s f w => s.stepDone k { f with sleep := some (bit w 121) }))

/-! ### Staging and evaluation (R80, R81) -/

def stageFormat (code : Nat) : ActFormat := if code = 0 then .a4 else if code = 1 then .a3 else .a2

/-- Read 32 blocks of a parcel in a scratchpad; a block with a marked data or scale line is poison (R34, R38, R343). -/
def State.readSegment (s : State) (a : Nat) (half : Bool) (fmt : ActFormat) (lowpass : Bool) (readyAt : Nat) : Segment :=
  let w := fmt.width
  let b0 := if half then 32 else 0
  let scale := fun b =>
    if s.anyMarked (a + 4 * w * (b0 + b)) (4 * w) || s.marked (a + 256 * w + b0 + b) then 0xF8#8
    else s.byte (a + 256 * w + b0 + b)
  let codes := (List.range 32).flatMap (fun b => (unpackBlock w (s.bytes (a + 4 * w * (b0 + b)) (4 * w))).map fmt.decode)
  { format := fmt, lowpass := lowpass, scales := tabulate 32 scale, codes := codes, readyAt := readyAt }

/-- A slot is free once every pass built from its segment has been sampled (R80); none while a pass has not opened. -/
def slotFreeAt (es : List EvalRun) (slot : Nat) : Option Nat :=
  es.foldl (fun t e =>
    if e.slot ≠ slot then t
    else if e.carryDue.isSome then none
    else e.passes.foldl (fun t p => match t, p.opened with
      | some x, some o => some (max x (o + ns 12))
      | _, _ => none) t) (some 0)

def stageBody (k : Nat) (s : State) (f : Flight) (w : StepWord) : State :=
  let slot := fld w 121 121
  match slotFreeAt (s.gal k).evals slot with
  | none => s
  | some t =>
    let s := s.at t
    let fmt := stageFormat (fld w 120 119)
    let line := strided (fld w 116 94) (fld w 93 92) (fld w 91 76) f.loops
    let a := hallBase (k / 512) + 64 * line.toNat
    if line < 0 || decide (s.memOf a ≠ some (k / 512)) || !(s.galAllowed k false a (64 * parcelLines fmt.width)) then
      s.endFlight k stAccessFault
    else
      let s := s.clearRanges (k / 512) (64 * line.toNat) (64 * parcelLines fmt.width)
      let seg := s.readSegment a (bit w 117) fmt (bit w 118) (s.now + hallCycles 33)
      (s.modGal k (fun g => { g with slots := g.slots.set slot (some seg) })).stepDone k f

/-- STAGE (R80): the parcel is checked against base and bound (R77), then loaded into a free slot at a block per hall cycle; the
segment serves an EVAL from the cycle after its last block, and the EVAL's passes follow a cycle later, which is how the worked
example of a mismatch in a chained product has a first window open 1.4 ns after staging ends. -/
def execStage (h g : Nat) (differ : Bool) (s : State) : Host.Outcome State Fault Refusal :=
  next (s.withChecked (galKey h g) opStage differ (stageBody (galKey h g)))

/-- A segment of no blocks: what an EVAL of an unstaged slot evaluates (R80). -/
def emptySegment : Segment :=
  { format := .a4, lowpass := false, scales := List.replicate 32 0x00#8, codes := List.replicate 1024 0, readyAt := 0 }

/-- Instant at which the programmer has released every array of the mask (R66). -/
def State.heldUntil (s : State) (k mask : Nat) : Nat :=
  (maskArrays mask).foldl (fun t a => max t (s.arr (arrKey k a)).heldUntil) 0

/-- Does any line of the gallery's error-map pool that an EVAL reads carry a mark (R343)? -/
def State.poolMarked (s : State) (k mask : Nat) : Bool :=
  (maskArrays mask).any (fun a =>
    let (lo, hi) := s.emapRange k a
    s.anyMarked (s.poolBase k + 4 * (1568 + lo)) (4 * (hi - lo)) ||
    s.anyMarked (s.poolBase k + 4 * (544 + 32 * a)) 128 || s.anyMarked (calTable k a) 4544)

def evalBody (k : Nat) (s : State) (f : Flight) (w : StepWord) : State :=
  let g := s.gal k
  let slot := fld w 121 121
  let mask := fld w 120 89
  if g.evals.any (fun e => e.carryDue.isSome) then s
  else if s.poolMarked k mask then s.markedControl k
  else
    let seg := (g.slots.getD slot none).getD emptySegment
    let s := s.at (max seg.readyAt (s.heldUntil k mask))
    let code := min (fld w 88 87) (s.rfld (galReg k 0x44) 1 0)
    let tr := bit w 84
    let fx := if tr then s.fsT k else s.fsExp k code
    let poison := segPoison seg
    let cls := segClasses seg
    let spares := (maskArrays mask).map (fun a => (a, s.sparesOf k a))
    let emap := (maskArrays mask).map (fun a => (a, s.emapOf k a))
    let count := emap.foldl (fun n x => n + x.2.length) 0
    let passes := if poison || decide (mask = 0) then []
      else passList cls (mainCode seg cls) (budgetRows code) (bit w 86) (bit w 85) false
    let e : EvalRun :=
      { id := g.nextEval, slot := slot, mask := mask, budgetCode := code, f := fx, transpose := tr, high := bit w 86,
        low := bit w 85, chkTol := fld w 83 78, thresh := s.rfld (galReg k 0x60) 3 0,
        replicaMode := if g.forced then 2 else s.rfld (galReg k 0x60) 9 8,
        poison := poison, seg := seg, smax := segMax seg.scales, cls := cls, carrySeg := none, carryDue := none,
        passes := passes, residDue := s.now + hallCycles (cdiv count 128 + 8), residDone := false, emap := emap,
        spares := spares, coefs := [], done := false, readyAt := s.now + hallCycles 1, outs := [], landed := 0, era := g.breaks }
    let sv := { g.survey with budgetsSeen := g.survey.budgetsSeen ||| 2 ^ code }
    (s.modGal k (fun g => { g with evals := g.evals ++ [e], nextEval := g.nextEval + 1, survey := sv })).stepDone k f

/-- EVAL (R48, R49, R51, R52, R55, R81): the pass list of the slot's segment, at the effective budget and the gallery's f,
with the error map, spare tables and thresholds in force at its issue (R112, R130). -/
def execEval (h g : Nat) (differ : Bool) (s : State) : Host.Outcome State Fault Refusal :=
  next (s.withChecked (galKey h g) opEval differ (evalBody (galKey h g)))

/-- Change the newest EVAL that names a slot (R81). -/
def modLastEval (slot : Nat) (fn : EvalRun → EvalRun) (es : List EvalRun) : List EvalRun :=
  match es.reverse.findIdx? (fun e => decide (e.slot = slot)) with
  | none => es
  | some i => (es.zipIdx).map (fun (e, j) => if j = es.length - 1 - i then fn e else e)

def carryBody (k : Nat) (s : State) (f : Flight) (w : StepWord) : State :=
  let g := s.gal k
  let slot := fld w 121 121
  if g.evals.any (fun e => e.carryDue.isSome) then s
  else
    let line := strided (fld w 119 97) (fld w 96 95) (fld w 94 79) f.loops
    let a := hallBase (k / 512) + 64 * line.toNat
    if line < 0 || decide (s.memOf a ≠ some (k / 512)) || !(s.galAllowed k false a (64 * parcelLines 4)) then
      s.endFlight k stAccessFault
    else
      let due := s.now + hallCycles 32
      let seg := s.readSegment a (bit w 120) .a4 false due
      (s.modGal k (fun g => { g with evals := modLastEval slot (fun e =>
        { e with carrySeg := some seg, carryDue := some due, done := false, carryEra := g.breaks }) g.evals })).stepDone k f

/-- CARRY (R53, R81): the carry segment loads beside its slot's main segment and belongs to the newest EVAL of the slot. -/
def execCarry (h g : Nat) (differ : Bool) (s : State) : Host.Outcome State Fault Refusal :=
  next (s.withChecked (galKey h g) opCarry differ (carryBody (galKey h g)))

/-- The EVAL with its carry segment loaded: passes built by R53, or the EVAL poisoned by R51; its carry passes are ready at `t`. -/
def EvalRun.carryLoaded (e : EvalRun) (t : Nat) : EvalRun :=
  match e.carrySeg with
  | none => e
  | some c =>
    if segPoison c || e.poison then { e with carryDue := none, readyAt := t, poison := true, passes := e.passes.filter (fun p => p.opened.isSome) }
    else if e.mask = 0 then { e with carryDue := none, readyAt := t }
    else { e with carryDue := none, readyAt := t,
                  passes := e.passes ++ passList e.cls (carryCode e.seg c e.cls) (budgetRows e.budgetCode) e.high e.low true }

/-- CARRY_SEGMENT_LOADED (R51, R53, R81). -/
def execCarrySegmentLoaded (h g : Nat) (s : State) : Host.Outcome State Fault Refusal :=
  let k := galKey h g
  match (s.gal k).evals.find? (fun e => e.carryDue.isSome) with
  | none => next s
  | some e =>
    let s := s.at (e.carryDue.getD 0)
    next (s.modGal k (fun g => { g with evals := g.evals.map (fun x => if x.id = e.id then x.carryLoaded (s.now + hallCycles 1) else x) }))

/-! ### Passes (R56 to R61, R64) -/

/-- The next edge of the hall clock, on which the sequencer schedules sweeps (R56). -/
def hallEdge (t : Nat) : Nat := 8 * cdiv t 8

/-- Window opening of the first pass of a run, available at `avail` (R52, R56, R61). -/
def runStart (g : Gallery) (mask avail : Nat) : Nat :=
  hallEdge (g.sweeps.foldl (fun t w => max (max t w.closeAt) (if w.mask &&& mask = 0 then 0 else w.lastSlot)) avail)

/-- Window opening and sweep start of the gallery's next pass, available at `avail` (R57, R58, R61): it continues the run
when its sample can be held by the end of the sweep before and nothing has broken the run; otherwise it starts a run once the
arrays it shares with an earlier run have converted and the window before has closed, since a gallery drives one pass at a time
(R52). -/
def openTimes (g : Gallery) (mask : Nat) (tr : Bool) (era avail : Nat) : Nat × Nat :=
  let cont := match g.sweeps.getLast? with
    | some w => if decide (w.era = era) && decide (w.mask = mask) && decide (w.transpose = tr) && decide (avail + ns 12 ≤ w.endAt)
        then some w.endAt else none
    | none => none
  match cont with
  | some t => (t - ns 12, t)
  | none => (runStart g mask avail, runStart g mask avail + ns 16)

/-- Sweep of a pass (R56, R64). -/
def sweepOf (mask : Nat) (tr : Bool) (era closeAt start : Nat) : Sweep :=
  if tr then { mask := mask, transpose := true, lastSlot := start + ns 192, endAt := start + ns 192, closeAt := closeAt, era := era }
  else { mask := mask, transpose := false, lastSlot := start + 621, endAt := start + ns 52, closeAt := closeAt, era := era }

/-- The EVAL whose pass opens next, and the pass's position. -/
def nextPass (es : List EvalRun) : Option (EvalRun × Nat) :=
  es.findSome? (fun e => (e.passes.findIdx? (fun p => p.opened.isNone)).map (fun i => (e, i)))

/-- Registers that count a pass (R67): main forward passes, carry passes, class-L passes, and transpose passes of every kind. -/
def State.countPass (s : State) (k : Nat) (e : EvalRun) (p : Pass) : State :=
  let s := if p.carry then s.bump (galReg k 0x4C) 1 else if e.transpose then s else s.bump (galReg k 0x48) 1
  let s := if p.cls = .low then s.bump (galReg k 0x50) 1 else s
  if e.transpose then s.bump (galReg k 0x54) 1 else s

def modEval (g : Gallery) (id : Nat) (fn : EvalRun → EvalRun) : Gallery :=
  { g with evals := g.evals.map (fun e => if e.id = id then fn e else e) }

def modPass (e : EvalRun) (i : Nat) (fn : Pass → Pass) : EvalRun :=
  { e with passes := e.passes.zipIdx.map (fun (p, j) => if j = i then fn p else p) }

/-- Calibration blocks of a mask's arrays as they stand. -/
def State.coefBlocks (s : State) (k mask : Nat) : List (Nat × List Byte) :=
  (maskArrays mask).map (fun a => (a, s.bytes (calTable k a) 4544))

/-- A pass of no rows, read where a list has no pass. -/
def noPass : Pass :=
  { high := false, cls := .c0, carry := false, rows := [], opened := none, readyAt := 0, done := false, codes := [] }

def passOpen (k : Nat) (s : State) : State :=
  let g := s.gal k
  match nextPass g.evals with
  | none => s
  | some (e, i) =>
    match g.refOn with
      | none =>
        ((s.setRbit (galReg k 0x44) 10 true).modGal k (fun g =>
          { g with refOn := some s.now, flight := g.flight.map (fun f => { f with lateArm := true }) }))
      | some t =>
        let built := if e.carrySeg.isNone || (e.passes.getD i noPass).carry then e.readyAt else 0
        let era := if (e.passes.getD i noPass).carry then e.carryEra else e.era
        let (o, st) := openTimes g e.mask e.transpose era
          (max (max (max s.now built) (t + refWarm)) (max (s.bgUntil k) (s.heldUntil k e.mask)))
        let sw := sweepOf e.mask e.transpose era (o + ns 12) st
        let s := s.at o
        let coefs := if e.coefs.isEmpty then s.coefBlocks k e.mask else e.coefs
        let s := s.modGal k (fun g =>
          { modEval g e.id (fun e => { modPass e i (fun p => { p with opened := some o, readyAt := sw.endAt }) with coefs := coefs }) with
            sweeps := (g.sweeps.filter (fun w => decide (o ≤ w.endAt))) ++ [sw],
            flight := g.flight.map (fun f => { f with passes := f.passes + 1 }) })
        s.countPass k e (e.passes.getD i noPass)

/-- PASS_WINDOW_OPEN (R57, R59, R60, R61, R64): the next pass opens at its instant; an off buffer is armed first. -/
def execPassWindowOpen (h g : Nat) (s : State) : Host.Outcome State Fault Refusal := next (passOpen (galKey h g) s)

/-- The EVAL with an opened pass whose codes are due, and the pass's position. -/
def convertingPass (es : List EvalRun) : Option (EvalRun × Nat) :=
  es.findSome? (fun e => (e.passes.findIdx? (fun p => p.opened.isSome && !p.done)).map (fun i => (e, i)))

/-- Codes of every array of an EVAL's mask in one pass; the free values used are numbered from `s.free` (R54, R56, R64). -/
def State.passResult (s : State) (k : Nat) (e : EvalRun) (p : Pass) : List (Nat × List Int) × State :=
  let arrs := maskArrays e.mask
  let codes := arrs.zipIdx.map (fun (a, n) =>
    let base := s.free + 1104 * n
    (a, if e.transpose then
          s.transposeCodes (arrKey k a) (drivenCols ((lookupArr e.spares a).getD []) p.rows) e.f base
        else s.forwardCodes (arrKey k a) p.rows e.f base))
  (codes, { s with free := s.free + 1104 * arrs.length })

/-! ### Results (R100, R111, R123) -/

/-- RESIDUAL_SUMS_READY (R111): the residual engine has read the entries of the EVAL's arrays. -/
def execResidualSumsReady (h g : Nat) (s : State) : Host.Outcome State Fault Refusal :=
  let k := galKey h g
  match (s.gal k).evals.find? (fun e => !e.residDone) with
  | none => next s
  | some e => next ((s.at e.residDue).modGal k (fun g => modEval g e.id (fun e => { e with residDone := true })))

/-- Is the EVAL's work done, so that its results can be formed: passes converted, residual sums ready, no carry loading? -/
def EvalRun.complete (e : EvalRun) : Bool :=
  !e.done && e.residDone && e.carryDue.isNone && e.passes.all (fun p => p.done)

/-- Does a CARRY of the EVAL's slot lie ahead of step `pc`, before a step that R81 lets no CARRY of this EVAL follow? -/
def State.carryAhead (s : State) (h : Nat) (e : EvalRun) : Nat → Nat → Bool
  | 0, _ => false
  | n + 1, pc => match s.stepWord h pc with
    | none => false
    | some w =>
      let op := StepWord.op w
      let own := decide (fld w 121 121 = e.slot)
      if decide (op = opCarry) && own then true
      else if !(stepOk w) || decide (op = opHalt) || ((decide (op = opStage) || decide (op = opEval)) && own) ||
          (decide (op = opLand) && e.mask.testBit (fld w 103 99)) then false
      else s.carryAhead h e n (pc + 1)

/-- Is the CARRY of this EVAL still to come (R81)? -/
def State.carryNext (s : State) (k : Nat) (e : EvalRun) : Bool :=
  match (s.gal k).flight with
  | none => false
  | some f => e.carrySeg.isNone && s.carryAhead (k / 512) e 4096 f.pc

/-- When an EVAL's results reach the landing: 16 ns after its last codes or its sums, whichever is later (R89, R111); an EVAL
without passes has its sums, and the cycle in which its pass list was built, alone. -/
def EvalRun.resultsAt (e : EvalRun) : Nat :=
  e.passes.foldl (fun t p => max t p.readyAt) (max e.readyAt e.residDue) + ns 16

/-- GAL_CHK_LAST (R131), and the CHECK_MISMATCH event with its detail (R292). -/
def State.checkMismatch (s : State) (k : Nat) (c : CheckFail) (scrub second : Bool) (n : Nat) : State :=
  let v : Word := place 32 4 0 c.array ||| place 32 6 5 c.part ||| place 32 10 7 c.group |||
    place 32 11 11 (b2n scrub) ||| place 32 12 12 (b2n second)
  let s := (s.bump (galReg k 0x70) n).setReg (galReg k 0x78) v
  s.raise evCheckMismatch (k / 512) (s.owner k) (v.toNat + (k / 512) * 2 ^ 13 + (k % 512) * 2 ^ 16)

/-- Converters whose reference check failed again in the re-run or the repeat are dead: recorded, and their arrays RETIRED (R121, R184; log
50: the rules do not say how often the check has to fail). -/
def State.deadConverters (s : State) (k : Nat) (fails : List CheckFail) : State :=
  (fails.filter (fun c => decide (c.part = 2))).foldl (fun s c => s.retireArray k c.array (some c.group)) s

/-- An attempt-1 check mismatch of a flight: three within 100 ms make the gallery suspect (R126). The first mismatch of a scrub unit is
not counted here: the rule's "even when each re-run passed" speaks of flights (log 48, DESIGN CHOICE). -/
def State.noteMismatch (s : State) (k : Nat) : State :=
  let s := s.modGal k (fun g => { g with mismatches := (g.mismatches.filter (fun t => decide (s.now < t + ms 100))) ++ [s.now] })
  if 3 ≤ (s.gal k).mismatches.length then s.becomeSuspect k 2 else s

def evalResults (k : Nat) (s : State) : State :=
  let g := s.gal k
  match g.evals.find? EvalRun.complete with
  | none => s
  | some e =>
    if s.carryNext k e then s
    else
      let s := s.at e.resultsAt
      let recs := (maskArrays e.mask).map (fun a => (a, (s.arr (arrKey k a)).record))
      let outs := recs.map (fun (a, r) => (a, evalOutputs e a ((r.map ArrayRec.format).getD .w4) ((r.map ArrayRec.scales).getD [])))
      let chk := (recs.map (fun (a, r) => evalChecks e a ((r.map ArrayRec.gc).getD 0) ((r.map ArrayRec.rho).getD [])
        ((r.map ArrayRec.colSums).getD []))).foldl CheckResult.join { passed := 0, skipped := 0, fails := [] }
      let s := (s.bump (galReg k 0x6C) chk.passed).bump (galReg k 0x74) chk.skipped
      match chk.fails with
      | [] => s.modGal k (fun g => modEval g e.id (fun e => { e with done := true, readyAt := s.now, outs := outs }))
      | c :: _ =>
        let second := match g.flight with | some f => f.rerun | none => false
        let s := s.checkMismatch k c false second chk.fails.length
        let s := if second then s.deadConverters k chk.fails else s
        let s := s.stopForRerun k 1 false
        if second then s else s.noteMismatch k

/-- EVAL_RESULTS_READY (R98, R116, R119 to R127): outputs and checks of the oldest finished EVAL; a mismatch stops the
flight. -/
def execEvalResultsReady (h g : Nat) (s : State) : Host.Outcome State Fault Refusal := next (evalResults (galKey h g) s)

/-! ### Re-runs (R70, R84) -/

/-- SEQUENCER_PAIR_RESET (R70): the 2 µs reset ends; a stopped flight may be re-run, and with none the next launch may start. -/
def execSequencerPairReset (h g : Nat) (s : State) : Host.Outcome State Fault Refusal :=
  let k := galKey h g
  match (s.gal k).pairReset with
  | none => next s
  | some t =>
    let s := s.at t
    let s := s.modGal k (fun g => { g with pairReset := none, flight := g.flight.map (fun f => { f with rerunAt := some s.now }) })
    next (s.startNext k (queueDepth + 1))

/-- FLIGHT_RERUN (R84): from the first step, with the ledger's outbound operations suppressed and its WAITs satisfied. -/
def execFlightRerun (h g : Nat) (s : State) : Host.Outcome State Fault Refusal :=
  let k := galKey h g
  match (s.gal k).flight with
  | none => next s
  | some f => match f.rerunAt with
    | none => next s
    | some t =>
      let s := s.at t
      let f1 := { f with pc := f.launch.flight, issueAt := s.now, loops := List.replicate 4 LoopLevel.reset, skipOut := f.nOut,
                         skipWait := f.nWait, sleep := none, gapEnd := none, waitSince := none, rerun := true, rerunAt := none }
      next (s.modGal k (fun g => { g with flight := some f1, slots := [none, none] }))

/-! ### The landing (R86 to R93) -/

/-- Outputs `col … col + len − 1` of an array, the EVALs since its previous LAND added in issue order (R87, R100). -/
def landedOutputs (es : List EvalRun) (a col len : Nat) : List F32 :=
  let outs := es.filterMap (fun e => if e.mask.testBit a && !(e.landed.testBit a) then lookupArr e.outs a else none)
  match outs with
  | [] => List.replicate len zero32
  | o :: os => tabulate len (fun i => os.foldl (fun v x => F32.add v (x.getD (col + i) 0#32)) (o.getD (col + i) 0#32))

/-- Hall cycles in which the landing takes `n` outputs from the correction pipeline or at its inbox port (R89). -/
def portTime (n : Nat) : Nat := hallCycles (cdiv n 128)

def landBody (k : Nat) (s : State) (f : Flight) (w : StepWord) : State :=
  let g := s.gal k
  let a := fld w 103 99
  let tile := fld w 118 118
  let mine := g.evals.filter (fun e => e.mask.testBit a && !(e.landed.testBit a))
  if mine.any (fun e => !e.done) then s
  else
    let s := s.at (mine.foldl (fun t e => max t e.readyAt) (g.drainEnd.getD tile 0))
    let len := fld w 113 104 + 1
    let vals := landedOutputs g.evals a (fld w 98 89) len
    let gi := fld w 121 119
    let grp : Group := match Tab.find g.groups gi with
      | none => { tile := tile, base := fld w 117 114, vals := vals, added := 0 }
      | some r => { r with vals := r.vals.zipWith F32.add vals }
    let es := (g.evals.map (fun e => if e.mask.testBit a then { e with landed := e.landed ||| 2 ^ a } else e)).filter
      (fun e => !(e.done && decide (e.landed &&& e.mask = e.mask)))
    (s.modGal k (fun g => { g with groups := Tab.put g.groups gi grp, evals := es,
                                   landUntil := max s.now g.landUntil + portTime len })).stepDone k f

/-- LAND (R86 to R89, R100). -/
def execLand (h g : Nat) (differ : Bool) (s : State) : Host.Outcome State Fault Refusal :=
  next (s.withChecked (galKey h g) opLand differ (landBody (galKey h g)))

/-- Add to the closing group every held partial whose turn has come, in ascending position, one after another behind the group's
LANDs, each in its port time (R88, R89). -/
def Gallery.addPartials (g : Gallery) (gi chainIn now : Nat) : Nat → Gallery
  | 0 => g
  | fuel + 1 =>
    match Tab.find g.groups gi with
    | none => g
    | some r =>
      if chainIn ≤ r.added then g
      else match g.inbox.find? (fun p => decide (p.group = gi) && decide (p.pos = r.added + 1)) with
        | none => g
        | some p =>
          let r' := { r with vals := r.vals.zipWith F32.add p.vals, added := r.added + 1 }
          let until_ := max (max now g.landUntil) g.addUntil + portTime r.vals.length
          Gallery.addPartials { g with groups := Tab.put g.groups gi r', inbox := g.inbox.erase p, addUntil := until_ } gi chainIn now fuel

/-- Blocks of 32 elements of a group, the last possibly shorter. -/
def blocksOf (vals : List F32) : List (List F32) := chunks 32 1024 vals

/-- A narrow half-parcel: 32 blocks, the blocks beyond the group zero (R36, R93). -/
def narrowBlocks (fmt : ActFormat) (vals : List F32) (rank : Nat) : List (QBlock × QBlock) :=
  let zero : QBlock := { scale := 0x00#8, codes := List.replicate 32 0 }
  let one := fun (xs : List F32) =>
    let clip := if rank = 0 then none else kthLargest rank xs
    let q := quantBlock fmt xs clip
    let c := carryBlock fmt xs clip q
    let pad := fun (b : QBlock) => { b with codes := b.codes ++ List.replicate (32 - b.codes.length) 0 }
    (pad q, pad c)
  let bs := (blocksOf vals).map one
  bs ++ List.replicate (32 - bs.length) (zero, zero)

/-- Bytes of half a parcel at a byte address: data, then scales (R34). -/
def halfParcel (a w half : Nat) (bs : List QBlock) : List (Nat × List Byte) :=
  [(a + 128 * w * half, bs.flatMap (fun b => packBlock w b.codes)), (a + 256 * w + 32 * half, bs.map QBlock.scale)]

/-- Codes of an OUT_FMT that quantises to a parcel. -/
def outFmtOf (c : Nat) : ActFormat := if c = 2 then .a4 else if c = 3 then .a3 else if c = 4 then .a2 else .i8

/-- The parts a finished group is written as (R93): address and bytes of each. -/
def groupParts (a fmt half rank : Nat) (vals : List F32) : List (Nat × List Byte) :=
  if fmt = 0 then [(a, vals.flatMap (fun v => natLE 4 v.toNat))]
  else if fmt = 1 then [(a, vals.flatMap (fun v => natLE 2 (f32ToBf16 v).toNat))]
  else if fmt = 5 then
    let qs := (blocksOf vals).map (fun xs => quantBlock .i8 xs none)
    let bytes := qs.flatMap (fun q => q.codes.map (fun c => BitVec.ofNat 8 (unsigned 8 c)))
    let padded := bytes ++ List.replicate (cdiv bytes.length 64 * 64 - bytes.length) 0#8
    [(a, padded), (a + padded.length, qs.map QBlock.scale)]
  else
    let w := (outFmtOf fmt).width
    let bs := narrowBlocks (outFmtOf fmt) vals rank
    halfParcel a w half (bs.map Prod.fst) ++
      (if rank = 0 then [] else halfParcel (a + 64 * parcelLines w) 4 half (bs.map Prod.snd))

/-- First byte and length of what a CLOSE writes, parcels whole (R37, R93). -/
def groupExtent (fmt rank n : Nat) : Nat :=
  if fmt = 0 then 4 * n else if fmt = 1 then 2 * n
  else if fmt = 5 then cdiv n 64 * 64 + cdiv n 32
  else 64 * parcelLines (outFmtOf fmt).width + (if rank = 0 then 0 else 64 * parcelLines 4)

/-- Close a group whose outbound operation a re-run suppresses (R84). -/
def suppressOut (k gi : Nat) (s : State) (f : Flight) : State :=
  (s.modGal k (fun g => { g with groups := Tab.del g.groups gi, closing := none })).stepDone k { f with skipOut := f.skipOut - 1 }

def closeBody (k : Nat) (s : State) (f : Flight) (w : StepWord) : State :=
  let gi := fld w 121 119
  if 0 < f.skipOut then suppressOut k gi s f
  else
    let dest := fld w 114 111
    let fmt := fld w 84 82
    let rank := fld w 81 79
    let line := strided (fld w 110 86) (fld w 66 65) (fld w 64 49) f.loops
    let a := memBase dest + 64 * line.toNat
    let chainIn := fld w 118 115
    let g := (s.gal k).addPartials gi chainIn s.now 16
    match Tab.find g.groups gi with
    | none => s.stepDone k f
    | some r =>
      if line < 0 || decide (s.memOf a ≠ some dest) || !(s.galAllowed k true a (groupExtent fmt rank r.vals.length)) then
        s.endFlight k stAccessFault
      else if r.added < chainIn then s.setGal k { g with closing := some (gi, chainIn) }
      else
        let s := s.at g.addUntil
        let s := if dest = k / 512 then s.clearRanges dest (64 * line.toNat) (groupExtent fmt rank r.vals.length) else s
        let start := max (max s.now g.landUntil) (g.drainEnd.getD r.tile 0)
        let drained := start + portTime r.vals.length
        let due := drained + (if 2 ≤ fmt then ns 8 else 0) + hallWriteLatency (k / 512) dest
        let pw : PendWrite := { mkWrite s (.gallery k) a [] due [{ key := cntKey dest (fld w 78 67), amount := 1 }] with
          mem := dest, parts := groupParts a fmt (fld w 85 85) rank r.vals, outbound := true, hadPartials := decide (0 < r.added) }
        ((s.setGal k { g with groups := Tab.del g.groups gi, closing := none, drainEnd := g.drainEnd.set r.tile drained }).send pw).stepDone k f

/-- CLOSE (R84, R88, R93): waits for its chained partials, then writes the group and its counter. -/
def execClose (h g : Nat) (differ : Bool) (s : State) : Host.Outcome State Fault Refusal :=
  next (s.withChecked (galKey h g) opClose differ (closeBody (galKey h g)))

/-- R91: travel time of a partial of `n` outputs, never below 24 ns. -/
def partialLatency (src dst n : Nat) : Nat := max (ns 24) (chainLatency (src / 512) (dst / 512) * n / 1024)

def chainBody (k : Nat) (s : State) (f : Flight) (w : StepWord) : State :=
  let gi := fld w 121 119
  if 0 < f.skipOut then suppressOut k gi s f
  else
    let chainIn := fld w 118 115
    let g := (s.gal k).addPartials gi chainIn s.now 16
    match Tab.find g.groups gi with
    | none => s.stepDone k f
    | some r =>
      if r.added < chainIn then s.setGal k { g with closing := some (gi, chainIn) }
      else
        let s := s.at g.addUntil
        let dst := galKey (fld w 114 112) (fld w 111 103)
        let p : Partial := { id := s.nextId, src := k, dst := dst, group := fld w 102 100, pos := fld w 99 96, vals := r.vals,
                             due := max s.now g.landUntil + partialLatency k dst r.vals.length, hadPartials := decide (0 < r.added) }
        ({ s.setGal k { g with groups := Tab.del g.groups gi, closing := none } with
            partials := s.partials ++ [p], nextId := s.nextId + 1 }).stepDone k f

/-- CHAIN (R84, R88, R90, R91): sends the group as a chained partial. -/
def execChain (h g : Nat) (differ : Bool) (s : State) : Host.Outcome State Fault Refusal :=
  next (s.withChecked (galKey h g) opChain differ (chainBody (galKey h g)))

/-- R92: may the inbox take the partial: position below q + 8, no held partial of its group and position, a free slot? -/
def Gallery.accepts (g : Gallery) (p : Partial) : Bool :=
  let q := match Tab.find g.groups p.group with | some r => r.added + 1 | none => 1
  decide (p.pos < q + 8) && decide (g.inbox.length < 8) &&
  !(g.inbox.any (fun x => decide (x.group = p.group) && decide (x.pos = p.pos)))

/-- Order in which partials reach one landing: by arrival, then by position (R91). -/
def partialBefore (p q : Partial) : Bool := decide (p.due < q.due) || (decide (p.due = q.due) && decide (p.pos ≤ q.pos))

def firstPartial (g : Gallery) (ps : List Partial) : Option Partial :=
  ps.foldl (fun b p => if !(g.accepts p) then b else match b with
    | none => some p
    | some q => if partialBefore q p then some q else some p) none

/-- CHAINED_PARTIAL_ARRIVAL (R73, R88, R89, R92): the first partial the inbox can take passes its port and is held, its sender's CHAIN completes,
and a CLOSE or CHAIN that waits for it adds it; a partial it cannot take stays with its sender. -/
def execChainedPartialArrival (h g : Nat) (s : State) : Host.Outcome State Fault Refusal :=
  let k := galKey h g
  let cand := s.partials.filter (fun p => decide (p.dst = k) &&
    !(s.partials.any (fun q => decide (q.src = p.src) && decide (q.dst = k) && decide (q.id < p.id))))
  match firstPartial (s.gal k) cand with
  | none => next s
  | some p =>
    let take := max p.due ((s.gal k).inboxTake + portTime p.vals.length)
    let s := { s with partials := s.partials.erase p }.at take
    let s := if p.outbound then s.countOut p.src else s
    next (s.modGal k (fun g =>
      let g := { g with inbox := g.inbox ++ [p], inboxTake := s.now }.wake s.now
      match g.closing with
      | some (gi, n) => g.addPartials gi n s.now 16
      | none => g))

/-- TILE_DRAIN_END (R93): the drain of a tile ends. -/
def execTileDrainEnd (h g tile : Nat) (s : State) : Host.Outcome State Fault Refusal :=
  let k := galKey h g
  let t := (s.gal k).drainEnd.getD tile 0
  if t = 0 then next s
  else next ((s.at t).modGal k (fun g => { g with drainEnd := g.drainEnd.set tile 0 }))

/-! ### Synchronisation (R84, R85) -/

/-- The counter and VALUE that a gallery's flight waits to consume, if it does (R85). -/
def State.consuming (s : State) (k : Nat) : Option (Nat × Nat) :=
  match (s.gal k).flight with
  | none => none
  | some f => match f.waitSince, s.stepWord (k / 512) f.pc with
    | some _, some w =>
      if StepWord.op w = opWait ∧ bit w 93 ∧ (s.gal k).issuing then some (cntKey (k / 512) (fld w 121 110), fld w 109 94) else none
    | _, _ => none

/-- R330: what the consuming waits of the galleries below `k` leave of a counter, each in ascending number. -/
def State.waitLeft (s : State) (k key : Nat) : Nat :=
  ((s.galleries.map Prod.fst).filter (fun j => decide (j < k))).foldl (fun left j => match s.consuming j with
    | some (c, v) => if c = key ∧ v ≤ left then left - v else left
    | none => left) (s.counter key)

def waitBody (k : Nat) (s : State) (f : Flight) (w : StepWord) : State :=
  let key := cntKey (k / 512) (fld w 121 110)
  let v := fld w 109 94
  if 0 < f.skipWait then s.stepDone k { f with skipWait := f.skipWait - 1 }
  else if v ≤ (if bit w 93 then s.waitLeft k key else s.counter key) then
    let s := if bit w 93 then s.setCounter key (s.counter key - v) else s
    s.stepDone k { f with nWait := f.nWait + 1 }
  else s.modGal k (fun g => { g with flight := some { f with waitSince := some (f.waitSince.getD s.now) } })

/-- WAIT (R84, R85, R329). -/
def execWait (h g : Nat) (s : State) (differ : Bool := false) : Host.Outcome State Fault Refusal :=
  next (s.withChecked (galKey h g) opWait differ (waitBody (galKey h g)))

def waitTimeout (k : Nat) (s : State) : State :=
  match (s.gal k).flight with
  | none => s
  | some f =>
    match f.waitSince, s.stepWord (k / 512) f.pc with
    | some t, some w =>
      if StepWord.op w = opWait ∧ fld w 92 77 ≠ 0 ∧ (s.gal k).issuing ∧ s.counter (cntKey (k / 512) (fld w 121 110)) < fld w 109 94 then
        (s.at (t + us (fld w 92 77))).endFlight k stTimeout
      else s
    | _, _ => s

/-- WAIT_TIMEOUT (R77, R85): a WAIT that has blocked for its TIMEOUT, its counter still below VALUE, ends the flight. -/
def execWaitTimeout (h g : Nat) (s : State) : Host.Outcome State Fault Refusal := next (waitTimeout (galKey h g) s)

def signalBody (k : Nat) (s : State) (f : Flight) (w : StepWord) : State :=
  if 0 < f.skipOut then s.stepDone k { f with skipOut := f.skipOut - 1 }
  else
    let die := fld w 121 118
    let earlier := (s.writes.filter (fun p => decide (p.owner = .gallery k) && decide (p.mem = die) && p.outbound)).map PendWrite.id
    let pw : PendWrite := { mkWrite s (.gallery k) 0 [] (s.now + hallWriteLatency (k / 512) die)
        [{ key := cntKey die (fld w 117 106), amount := fld w 105 90 }] with
      mem := die, parts := [], after := earlier, outbound := true }
    (s.send pw).stepDone k f

/-- SIGNAL (R84, R85): the increment arrives after the flight's earlier writes to that die. -/
def execSignal (h g : Nat) (differ : Bool) (s : State) : Host.Outcome State Fault Refusal :=
  next (s.withChecked (galKey h g) opSignal differ (signalBody (galKey h g)))

/-- Has every pass issued so far been converted? -/
def Gallery.passesDone (g : Gallery) : Bool :=
  g.evals.all (fun e => e.carryDue.isNone && e.passes.all (fun p => p.done))

/-- Has every check of the gallery's EVALs completed (R123)? -/
def Gallery.checked (g : Gallery) : Bool := g.evals.all (fun e => e.done)

def fenceBody (k : Nat) (s : State) (f : Flight) (w : StepWord) : State :=
  let g := s.gal k
  if (bit w 121 && s.outboundPending k) || (bit w 120 && !g.passesDone) then s
  else
    let s := if bit w 119 then s.at g.landUntil else s
    s.stepDone k f

/-- FENCE (R85). -/
def execFence (h g : Nat) (s : State) (differ : Bool := false) : Host.Outcome State Fault Refusal :=
  next (s.withChecked (galKey h g) opFence differ (fenceBody (galKey h g)))

/-! ### Control flow (R82, R83) -/

def branchBody (k : Nat) (s : State) (f : Flight) (w : StepWord) : State :=
  let b := f.launch.route.getLsbD (fld w 121 116)
  s.advanceTo k f (f.pc + 1 + (if b = bit w 115 then fld w 114 99 else 0))

/-- BRANCH_ROUTE (R83). -/
def execBranchRoute (h g : Nat) (s : State) (differ : Bool := false) : Host.Outcome State Fault Refusal :=
  next (s.withChecked (galKey h g) opBranch differ (branchBody (galKey h g)))

/-- R82: one execution of LOOP at a level: the level after it, and whether the body runs again. -/
def loopStep (l : LoopLevel) (count : Nat) : LoopLevel × Bool :=
  let l := if l.active then l else { active := true, remaining := count, idx := 0 }
  if 0 < l.remaining then ({ l with remaining := l.remaining - 1, idx := l.idx + 1 }, true)
  else (LoopLevel.reset, false)

def loopBody (k : Nat) (s : State) (f : Flight) (w : StepWord) : State :=
  let lvl := fld w 121 120
  let (l, again) := loopStep (f.loops.getD lvl LoopLevel.reset) (fld w 119 104)
  let f := { f with loops := f.loops.set lvl l }
  if again then s.advanceTo k f (f.pc - fld w 103 88) else s.stepDone k f

/-- LOOP (R82). -/
def execLoop (h g : Nat) (s : State) (differ : Bool := false) : Host.Outcome State Fault Refusal :=
  next (s.withChecked (galKey h g) opLoop differ (loopBody (galKey h g)))

def gapBody (k : Nat) (s : State) (f : Flight) (w : StepWord) : State :=
  let s := s.modGal k (fun g => { g with breaks := g.breaks + 1 })
  s.stepDone k { f with gapEnd := some (s.now + ns (fld w 121 106)) }

/-- GAP (R61, R83): the gallery idles; the run ends. -/
def execGap (h g : Nat) (s : State) (differ : Bool := false) : Host.Outcome State Fault Refusal :=
  next (s.withChecked (galKey h g) opGap differ (gapBody (galKey h g)))

/-- GAP_END (R83). The comparator may find a difference while the gap lasts, for passes run on in it (R69, R70). -/
def execGapEnd (h g : Nat) (s : State) (differ : Bool := false) : Host.Outcome State Fault Refusal :=
  let k := galKey h g
  match (s.gal k).flight with
  | none => next s
  | some f => match f.gapEnd with
    | none => next s
    | some t =>
      if differ then next (s.sequencerMismatch k)
      else
      let s := s.at t
      next (s.modGal k (fun g => { g with flight := some { f with gapEnd := none, issueAt := s.now + hallCycles 1 } }))

/-- The state a SLEEP names is entered at the HALT; DEEP becomes LIGHT while the landing holds something (R79). A queue
that is not empty wakes the gallery again. -/
def State.sleepAtHalt (s : State) (k : Nat) (sleep : Option Bool) : State :=
  match sleep with
  | none => s
  | some deep =>
    let g := s.gal k
    let g1 := if deep && !g.landingHolds then g.enterDeep else g.enterLight s.now
    s.setGal k (if g1.queue.isEmpty then g1 else g1.wake s.now)

def haltBody (k : Nat) (s : State) (f : Flight) (_w : StepWord) : State :=
  let g := s.gal k
  if s.outboundPending k || !g.passesDone || !g.checked then s
  else
    let s := s.modGal k (fun g => { g with flight := none, evals := [], slots := [none, none], closing := none, idleSince := some s.now })
    let s := s.flightRecord k f.launch stOk f.rerun f.lateArm f.passes
    (s.sleepAtHalt k f.sleep).startNext k (queueDepth + 1)

/-- HALT (R76 to R79, R123, R124): the flight ends with OK once everything it sent has arrived, every pass is converted and,
since a mismatch stops the flight, every check of its EVALs has completed. -/
def execHalt (h g : Nat) (s : State) (differ : Bool := false) : Host.Outcome State Fault Refusal :=
  next (s.withChecked (galKey h g) opHalt differ (haltBody (galKey h g)))

/-! ### Power and budget events (R59, R73, R94) -/

/-- GALLERY_READY (R73): power is good; a held ARM_REF turns the buffer on; the next launch may start. -/
def execGalleryReady (h g : Nat) (s : State) : Host.Outcome State Fault Refusal :=
  let k := galKey h g
  match (s.gal k).wakeDue with
  | none => next s
  | some t =>
    let s := s.at t
    let s := s.modGal k (fun g =>
      { g with power := .ready, wakeDue := none, lightSince := none, idleSince := some s.now, armHeld := false,
               refOn := if g.armHeld then some (g.refOn.getD s.now) else g.refOn })
    next (s.startNext k (queueDepth + 1))

/-- REF_READY (R59): the buffer has been on for 2 µs; GAL_DRIVE.REF_READY reads 1 from this instant. -/
def execRefReady (h g : Nat) (s : State) : Host.Outcome State Fault Refusal :=
  match (s.gal (galKey h g)).refOn with
  | none => next s
  | some t => next (s.at (t + refWarm))

/-- LIGHT_IDLE_EXPIRY (R73). -/
def execLightIdleExpiry (h g : Nat) (s : State) : Host.Outcome State Fault Refusal :=
  let k := galKey h g
  let gl := s.gal k
  let idle := s.rfld (galReg k 0x0C) 9 0
  match gl.idleSince with
  | none => next s
  | some t =>
    if gl.power = .ready ∧ gl.flight.isNone ∧ gl.queue.isEmpty ∧ idle ≠ 0 then
      let s := s.at (t + us idle)
      next (s.modGal k (fun g => g.enterLight s.now))
    else next s

/-- DEEP_IDLE_EXPIRY (R73, R96): a LIGHT gallery whose landing is empty enters DEEP. -/
def execDeepIdleExpiry (h g : Nat) (s : State) : Host.Outcome State Fault Refusal :=
  let k := galKey h g
  let gl := s.gal k
  let idle := s.rfld (galReg k 0x0C) 25 16
  match gl.lightSince with
  | none => next s
  | some t =>
    if gl.power = .light ∧ gl.wakeDue.isNone ∧ gl.landingHolds = false ∧ idle ≠ 0 then
      let s := s.at (t + ms idle)
      next (s.modGal k (fun g => g.enterDeep))
    else next s

/-- Instant of the next 1 ms boundary of the time base after an instant (R94). -/
def nextPeriod (tb0 now : Nat) : Nat := tb0 + ((now - tb0) / ms 1 + 1) * ms 1

/-- BUDGET_PERIOD_BOUNDARY (R94): used time returns to zero on every gallery. A boundary that another command carried the clock past has
done the same, since used time belongs to its period (`State.usedTime`). -/
def execBudgetPeriodBoundary (s : State) : Host.Outcome State Fault Refusal :=
  match s.tbStart with
  | none => next s
  | some t0 =>
    let s := s.at (nextPeriod t0 s.now)
    next { s with galleries := Tab.mapAll Gallery.reset (fun _ g => { g with used := [0, 0, 0, 0], usedPeriod := 0 }) s.galleries }

end Sys2Proof.Machine
end

