-- ==== Sys2Proof/Machine/Survey.lean ====
section
/-! DEFINITION. The survey: coefficient sets, units, the live estimator, commits and refusals, drift and margin plans: "Survey, drift and
ageing" (R187 to R208), with the budgets of background units (R94, R95). The model's own choices: log 2 free values (DESIGN CHOICE); log
22 survey (DEDUCED, DESIGN CHOICE); log 26 programming window (DEDUCED); log 27 margin plan (DEDUCED, DESIGN CHOICE); log 49 reference
budget (DESIGN CHOICE). -/

namespace Sys2Proof.Machine

/-! ### Budgets of background units (R94, R95) -/

/-- Limit of an activity in ns per period: 0 survey, 1 scrub, 2 touch-up, 3 scan (GAL_BUDGET_LIMIT). -/
def State.bgLimit (s : State) (k kind : Nat) : Nat := 1000 * s.rfld (galReg k 0x20) (8 * kind + 7) (8 * kind)

def State.budgetLeft (s : State) (k kind : Nat) : Bool := decide (s.usedTime k kind < s.bgLimit k kind)

/-- R94, R66: idle, or (unless `idleOnly`) in a GAP that is still open at `endAt`, the unit's end. -/
def State.bgRoom (s : State) (k endAt : Nat) (idleOnly : Bool) : Bool :=
  let g := s.gal k
  match g.flight with
  | none => g.queue.isEmpty
  | some f => !idleOnly && (match f.gapEnd with | some t => decide (endAt ≤ t) | none => false)

/-- Instant at which a pass of a background unit on array `a` opens its window, available at `avail`: it begins a new run, behind the
unit before it and behind the sweeps that an ended run still converts on the array (R61, R95). -/
def State.unitStart (s : State) (k a avail : Nat) : Nat :=
  runStart (s.gal k) (2 ^ a) (max (max s.now avail) (max (s.bgUntil k) (s.arr (arrKey k a)).heldUntil))

def State.awake (s : State) (k : Nat) : Bool := decide ((s.gal k).power = .ready ∨ (s.gal k).power = .light)

/-- Charge a unit of `len` ticks, which began at `start`, to its activity, and hold the gallery until it ends. -/
def State.bgCharge (s : State) (k kind arrays start len : Nat) : State :=
  ((s.at start).chargeTime k kind (len / 12)).modGal k (fun g => { g with
    bg := some { kind := kind, arrays := arrays, endAt := start + len }
    breaks := g.breaks + 1 })

/-- An activity that is due and finds its budget spent sets its bit in GAL_BUDGET_WAITED (R94); a limit of zero stops the
activity. -/
def State.bgWaited (s : State) (k kind : Nat) : State :=
  if s.bgLimit k kind = 0 then s else s.setRbit (galReg k 0x2C) kind true

/-! ### Coefficient sets (R187 to R189) -/

/-- One array's coefficients: group bases at index 4·g + b, column trims, row trims and row-converter bases. -/
structure CoefSet where
  gbase : List Int
  obase : List Int
  gt : List Int
  ot : List Int
  rowGt : List Int
  rowOt : List Int
  rowGain : List Int
  rowOffs : List Int
  deriving DecidableEq, Repr

def CoefSet.ofTable (t : List Byte) : CoefSet where
  gbase := tabulate 64 (fun i => ((tblNum t (0x8A0 + 4 * i) 4 % 2 ^ 15 : Nat) : Int))
  obase := tabulate 64 (fun i => signed 10 (tblNum t (0x8A0 + 4 * i) 4 / 2 ^ 16))
  gt := tabulate 1104 (fun j => signed 9 (tblNum t (2 * j) 2))
  ot := tabulate 1104 (fun j => signed 7 (tblNum t (2 * j) 2 / 2 ^ 9))
  rowGt := tabulate 1024 (fun r => signed 9 (tblNum t (0x9A0 + 2 * r) 2))
  rowOt := tabulate 1024 (fun r => signed 7 (tblNum t (0x9A0 + 2 * r) 2 / 2 ^ 9))
  rowGain := tabulate 4 (fun c => ((tblNum t (0x11A0 + 4 * c) 4 % 2 ^ 15 : Nat) : Int))
  rowOffs := tabulate 4 (fun c => signed 10 (tblNum t (0x11A0 + 4 * c) 4 / 2 ^ 16))

def trimWord (g o : Int) : List Byte := natLE 2 (unsigned 9 g + unsigned 7 o * 2 ^ 9)
def baseWord (g o : Int) : List Byte := natLE 4 (unsigned 15 g + unsigned 10 o * 2 ^ 16)

/-- The 4,544 bytes of the table (R189). -/
def CoefSet.toTable (c : CoefSet) : List Byte :=
  (c.gt.zipWith trimWord c.ot).flatten ++ (c.gbase.zipWith baseWord c.obase).flatten ++
  (c.rowGt.zipWith trimWord c.rowOt).flatten ++ (c.rowGain.zipWith baseWord c.rowOffs).flatten ++ List.replicate 16 0#8

def CoefSet.gain (c : CoefSet) (j b : Nat) : Int := c.gbase.getD (4 * groupOf j + b) 0 + 4 * c.gt.getD j 0
def CoefSet.offs (c : CoefSet) (j b : Nat) : Int := c.obase.getD (4 * groupOf j + b) 0 + c.ot.getD j 0
def CoefSet.rgain (c : CoefSet) (r : Nat) : Int := c.rowGain.getD (r / 256) 0 + 4 * c.rowGt.getD r 0
def CoefSet.roffs (c : CoefSet) (r : Nat) : Int := c.rowOffs.getD (r / 256) 0 + c.rowOt.getD r 0

def within (lo hi x : Int) : Bool := decide (lo ≤ x) && decide (x ≤ hi)

/-- Every trim in its field and every expanded pair inside R101 (R187). -/
def CoefSet.inRange (c : CoefSet) : Bool :=
  c.gt.all (within (-256) 255) && c.ot.all (within (-64) 63) && c.rowGt.all (within (-256) 255) &&
  c.rowOt.all (within (-64) 63) && c.gbase.all (within 0 0x7FFF) && c.obase.all (within (-512) 511) &&
  c.rowGain.all (within 0 0x7FFF) && c.rowOffs.all (within (-512) 511) &&
  (List.range 1104).all (fun j => (List.range 4).all (fun b =>
    within 0x2000 0x7FFF (c.gain j b) && within (-512) 511 (c.offs j b))) &&
  (List.range 1024).all (fun r => within 0x2000 0x7FFF (c.rgain r) && within (-512) 511 (c.roffs r))

def State.coefSet (s : State) (k a : Nat) : CoefSet := CoefSet.ofTable (s.bytes (calTable k a) 4544)

/-- Has the EVAL's first pass opened but not yet been sampled? Then it takes the pairs a commit writes now (R102). -/
def EvalRun.unsampled (now : Nat) (e : EvalRun) : Bool :=
  match (e.passes.filterMap Pass.opened).head? with
  | some o => decide (now < o + ns 12)
  | none => false

/-- Write a whole set (R198). -/
def State.writeCoefs (s : State) (k a : Nat) (c : CoefSet) : State :=
  let s := s.writeBytes (calTable k a) c.toTable
  s.modGal k (fun g => { g with evals := g.evals.map (fun e =>
    if e.mask.testBit a && e.unsampled s.now then { e with coefs := s.coefBlocks k e.mask } else e) })

/-! ### Survey units (R190 to R192) -/

/-- Rows and pulse width of a ladder unit at `f` (R191). -/
def ladderRows (typeB : Bool) (f : Nat) : List Nat × Nat :=
  if f ≤ 6 then (tabulate 8 (fun i => i + (if typeB then 4 else 8)), 1)
  else if f = 7 then (List.range 16, 1)
  else if f = 8 then (List.range 16, 2)
  else if f = 9 then (List.range 16, 3)
  else (List.range (2 ^ (f - 5)), 3)

/-- Driven rows with signed pulse widths: positive where the level in L0 (A) or L1 (B) is 8 or more (R190). -/
def ladderDrive (typeB : Bool) (f : Nat) : List (Nat × Int) :=
  let (rows, p) := ladderRows typeB f
  rows.map (fun r => (r, if 8 ≤ refLevel (if typeB then 1097 else 1096) r then (p : Int) else -(p : Int)))

/-- Ideal quarter code of ladder column `col` (R191). -/
def ladderIdeal (typeB : Bool) (f col : Nat) : Rat :=
  let u := isum ((ladderDrive typeB f).map (fun (r, p) => p * (refLevel col r - 8)))
  (u : Rat) * 4 * pow2 (7 - (f : Int))

/-- Driven rows of a SENTINEL unit (R190). -/
def sentinelDrive : List (Nat × Int) := tabulate 64 (fun r => (r, if r % 2 = 0 then -3 else 3))

/-- Units of an array in cycle order: 0–3 ZERO at budget code b, 4 LADDER A, 5 LADDER B, 6 SENTINEL, 7–10 ROWZERO k
(R192). -/
def unitLength (u : Nat) : Nat := if 7 ≤ u then ns 64 else ns 68

/-- Newest 64 elements that satisfy `p`, and every other element. -/
def keep64 {α : Type} (p : α → Bool) (xs : List α) : List α :=
  xs.filter (fun x => !(p x)) ++ (xs.filter p).take 64

/-- Take `n` free values. -/
def State.use (s : State) (n : Nat) : State := { s with free := s.free + n }

/-- Run unit `u` on array `a`, LADDER and ZERO units at budget code `b`, and record what it measures (R190, R191, R195,
R203). -/
def State.measure (s : State) (k a u b : Nat) : State :=
  let i := arrKey k a
  if u < 4 then
    let codes := s.forwardCodes i [] (s.fsExp k b) s.free
    (s.use 1104).modArr i (fun r => { r with
      zeros := keep64 (fun x => decide (x.1 = b)) ((b, codes) :: r.zeros)
      zeroCount := r.zeroCount.set b (r.zeroCount.getD b 0 + 1) })
  else if u < 6 then
    let tb := decide (u = 5)
    let f := s.fsExp k b
    let codes := s.forwardCodes i (ladderDrive tb f) f s.free
    let t := s.bytes (calTable k a) 4544
    let e := fun col => 4 * codes.getD col 0 - (coefCol t col b).2
    let c0 := if tb then 1097 else 1096
    let m : LadderUnit := { budget := b, typeB := tb, lo := e c0, hi := e (c0 + 2) }
    (s.use 1104).modArr i (fun r => { r with
      ladders := keep64 (fun x => decide (x.budget = b) && decide (x.typeB = tb)) (m :: r.ladders) })
  else if u = 6 then
    let codes := s.forwardCodes i sentinelDrive 11 s.free
    let x := ((codes.getD 1102 0).natAbs, (codes.getD 1103 0).natAbs)
    (s.use 1104).modArr i (fun r => { r with sentinels := (((x.1 : Int), (x.2 : Int)) :: r.sentinels).take 64 })
  else
    let q := u - 7
    let codes := tabulate 256 (fun j => codeOf 0 1 (s.fsT k) (s.free + 256 * (j / 64) + 64 * q + j % 64))
    (s.use 1024).modArr i (fun r => { r with
      rowZeros := keep64 (fun x => decide (x.1 = q)) ((q, codes) :: r.rowZeros)
      rowZeroCount := r.rowZeroCount.set q (r.rowZeroCount.getD q 0 + 1) })

/-- The same unit `n` times. -/
def State.measureN (s : State) (k a u b : Nat) : Nat → State
  | 0 => s
  | n + 1 => (s.measure k a u b).measureN k a u b n

/-! ### Estimates and candidate sets (R193, R195) -/

/-- Rounded mean of integers; 0 for none. -/
def meanRhe (xs : List Int) : Int := if xs.isEmpty then 0 else rhe (isum xs) xs.length

/-- Mean of the last 64 ZERO codes of each column at a budget, in quarter codes (R195). -/
def zeroMeans (r : ArrayState) (b : Nat) : List Int :=
  let cs := (r.zeros.filter (fun x => decide (x.1 = b))).map Prod.snd
  tabulate 1104 (fun j => meanRhe (cs.map (fun c => 4 * c.getD j 0)))

/-- Mean of the ROWZERO codes of each row, in quarter codes. -/
def rowZeroMeans (r : ArrayState) : List Int :=
  tabulate 1024 (fun row =>
    let q := row % 256 / 64
    meanRhe ((r.rowZeros.filter (fun x => decide (x.1 = q))).map (fun x => 4 * x.2.getD (64 * (row / 256) + row % 64) 0)))

/-- R195: offsets of a budget from ZERO means; at the BUDGET_CEIL budget the trims too. -/
def CoefSet.withOffsets (c : CoefSet) (m : List Int) (b ceil : Nat) : CoefSet :=
  let base := fun g => meanRhe ((groupCols g).map (fun j => m.getD j 0))
  let bases := tabulate 16 base
  { c with
    obase := tabulate 64 (fun i => if i % 4 = b then bases.getD (i / 4) 0 else c.obase.getD i 0)
    ot := if b = ceil then tabulate 1104 (fun j => m.getD j 0 - bases.getD (groupOf j) 0) else c.ot }

/-- R195: row trims from ROWZERO means under the row-converter base offset; rows of pattern `q` only. -/
def CoefSet.withRowOffsets (c : CoefSet) (m : List Int) (q : Nat) : CoefSet :=
  { c with rowOt := tabulate 1024 (fun r =>
      if r % 256 / 64 = q then m.getD r 0 - c.rowOffs.getD (r / 256) 0 else c.rowOt.getD r 0) }

/-- Row-converter base offsets: the mean over the converter's 256 rows. -/
def CoefSet.withRowBases (c : CoefSet) (m : List Int) : CoefSet :=
  { c with rowOffs := tabulate 4 (fun q => meanRhe (tabulate 256 (fun i => m.getD (256 * q + i) 0))) }

/-- Budget whose bases set the row base gain: its `f` equals FS_T, else budget 512 (R188). Of several such budgets the rule names none, and
the model takes the lowest code (log 49, DESIGN CHOICE). -/
def State.referenceBudget (s : State) (k : Nat) : Nat :=
  ((List.range 4).find? (fun b => decide (s.fsExp k b = s.fsT k))).getD 3

def CoefSet.gainSum (c : CoefSet) (b : Nat) : Int := isum (tabulate 16 (fun g => c.gbase.getD (4 * g + b) 0))

/-- R195 with R188: the candidate set of a gain commit from the estimates of the surveyable columns. -/
def CoefSet.withGains (c : CoefSet) (est : List (Option Int)) (b ceil : Nat) (isRef : Bool) : CoefSet :=
  let known := fun g => (groupCols g).filterMap (fun j => (est.getD j none).map (fun e => (j, e)))
  let base := fun g =>
    match known g with
    | [] => c.gbase.getD (4 * g + b) 0
    | xs => meanRhe (xs.map (fun (j, e) => if b = ceil then e else e - 4 * c.gt.getD j 0))
  let bases := tabulate 16 base
  let c1 := { c with
    gbase := tabulate 64 (fun i => if i % 4 = b then bases.getD (i / 4) 0 else c.gbase.getD i 0)
    gt := if b = ceil then tabulate 1104 (fun j => match est.getD j none with
        | some e => rhe (e - bases.getD (groupOf j) 0) 4
        | none => c.gt.getD j 0) else c.gt }
  if isRef then { c1 with rowGain := c.rowGain.map (fun x => rhe (x * c1.gainSum b) (c.gainSum b).toNat) } else c1

/-! ### Ladder gains (R191) -/

/-- Ladder gain of converter 8 to 11 at a budget over its last 64 units; a zero mean gives no gain, and a free value
stands in. -/
def State.ladderGain (s : State) (k a conv b : Nat) : Rat :=
  let r := s.arr (arrKey k a)
  let tb := decide (conv = 9 ∨ conv = 11)
  let us := r.ladders.filter (fun x => decide (x.budget = b) && decide (x.typeB = tb))
  let sum := isum (us.map (fun x => if conv < 10 then x.lo else x.hi))
  if sum = 0 then (Config.freeNat (s.free + conv) : Rat)
  else 2 ^ 14 * ladderIdeal tb (s.fsExp k b) (1088 + conv) * (us.length : Rat) / (sum : Rat)

def ratMean4 (f : Nat → Rat) : Rat := (f 8 + f 9 + f 10 + f 11) / 4

def State.meanLadder (s : State) (k a b : Nat) : Rat := ratMean4 (fun c => s.ladderGain k a c b)

def CoefSet.meanBase (c : CoefSet) (b : Nat) : Rat := ratMean4 (fun g => (c.gbase.getD (4 * g + b) 0 : Rat))

def ratAbs (x : Rat) : Rat := if x < 0 then -x else x

/-- `x` differs from `y` by more than 1.5 % of `y` (R196, R197). -/
def differs (x y : Rat) : Bool := decide (15 * y < 1000 * ratAbs (x - y))

/-! ### Commits (R195 to R198) -/

/-- R196: the first reason to refuse a set, in code order; `limit` in hundredths of a percent. -/
def refusal (old new : CoefSet) (limit : Int) (ladder : Bool) : Option Nat :=
  let cols := (List.range 1104).flatMap (fun j => (List.range 4).map (fun b => (j, b)))
  if cols.any (fun (j, b) => decide (limit * old.gain j b < 10000 * (new.gain j b - old.gain j b).natAbs)) then some 0
  else if cols.any (fun (j, b) => decide (16 < (new.offs j b - old.offs j b).natAbs)) ||
    (List.range 1024).any (fun r => decide (16 < (new.roffs r - old.roffs r).natAbs)) then some 1
  else if ladder then some 2
  else if !new.inRange then some 3
  else none

/-- R198: count a refusal; the third in a row raises SURVEY_REJECT and makes the gallery suspect. -/
def State.refuse (s : State) (k a b kind reason : Nat) : State :=
  let s := s.bump (galReg k 0x94) 1
  let run := (s.gal k).survey.rejectRun + 1
  let s := s.modGal k (fun g => { g with survey := { g.survey with rejectRun := min 3 run } })
  if run = 3 then
    (s.raise evSurveyReject (k / 512) (s.owner k)
      (galDetail k + a * 2 ^ 12 + b * 2 ^ 17 + kind * 2 ^ 19 + reason * 2 ^ 20)).becomeSuspect k 3
  else s

/-- R198: write an accepted set. -/
def State.accept (s : State) (k a : Nat) (c : CoefSet) : State :=
  ((s.writeCoefs k a c).bump (galReg k 0x90) 1).modGal k (fun g => { g with survey := { g.survey with rejectRun := 0 } })

/-- May the survey commit: a survey budget above zero and no suspect gallery (R208)? -/
def State.mayCommit (s : State) (k : Nat) : Bool := decide (s.bgLimit k 0 ≠ 0) && !(s.gal k).suspect

/-- An offset commit of a set (R195, R196). -/
def State.offsetCommit (s : State) (k a b : Nat) (c : CoefSet) : State :=
  if !(s.mayCommit k) then s
  else match refusal (s.coefSet k a) c 300 false with
    | some r => s.refuse k a b 1 r
    | none => s.accept k a c

/-- BUDGET_CEIL of a gallery. -/
def State.ceilCode (s : State) (k : Nat) : Nat := s.rfld (galReg k 0x44) 1 0

/-- After a ZERO or ROWZERO unit: every 64th makes an offset commit. The BUDGET of a row commit's refusal is open. -/
def State.offsetsDue (s : State) (k a u : Nat) : State :=
  let r := s.arr (arrKey k a)
  if u < 4 then
    if r.zeroCount.getD u 0 % 64 = 0 then
      s.offsetCommit k a u ((s.coefSet k a).withOffsets (zeroMeans r u) u (s.ceilCode k))
    else s
  else if 7 ≤ u then
    if r.rowZeroCount.getD (u - 7) 0 % 64 = 0 then
      let c := (s.coefSet k a).withRowOffsets (rowZeroMeans r) (u - 7)
      let (n, s) := s.draw
      s.offsetCommit k a (n % 4) c
    else s
  else s

/-! ### Drift (R203, R204) -/

/-- S of R203: mean of |T0| and |T1| over the last 64 SENTINEL units. -/
def sentinelMean (r : ArrayState) : Rat :=
  if r.sentinels.isEmpty then 0
  else (isum (r.sentinels.map (fun x => x.1 + x.2)) : Rat) / (2 * r.sentinels.length : Nat)

/-- M of R203: mean expanded GAIN of the columns at a budget. -/
def gainMean (c : CoefSet) (cols : List Nat) (b : Nat) : Rat :=
  if cols.isEmpty then 0 else (isum (cols.map (fun j => c.gain j b)) : Rat) / (cols.length : Nat)

/-- DRIFT_EST (R203); where a baseline is zero the spec gives no value and a free one stands in. -/
def State.driftOf (s : State) (r : ArrayState) (m : Rat) : Rat :=
  if r.m0 = 0 ∨ r.s0 = 0 then (Config.freeNat s.free : Rat) else m / r.m0 * (sentinelMean r / r.s0) - 1

/-- DRIFT_EST in units of 0.01 %, as registers and events carry it. -/
def driftUnits (d : Rat) : Int := clampI (-32768) 32767 (ratRhe (10000 * d))

/-- An array becomes due for touch-up; the event is raised once (R204, R208). -/
def State.becomeDue (s : State) (k a cause : Nat) : State :=
  let r := s.arr (arrKey k a)
  if r.due then s
  else
    (s.modArr (arrKey k a) (fun r => { r with due := true })).raise evDriftRefreshDue (k / 512) (s.owner k)
      (galDetail k + a * 2 ^ 12 + cause * 2 ^ 17 + unsigned 16 (driftUnits r.driftEst) * 2 ^ 18)

/-- DRIFT_LIMIT as a fraction. -/
def State.driftLimit (s : State) (k : Nat) : Rat := (s.rfld (galReg k 0x80) 7 0 : Rat) / 10000

/-- MAX_AGE in equivalent seconds. -/
def State.maxAge (s : State) (k : Nat) : Rat := (86400 * s.rfld (galReg k 0x80) 15 8 : Nat)

/-- R203 after an accepted gain commit: M, DRIFT_EST and whether the array is now due. -/
def State.updateDrift (s : State) (k a : Nat) (cols : List Nat) : State :=
  let i := arrKey k a
  let m := gainMean (s.coefSet k a) cols (s.ceilCode k)
  let d := s.driftOf (s.arr i) m
  let s := (s.modArr i (fun r => { r with m := m, driftEst := d, surveyed := cols })).use 1
  if s.driftLimit k ≤ d then s.becomeDue k a 0 else s

/-- Record new baselines M₀ and S₀ (R201, R205). -/
def State.recordBaseline (s : State) (k a : Nat) : State :=
  let i := arrKey k a
  let m := gainMean (s.coefSet k a) (s.arr i).surveyed (s.ceilCode k)
  s.modArr i (fun r => { r with m := m, m0 := m, s0 := sentinelMean r, driftEst := 0 })

/-! ### First use (R202) -/

/-- Has every array with a record an accepted gain commit at the BUDGET_CEIL budget? -/
def State.allCommitted (s : State) (k : Nat) : Bool :=
  (s.recArrays k).all (fun a => (s.arr (arrKey k a)).committed.testBit (s.ceilCode k))

/-- Enter or leave first use, and REPLICA_FORCED with it (R115, R202). -/
def State.setFirstUse (s : State) (k : Nat) (b : Bool) : State :=
  s.modGal k (fun g => { g with survey := { g.survey with firstUse := b }, forced := b })

/-! ### The live estimator (R193, R194) -/

/-- MU and SIGMA2 of a column that may be surveyed: a live weight column below COLS, or a spare with a role, which takes its
target's (R193). -/
def State.columnStat (s : State) (k a : Nat) (rec : ArrayRec) (spares : List (Nat × Nat)) (col : Nat) :
    Option (F32 × F32) :=
  let good := fun (j : Nat) => match rec.stats[j]? with
    | some (mu, s2) => if F32.lt 0#32 s2 then some (mu, s2) else none
    | none => none
  if col < 1024 then
    if col < rec.cols ∧ (repairOf spares col).isNone ∧ !((deadCols (s.wear (arrKey k a))).contains col) then good col else none
  else if col < 1088 then
    match spares[col - 1024]? with
    | some (role, t) => if role = 0 then none else good t
    | none => none
  else none

/-- One column's sums after a sample: code `c`, predicted second moment `x` (R193). -/
def sampleInto (c offs : Int) (x : F32) (acc : Int × F32 × Nat) : Int × F32 × Nat :=
  if c = -128 ∨ c = 127 then acc
  else
    let e := 4 * c - offs
    (acc.1 + e * e, F32.add acc.2.1 x, acc.2.2 + 1)

/-- Predicted mean square of a sample of `n` rows at `f`, in binary32 (R193). -/
def predicted (n f : Nat) (mu s2 : F32) : F32 :=
  F32.mul (F32.add (F32.mul (F32.ofInt n) s2) (F32.mul (F32.mul (F32.ofInt (n * n)) mu) mu)) (pow2F (18 - 2 * (f : Int)))

/-- R193: take one pass as a sample of the focus array. -/
def State.sample (s : State) (k : Nat) (e : EvalRun) (p : Pass) : State :=
  let a := (s.gal k).survey.focusArray
  match (s.arr (arrKey k a)).record with
  | none => s
  | some rec =>
    let spares := s.sparesOf k a
    let tbl := s.bytes (calTable k a) 4544
    let codes := passCodes p a
    s.modGal k (fun g =>
      let sv := g.survey
      let upd := tabulate 1088 (fun j =>
        let old := (sv.aAcc.getD j 0, sv.bAcc.getD j 0#32, sv.nAcc.getD j 0)
        match s.columnStat k a rec spares j with
        | none => old
        | some (mu, s2) => sampleInto (codes.getD j 0) (coefCol tbl j e.budgetCode).2 (predicted p.rows.length e.f mu s2) old)
      { g with survey := { sv with aAcc := upd.map Prod.fst, bAcc := upd.map (fun x => x.2.1), nAcc := upd.map (fun x => x.2.2),
                                   lastSample := s.now } })

/-- Surveyable columns of the focus array: B ÷ N at least 64 quarter codes² (R193). -/
def Survey.columns (sv : Survey) : List Nat :=
  (List.range 1088).filter (fun j =>
    decide (0 < sv.nAcc.getD j 0) && F32.le 0x42800000#32 (F32.div (sv.bAcc.getD j 0#32) (F32.ofInt (sv.nAcc.getD j 0))))

/-- R193: Ĝ of a column. -/
def Survey.estimate (sv : Survey) (j : Nat) : Int :=
  let x := F32.mul (pow2F 14) (F32.sqrt (F32.div (sv.bAcc.getD j 0#32) (F32.ofInt (sv.aAcc.getD j 0))))
  if F32.isFinite x then ratRhe (F32.toRat x) else 2 ^ 20

/-- R194: complete when every surveyable column has 4,096 samples. -/
def Survey.ready (sv : Survey) : Bool :=
  !sv.columns.isEmpty && sv.columns.all (fun j => decide (4096 ≤ sv.nAcc.getD j 0))

/-- Budget codes the survey works through: BUDGETS_SEEN and BUDGET_CEIL (R192, R194). -/
def State.surveyBudgets (s : State) (k : Nat) : List Nat :=
  (List.range 4).filter (fun b => (s.gal k).survey.budgetsSeen.testBit b || decide (b = s.ceilCode k))

/-- R194: clear the accumulators and move the focus to the next pair. -/
def State.moveFocus (s : State) (k : Nat) : State :=
  let sv := (s.gal k).survey
  let bs := s.surveyBudgets k
  let recs := s.recArrays k
  let next := match bs.find? (fun b => decide (sv.focusBudget < b)) with
    | some b => (sv.focusArray, b)
    | none => (((recs.find? (fun a => decide (sv.focusArray < a))).getD (recs.headD sv.focusArray)), bs.headD sv.focusBudget)
  s.modGal k (fun g => { g with survey := { g.survey with
    focusArray := next.1, focusBudget := next.2, aAcc := [], bAcc := [], nAcc := [], lastSample := s.now } })

/-- R195 to R198: commit, discard or refuse a complete estimate. -/
def State.gainCommit (s : State) (k a b : Nat) : State :=
  let sv := (s.gal k).survey
  let cols := sv.columns
  let old := s.coefSet k a
  let ceil := s.ceilCode k
  let est := tabulate 1104 (fun j => if cols.contains j then some (sv.estimate j) else none)
  let new := old.withGains est b ceil (decide (s.referenceBudget k = b))
  let lad := s.meanLadder k a b
  let off := differs (new.meanBase b) lad
  let moved := differs lad (old.meanBase b)
  let s := s.use 16
  if off && !moved then s.bump (galReg k 0x98) 1
  else
    let first := sv.firstUse && !((s.arr (arrKey k a)).committed.testBit b)
    match refusal old new (if first then 625 else 300) (off && moved) with
    | some r => s.refuse k a b 0 r
    | none =>
      let s := (s.accept k a new).modArr (arrKey k a) (fun r => { r with committed := r.committed ||| 2 ^ b })
      let s := s.updateDrift k a cols
      if sv.firstUse && s.allCommitted k then s.setFirstUse k false else s

/-- A complete estimate that may be committed is dealt with, and the focus moves (R194, R208). -/
def State.finishEstimate (s : State) (k : Nat) : State :=
  let sv := (s.gal k).survey
  if sv.ready && s.mayCommit k then (s.gainCommit k sv.focusArray sv.focusBudget).moveFocus k else s

/-- Is the pass a sample of the focus (R193, R205)? -/
def State.isSample (s : State) (k : Nat) (e : EvalRun) (p : Pass) : Bool :=
  let sv := (s.gal k).survey
  !p.high && !p.carry && !e.transpose && decide (p.cls ≠ .low) && e.mask.testBit sv.focusArray &&
  decide (e.budgetCode = sv.focusBudget) && (s.arr (arrKey k sv.focusArray)).job.isNone

def passCodesReady (k : Nat) (s : State) : State :=
  match convertingPass (s.gal k).evals with
  | none => s
  | some (e, i) =>
    match e.passes[i]? with
    | none => s
    | some p =>
      let s := s.at p.readyAt
      let (codes, s) := s.passResult k e p
      let p := { p with codes := codes, done := true }
      let s := s.modGal k (fun g => modEval g e.id (fun e => modPass e i (fun _ => p)))
      if s.isSample k e p then (s.sample k e p).finishEstimate k else s

/-- PASS_CODES_READY (R54, R56, R60, R64, R193): the sweep ends; the codes of every array of the mask are ready, and the
survey takes its sample. -/
def execPassCodesReady (h g : Nat) (s : State) : Host.Outcome State Fault Refusal := next (passCodesReady (galKey h g) s)

/-! ### The survey cycle (R192) -/

/-- Units an array runs in the present cycle, in order. -/
def State.activeUnits (s : State) (k : Nat) : List Nat := s.surveyBudgets k ++ [4, 5, 6, 7, 8, 9, 10]

/-- Arrays of a cycle: those with a record and no touch-up in hand (R192, R205). -/
def State.cycleArrays (s : State) (k : Nat) : List Nat :=
  (s.recArrays k).filter (fun a => (s.arr (arrKey k a)).job.isNone)

/-- The next array and unit at or after a position of the cycle; none when the cycle has ended. -/
def State.unitFrom (s : State) (k array unit : Nat) : Option (Nat × Nat) :=
  let us := s.activeUnits k
  (s.cycleArrays k).findSome? (fun a =>
    if a < array then none
    else (us.find? (fun u => decide (array < a) || decide (unit ≤ u))).map (fun u => (a, u)))

/-- The unit to run next: the cycle's next one, or the first of a new cycle. -/
def State.nextUnit (s : State) (k : Nat) : Option (Nat × Nat) :=
  let sv := (s.gal k).survey
  (s.unitFrom k sv.cycleArray sv.cycleUnit).orElse (fun _ => s.unitFrom k 0 0)

/-- The cycle's place after unit `u` of array `a`. With no unit left the cycle ends there: BUDGETS_SEEN clears (R192). -/
def State.cycleAfter (s : State) (k a u : Nat) : State :=
  if (s.unitFrom k a (u + 1)).isSome then
    s.modGal k (fun g => { g with survey := { g.survey with cycleArray := a, cycleUnit := u + 1 } })
  else s.modGal k (fun g => { g with survey := { g.survey with cycleArray := 0, cycleUnit := 0, budgetsSeen := 0 } })

/-- Instant at which a survey unit on array `a` would open its window: an off buffer is armed now and holds it for 2 µs (R59). -/
def State.surveyStart (s : State) (k a : Nat) : Nat := s.unitStart k a ((s.gal k).refOn.getD s.now + refWarm)

/-- May a survey unit start, were no other activity before it: it must end before the close of a GAP (R66, R94, R190, R192)? -/
def State.maySurvey (s : State) (k : Nat) : Bool :=
  (s.owner k).isSome && s.awake k && (s.gal k).survey.initialDone &&
  (match s.nextUnit k with
    | some (a, u) => s.bgRoom k (s.surveyStart k a + unitLength u) false
    | none => false)

/-- Arrays of the gallery that are due for touch-up (R204). -/
def State.dueArrays (s : State) (k : Nat) : List Nat := (s.recArrays k).filter (fun a => (s.arr (arrKey k a)).due)

/-- May the arbiter admit one more array (R174)? -/
def State.slotFree (s : State) : Bool := decide (s.progActive.length < s.rfld 0xA5000 10 0)

/-- The array touch-up works on: one begun, else the lowest due. -/
def State.touchupArray (s : State) (k : Nat) : Option Nat :=
  let ds := (s.dueArrays k).filter (fun a => (s.arr (arrKey k a)).job.all (fun j => decide (j.row < 1024)))
  match ds.find? (fun a => (s.arr (arrKey k a)).job.isSome) with
  | some a => some a
  | none => ds.head?

/-- Most columns a row programs (R170). -/
def rowColumns : Nat := 1024 + 64 + 14

/-- The longest a touch-up row of an array can take: 1,990 ns and the rewrite of as many entries as the array can then have (R171,
R172). -/
def State.longestRow (s : State) (k a : Nat) : Nat := ns 1990 + hallCycles (cdiv ((s.emapOf k a).length + rowColumns) 128)

/-- Instant at which the next touch-up row would start: behind the unit in progress. -/
def State.touchupStart (s : State) (k : Nat) : Nat := max s.now (s.bgUntil k)

/-- May a touch-up row start: due array, budget, room, window, arbiter and VPROG (R94, R177, R367)? -/
def State.mayTouchup (s : State) (k : Nat) : Bool :=
  (match s.touchupArray k with
    | some a => s.budgetLeft k 2 && s.bgRoom k (s.touchupStart k + s.longestRow k a) false
    | none => false) &&
  s.windowOpen.getD (k / 512) false && s.slotFree && s.railPg 7 && decide (s.pkg = 3)

/-- A pass that finds the reference buffer off turns it on and sets LATE_ARM (R59). -/
def State.armForPass (s : State) (k : Nat) : State :=
  match (s.gal k).refOn with
  | some _ => s
  | none => (s.setRbit (galReg k 0x44) 10 true).modGal k (fun g => { g with refOn := some s.now })

def surveyUnit (k : Nat) (s : State) : State :=
  if !(s.maySurvey k) || s.mayTouchup k then s
  else if !(s.budgetLeft k 0) then s.bgWaited k 0
  else
    match s.nextUnit k with
    | none => s
    | some (a, u) =>
      let t := s.surveyStart k a
      let s := ((s.armForPass k).bgCharge k 0 (2 ^ a) t (unitLength u)).bump (galReg k 0x8C) 1
      let s := s.measure k a u (if u < 4 then u else s.ceilCode k)
      ((s.cycleAfter k a u).offsetsDue k a u).finishEstimate k

/-- SURVEY_UNIT (R94, R95, R190 to R192, R195): the next unit of the gallery's cycle, unless touch-up comes first. -/
def execSurveyUnit (h g : Nat) (s : State) : Host.Outcome State Fault Refusal := next (surveyUnit (galKey h g) s)

/-- FOCUS_TIMEOUT_EXPIRY (R194): the partial accumulation is discarded and the focus moves. -/
def execFocusTimeoutExpiry (h g : Nat) (s : State) : Host.Outcome State Fault Refusal :=
  let k := galKey h g
  let sv := (s.gal k).survey
  if (s.owner k).isSome ∧ sv.initialDone ∧ !sv.ready then
    next ((s.at (sv.lastSample + ms (s.rfld (galReg k 0x80) 23 16))).moveFocus k)
  else next s

/-- MAX_AGE_EXPIRY (R204): an array whose AGE_EQ has reached MAX_AGE days becomes due. -/
def execMaxAgeExpiry (h g a : Nat) (s : State) : Host.Outcome State Fault Refusal :=
  let k := galKey h g
  let r := s.arr (arrKey k a)
  if r.record.isSome ∧ s.maxAge k ≤ r.ageEq then next (s.becomeDue k (a % 32) 1) else next s

/-! ### The initial survey (R201) -/

/-- Units of the initial survey of one array, 64 of each; ZERO and LADDER units at each budget. -/
def initialUnits : List (Nat × Nat) :=
  [(0, 0), (1, 1), (2, 2), (3, 3), (4, 0), (4, 1), (4, 2), (4, 3), (5, 0), (5, 1), (5, 2), (5, 3), (6, 0), (7, 0), (8, 0), (9, 0),
   (10, 0)]

/-- Factory gain deviation FG of a converter of an array (R200), as a factor. -/
def State.factoryFactor (s : State) (i g : Nat) : Rat :=
  1 + (signed 4 (s.nvLE (0x200000 + 8 * i) 8 / 2 ^ (4 * g)) : Rat) / 128

/-- GAIN_NOM of a hall at a budget code (R200). -/
def State.gainNom (s : State) (h b : Nat) : Rat := (s.nvLE (0x302000 + 8 * h + 2 * b) 2 : Nat)

/-- R201: the set the initial survey commits. -/
def State.initialSet (s : State) (k a : Nat) : CoefSet :=
  let i := arrKey k a
  let r := s.arr i
  let nom := fun b g => s.gainNom (k / 512) b * s.factoryFactor i g
  let l := fun b => ratMean4 (fun c => if nom b c = 0 then (Config.freeNat (s.free + 16 + c) : Rat) else s.ladderGain k a c b / nom b c)
  let ls := tabulate 4 l
  let ceil := s.ceilCode k
  let z := s.coefSet k a
  let c0 : CoefSet := { z with
    gbase := tabulate 64 (fun x => ratRhe (nom (x % 4) (x / 4) * ls.getD (x % 4) 0))
    gt := List.replicate 1104 0, ot := List.replicate 1104 0, rowGt := List.replicate 1024 0 }
  let c1 := (List.range 4).foldl (fun c b => c.withOffsets (zeroMeans r b) b ceil) c0
  let rm := rowZeroMeans r
  let c2 := c1.withRowBases rm
  let c3 := (List.range 4).foldl (fun c q => c.withRowOffsets rm q) c2
  { c3 with rowGain := List.replicate 4 (rhe (c3.gainSum (s.referenceBudget k)) 16) }

/-- The units of the initial survey of one array. -/
def State.initialMeasures (s : State) (k a : Nat) : State := initialUnits.foldl (fun s (u, b) => s.measureN k a u b 64) s

/-- The initial survey of one array: its units, its commit without limits, its baselines. A set outside the ranges of R101 is never
committed (R187); the load that owns the gallery then ends (log 22). -/
def State.initialArray (s : State) (k a : Nat) : State :=
  let s := s.initialMeasures k a
  let c := s.initialSet k a
  let s := s.use 32
  let s := if c.inRange then s.writeCoefs k a c else s
  let cols := match (s.arr (arrKey k a)).record with
    | some rec => (List.range 1088).filter (fun j => (s.columnStat k a rec (s.sparesOf k a) j).isSome)
    | none => []
  (s.modArr (arrKey k a) (fun r => { r with surveyed := cols, committed := 0 })).recordBaseline k a

/-- Would the initial survey of the gallery commit a set that R187 forbids? -/
def State.initialBad (s : State) (k : Nat) : Bool :=
  ((s.recArrays k).foldl (fun (s, bad) a => (s.initialArray k a, bad || !((s.initialMeasures k a).initialSet k a).inRange)) (s, false)).2

/-- Time of the initial survey of one array. -/
def initialTime : Nat := 832 * ns 68 + 256 * ns 64

/-- OFFS_BASE of every array, group and budget of a gallery, as the trend compares them. -/
def State.offsetBases (s : State) (k : Nat) : List Int :=
  (List.range 32).flatMap (fun a => if (s.arr (arrKey k a)).record.isSome then (s.coefSet k a).obase else List.replicate 64 0)

/-- Run a gallery's initial survey: commits, baselines, first use and a fresh focus (R201, R202); its offset bases are what the trend of
R206 starts from. -/
def State.initialSurvey (s : State) (k : Nat) : State :=
  let recs := s.recArrays k
  let s := recs.foldl (fun s a => s.initialArray k a) s
  let s := (s.at (s.now + recs.length * initialTime)).bump (galReg k 0x8C) (recs.length * 1088)
  let offs := s.offsetBases k
  let s := s.modGal k (fun g => { g with survey := { Survey.reset with
    focusArray := recs.headD 0, focusBudget := s.ceilCode k, lastSample := s.now, marginLevel := g.survey.marginLevel,
    lowerRuns := g.survey.lowerRuns, initialDone := true, offsBefore := offs } })
  s.setFirstUse k true

/-! ### Margin plans (R206, R207) -/

/-- Level of a metric against its three thresholds. -/
def metricLevel (x t1 t2 t3 : Nat) : Nat := if x < t1 then 0 else if x < t2 then 1 else if x < t3 then 2 else 3

/-- Nonnegative part of a rational, rounded down and capped at 255. -/
def capByte (r : Rat) : Nat := min 255 r.floor.toNat

/-- Metric D: largest drift rate over the arrays aged 24 h or more, in 0.01 % per day. -/
def State.metricD (s : State) (k : Nat) : Nat :=
  (s.recArrays k).foldl (fun m a =>
    let r := s.arr (arrKey k a)
    if 86400 ≤ r.ageEq then max m (capByte (10000 * r.driftEst * 86400 / r.ageEq)) else m) 0

/-- Metric OFFS_TREND in codes: OFFS_BASE is in quarter codes. -/
def State.metricOffs (s : State) (k : Nat) : Nat :=
  let old := (s.gal k).survey.offsBefore
  if old.isEmpty then 0
  else
    let b := s.ceilCode k
    min 255 (((s.offsetBases k).zip old).zipIdx.foldl (fun m (x, i) => if i % 4 = b then max m (x.1 - x.2).natAbs else m) 0 / 4)

/-- Metric RO_SLOW in units of 0.1 %: the count over 1 ms, normalised to 60 °C, is what the ring oscillator gives: a free
value. -/
def State.metricRo (s : State) (k count : Nat) : Nat :=
  let f := s.nvLE (0x300000 + 2 * k) 2
  if f = 0 then count % 256 else min 255 (1000 * (f - count) / f)

/-- Metric ITER in sixteenths of an iteration. -/
def State.metricIter (s : State) (k : Nat) : Nat :=
  let g := s.gal k
  if g.progRows = 0 then 0 else min 255 (16 * g.progIters / g.progRows)

/-- DRIFT_LIMIT of a margin level in 0.01 % (R207). -/
def marginDrift (l : Nat) : Nat := if l = 0 then 150 else if l = 1 then 120 else if l = 2 then 100 else 75

/-- Profile of the gallery's context (SRV_CTX.PROFILE). -/
def State.galProfile (s : State) (k : Nat) : Nat := s.rfld (0xA6100 + 4 * (s.owner k).getD 0) 1 0

/-- R207: apply a margin level. A lower BUDGET_CEIL at which some array has no accepted gain commit returns the gallery to first use
(R202). -/
def State.applyMargin (s : State) (k l : Nat) : State :=
  let lowered := decide (3 - l < s.ceilCode k)
  let s := ((s.setRfld (galReg k 0x44) 1 0 (3 - l)).setRfld (galReg k 0x80) 7 0 (marginDrift l)).setRfld (galReg k 0x60) 9 8
    (max (profileReplica (s.galProfile k)) (replicaFloor l))
  if lowered && !(s.allCommitted k) then s.setFirstUse k true else s

/-- One evaluation of a gallery; `daily` takes the 24 h record of offsets (R206, R207). -/
def State.evalMargin (s : State) (k : Nat) (daily : Bool) : State :=
  let (count, s) := s.draw
  let d := s.metricD k
  let o := s.metricOffs k
  let ro := s.metricRo k count
  let it := s.metricIter k
  let levels := [metricLevel d 30 45 70, metricLevel o 2 4 8, metricLevel ro 20 40 60, metricLevel it 128 160 192]
  let found := levels.foldl max 0
  let sv := (s.gal k).survey
  let runs := if found < sv.marginLevel then sv.lowerRuns + 1 else 0
  let new := if sv.marginLevel < found then found else if 2 ≤ runs then sv.marginLevel - 1 else sv.marginLevel
  let s := s.setReg (galReg k 0xA4) (BitVec.ofNat 32 (d + o * 2 ^ 8 + ro * 2 ^ 16 + it * 2 ^ 24))
  let s := s.modGal k (fun g => { g with survey := { g.survey with
    marginLevel := new, lowerRuns := runs, offsBefore := if daily then s.offsetBases k else g.survey.offsBefore } })
  if new = sv.marginLevel then s
  else
    let bits := (levels.zipIdx.foldl (fun m (l, i) => if l = new then m + 2 ^ (16 + i) else m) 0)
    (s.applyMargin k new).raise evMarginReplan (k / 512) (s.owner k) (galDetail k + sv.marginLevel * 2 ^ 12 + new * 2 ^ 14 + bits)

/-- Owned galleries, ascending. -/
def State.ownedGalleries (s : State) : List Nat := (List.range 4096).filter (fun k => (s.owner k).isSome)

/-- Every owned gallery is evaluated (R206). -/
def State.evalMargins (s : State) (daily : Bool) : State := s.ownedGalleries.foldl (fun s k => s.evalMargin k daily) s

/-- MARGIN_EVALUATION (R206, R207): every 24 h of powered time. -/
def execMarginEvaluation (s : State) : Host.Outcome State Fault Refusal :=
  let s := s.at (s.lastMargin + sec 86400)
  next (({ s with lastMargin := s.now } : State).evalMargins true)

end Sys2Proof.Machine
end

