-- ==== Sys2Proof/Machine/Programmer.lean ====
section
/-! DEFINITION. Program and verify, touch-up and scrub: R42, R128, R170 to R174, R177, R183, R184, R205. The model's own choices: log 7
cells before programming (DESIGN CHOICE); log 23 touch-up (DEDUCED, DESIGN CHOICE); log 24 programming and scrub codes (DEDUCED, DESIGN
CHOICE); log 25 room in the error-map pool (DESIGN CHOICE); log 48 scrub mismatches and R126's count (DESIGN CHOICE). -/

namespace Sys2Proof.Machine

/-! ### Target levels (R42, R43, R164) -/

/-- Level of a weight cell. -/
def ArrayRec.weightLevel (r : ArrayRec) (col row : Nat) : Int :=
  if row < r.rows ∧ col < r.cols then r.format.level ((r.codes.getD col []).getD row 0) else 8

/-- Sum of the target levels less 8 of one half of the weight columns on a row (R42). -/
def ArrayRec.halfSum (r : ArrayRec) (h row : Nat) : Int :=
  isum (tabulate 512 (fun j => r.weightLevel (512 * h + j) row - 8))

/-- Level a cell is meant to hold. -/
def ArrayRec.target (r : ArrayRec) (spares : List (Nat × Nat)) (col row : Nat) : Int :=
  if col < 1024 then r.weightLevel col row
  else if col < 1088 then r.weightLevel (spares.getD (col - 1024) (0, 0)).2 row
  else if col = 1100 ∨ col = 1101 then 8 + clampI (-8) 7 (rhe (r.halfSum (col - 1100) row) (2 ^ r.gc))
  else refLevel col row

/-- Columns a row programs: weights, spares with a role, datum, ladder and check columns (R170). -/
def programmedCols (spares : List (Nat × Nat)) : List Nat :=
  List.range 1024 ++ (List.range 64).filterMap (fun i => if (spares.getD i (0, 0)).1 = 0 then none else some (1024 + i)) ++
  tabulate 14 (fun i => 1088 + i)

/-! ### One row (R170) -/

/-- A cell that is still pending. -/
structure PCell where
  col : Nat
  target : Int
  dir : Int
  amp : Int
  start : Option Rat
  deriving DecidableEq, Repr

/-- Measured levels of a row: a one-row read at f = 6 with 3-unit pulses, six codes to a level (R170). -/
def State.verify (s : State) (i row : Nat) (cols : List Nat) : List (Nat × Rat) × State :=
  (cols.zipIdx.map (fun (c, n) => (c, 8 + (codeOf (s.signal4 i [(row, 3)] c) 4 6 (s.free + n) : Rat) / 6)), s.use cols.length)

def levelOf (lvl : List (Nat × Rat)) (col : Nat) : Rat := (lookupArr lvl col).getD 8

/-- One pulse on every pending cell. -/
def State.pulse (s : State) (i row : Nat) (ps : List PCell) : State :=
  (ps.zipIdx.foldl (fun t (p, n) =>
    t.setCellQ i p.col row (clampI 0 60 (Config.pulseMove (s.free + n) (s.cellQ i p.col row) p.dir p.amp))) s).use ps.length

def ratSign (x : Rat) : Int := if x < 0 then -1 else if 0 < x then 1 else 0

/-- R170: what a verify does to a pending cell; none when it is done. -/
def PCell.next (p : PCell) (lvl : Rat) : Option PCell :=
  let e := (p.target : Rat) - lvl
  let start := some (p.start.getD lvl)
  if ratAbs e ≤ 1 / 2 then none
  else if ratSign e ≠ p.dir then some { p with start := start, dir := ratSign e, amp := max (p.amp - 2) 0 }
  else some { p with start := start, amp := min (p.amp + 1) 15 }

/-- The outcome of a row: iterations, last measured levels, cells still pending, and what each pulse changed. -/
structure RowResult where
  iters : Nat
  lvl : List (Nat × Rat)
  pending : List PCell
  /-- by pulse, columns and quarter levels of its cells before it -/
  before : List (List (Nat × Int))
  deriving DecidableEq, Repr

/-- R170: the pulse loop, at most `fuel` iterations. -/
def State.pulseLoop (s : State) (i row : Nat) (cols : List Nat) (r : RowResult) : Nat → RowResult × State
  | 0 => (r, s)
  | fuel + 1 =>
    if r.pending.isEmpty then (r, s)
    else
      let was := r.pending.map (fun p => (p.col, s.cellQ i p.col row))
      let s := s.pulse i row r.pending
      let (lvl, s) := s.verify i row cols
      let ps := r.pending.filterMap (fun p => p.next (levelOf lvl p.col))
      s.pulseLoop i row cols { iters := r.iters + 1, lvl := lvl, pending := ps, before := r.before ++ [was] } fuel

/-- R170: program one row; `touchup` verifies first and pulses only the cells that are off. -/
def State.programCells (s : State) (i row : Nat) (touchup : Bool) (cells : List (Nat × Int)) : RowResult × State :=
  let cols := cells.map Prod.fst
  if touchup then
    let (lvl, s) := s.verify i row cols
    let ps := cells.filterMap (fun (c, t) =>
      let e := (t : Rat) - levelOf lvl c
      if ratAbs e ≤ 1 / 2 then none else some ({ col := c, target := t, dir := ratSign e, amp := 0, start := none } : PCell))
    s.pulseLoop i row cols { iters := 0, lvl := lvl, pending := ps, before := [] } 16
  else
    let ps := cells.map (fun (c, t) =>
      ({ col := c, target := t, dir := (t - 8).sign, amp := ((t - 8).natAbs : Int), start := none } : PCell))
    s.pulseLoop i row cols { iters := 0, lvl := [], pending := ps, before := [] } 16

/-! ### Error-map entries (R106, R107, R171) -/

/-- R106: order of entries. -/
def entryBefore (x y : EmapEntry) : Bool :=
  let k := fun (e : EmapEntry) => (groupOf e.col, e.col, e.row)
  let (g1, c1, r1) := k x
  let (g2, c2, r2) := k y
  decide (g1 < g2) || (decide (g1 = g2) && (decide (c1 < c2) || (decide (c1 = c2) && decide (r1 ≤ r2))))

/-- R171: the entry of a cell after its row; `had` says that it held a MISS or DATUM entry before a touch-up. -/
def rowEntry (row : Nat) (res : RowResult) (had : Bool) (cell : Nat × Int) : Option EmapEntry :=
  let lvl := levelOf res.lvl cell.1
  let dw := clampI (-128) 127 (ratRhe (4 * ((cell.2 : Rat) - lvl)))
  let stuck := res.pending.any (fun p => decide (p.col = cell.1) && (match p.start with
    | some s0 => decide (ratAbs (lvl - s0) < 1)
    | none => false))
  let miss := decide (4 ≤ dw.natAbs) || (had && decide (1 ≤ dw.natAbs))
  if isDatum cell.1 then (if stuck || miss then some { row := row, col := cell.1, dw := dw, flags := 4 } else none)
  else if stuck then some { row := row, col := cell.1, dw := dw, flags := 2 }
  else if miss then some { row := row, col := cell.1, dw := dw, flags := 1 }
  else none

/-- R171: the array's entries after a row. The rule keeps or removes a MISS or DATUM entry by its new DW and says nothing of a STUCK entry
whose cell now verifies; the model writes no entry for it (log 23, DESIGN CHOICE). -/
def rowEntries (old : List EmapEntry) (row : Nat) (touchup : Bool) (cells : List (Nat × Int)) (res : RowResult) :
    List EmapEntry :=
  let mine := fun (e : EmapEntry) => decide (e.row = row) && decide (e.flags ≠ 3) && cells.any (fun c => decide (c.1 = e.col))
  let had := fun (c : Nat) => touchup && old.any (fun e => mine e && decide (e.col = c) && decide (e.flags = 1 ∨ e.flags = 4))
  let new := cells.filterMap (fun c => rowEntry row res (had c.1) c)
  sortBy entryBefore (old.filter (fun e => !(mine e)) ++ new)

/-- Entries a gallery's pool has room for (R107). -/
def State.poolRoom (s : State) : Nat := s.poolWords - 1568

/-- The lowest place in the pool where `n` entries of array `a` fit beside the other arrays' entries. -/
def State.poolPlace (s : State) (k a n : Nat) : Option Nat :=
  let others := ((List.range 32).filter (fun x => decide (x ≠ a))).map (s.emapRange k)
  let used := others.filter (fun r => decide (r.1 < r.2))
  let fits := fun (b : Nat) => decide (b + n ≤ s.poolRoom) && used.all (fun r => decide (b + n ≤ r.1) || decide (r.2 ≤ b))
  ((0 :: used.map Prod.snd).filter fits).foldl (fun m b => match m with | none => some b | some x => some (min x b)) none

/-- Write an array's entries and its directory words (R107, R112); none when the pool is full. -/
def State.writeEmap (s : State) (k a : Nat) (es : List EmapEntry) : Option State :=
  (s.poolPlace k a es.length).map (fun b =>
    let s := s.writeBytes (s.poolBase k + 4 * (1568 + b)) (es.flatMap (fun e => natLE 4 e.toWord.toNat))
    let first := fun g => b + (es.filter (fun e => decide (groupOf e.col < g))).length
    s.writeBytes (s.poolBase k + 4 * (17 * a)) ((List.range 17).flatMap (fun g => natLE 4 (if g = 16 then b + es.length else first g))))

/-- Write an array's spare table (R113). -/
def State.writeSpares (s : State) (k a : Nat) (sp : List (Nat × Nat)) : State :=
  s.writeBytes (s.poolBase k + 4 * (544 + 32 * a)) ((tabulate 64 (fun i =>
    let (role, t) := sp.getD i (0, 0)
    natLE 2 (role + 4 * t))).flatten)

/-! ### Wear (R183, R184) -/

/-- Rows programmed, saturating in their field; WORN at 1,024,000,000 (R184). -/
def wearRow (w : BitVec 128) : BitVec 128 :=
  let n := min (wearRows w + 1) (2 ^ 30 - 1)
  let w := setFld w 29 0 n
  if 1024000000 ≤ n ∧ wearState w = 0 then setFld w 31 30 1 else w

/-- Record a dead weight column; a fifth retires the array (R184). -/
def wearDead (w : BitVec 128) (col : Nat) : BitVec 128 :=
  if (deadCols w).contains col then w
  else if 4 ≤ deadCount w then setFld w 31 30 2
  else
    let n := deadCount w
    setFld (setFld w (46 + 11 * n) (36 + 11 * n) col) 34 32 (n + 1)

/-! ### The window (R175) -/

/-- Reported J estimate of a hall in units of 0.25 °C (R400). -/
def State.hallEst (s : State) (h : Nat) : Int := signed 16 (s.rfld (0x40100 + 4 * h) 15 0)

/-- Does programming of a load wait in a hall whose window is shut (R175)? -/
def State.loadWaits (s : State) (l : Load) : Bool :=
  l.bound.any (fun b => !(s.windowOpen.getD b.vhall false) && (List.range 32).any (fun a => (s.arr (arrKey b.key a)).job.isSome))

/-- Note from when the programming of each load in progress has waited for a closed window, and where it waits no more (R175). -/
def State.noteWindows (s : State) : State :=
  { s with loads := s.loads.map (fun (c, l) =>
      (c, if l.done then l else { l with waitSince := if s.loadWaits l then some (l.waitSince.getD s.now) else none })) }

/-- Test a hall's window: an open one closes outside 15 to 75 °C with its event, a closed one opens inside 17 to 73 °C. -/
def State.testWindow (s : State) (h : Nat) : State :=
  let t := s.hallEst h
  if s.windowOpen.getD h false then
    if t < 60 ∨ 300 < t then
      { s with windowOpen := s.windowOpen.set h false }.noteWindows.raise evProgramWindowClosed h none (h + unsigned 16 t * 8)
    else s
  else if 68 ≤ t ∧ t ≤ 292 then { s with windowOpen := s.windowOpen.set h true }.noteWindows else s

/-! ### The power arbiter and VPROG (R174, R367) -/

/-- A programming request asserts EN_PROG, in RUN only (R367). -/
def State.requestVprog (s : State) : State :=
  let s := { s with vprogOff := none }
  if s.pkg = 3 ∧ s.railEn 7 = false then { s.setRbit 0x10008 7 true with vprogAt := some s.now } else s

/-- The waiting array to admit next: halls in turn after the last one granted, request order within a hall. -/
def nextGrant (ws : List Nat) (hall : Nat) : Option Nat :=
  (List.range 8).findSome? (fun d => ws.find? (fun i => decide (i / 16384 = (hall + 1 + d) % 8)))

/-- Admit waiting arrays while slots are free (R174); `fuel` bounds the number. -/
def State.grant (s : State) : Nat → State
  | 0 => s
  | fuel + 1 =>
    if !s.slotFree then s
    else match nextGrant s.progWait s.progHall with
      | none => s
      | some i =>
        let s := s.modArr i (fun r => { r with job := r.job.map (fun j => { j with readyAt := max j.readyAt s.now }) })
        { s with progActive := s.progActive ++ [i], progWait := s.progWait.erase i, progHall := i / 16384 }.grant fuel

/-- Arrays the arbiter may admit at most. -/
def grantFuel : Nat := 2048

/-- Begin a programming job on an array. -/
def State.startJob (s : State) (i mode : Nat) (sweep : List Nat) : State :=
  let s := s.modArr i (fun r => { r with job := some { mode := mode, row := 0, sweep := sweep, readyAt := s.now } })
  (({ s with progWait := s.progWait ++ [i] }.requestVprog).grant grantFuel).noteWindows

/-- With no programming left after instant `t`, EN_PROG is due to fall 10 ms later (R174). -/
def State.vprogIdle (s : State) (t : Nat) : State :=
  if s.progActive.isEmpty && s.progWait.isEmpty then { s with vprogOff := some (t + ms 10) } else s

/-- An array's job ends and its slot passes on. -/
def State.endJob (s : State) (i : Nat) : State :=
  let s := s.modArr i (fun r => { r with job := none })
  ({ s with progActive := s.progActive.erase i, progWait := s.progWait.erase i }.grant grantFuel).noteWindows.vprogIdle s.now

/-! ### A row of a job -/

/-- Time of a row (R172) with its entry rewrite (R171). -/
def rowTime (touchup : Bool) (iters entries : Nat) : Nat :=
  (if touchup then ns 70 else 0) + iters * ns 120 + hallCycles (cdiv entries 128)

/-- Program one row of array `a` of gallery `k`, whose record is `rec`, from instant `t0`: cells, entries, wear, iterations.
The second answer says that the entries did not fit the pool. -/
def State.runRow (s : State) (k a row t0 : Nat) (touchup : Bool) (rec : ArrayRec) (cols : List Nat) : State × Bool :=
  let i := arrKey k a
  let spares := s.sparesOf k a
  let cells := cols.map (fun c => (c, rec.target spares c row))
  let old := s.emapOf k a
  let (res, s) := (s.at t0).programCells i row touchup cells
  let es := rowEntries old row touchup cells res
  let t1 := t0 + rowTime touchup res.iters es.length
  let cut : RowCut :=
    { row := row, first := t0 + (if touchup then ns 70 else 0), endAt := t1, before := res.before, wear := s.wear i, entries := old }
  let s := s.setWear i (wearRow (s.wear i))
  let s := s.modArr i (fun r => { r with heldUntil := t1, cut := some cut, job := r.job.map (fun j => { j with row := row + 1, readyAt := t1 }) })
  let s := s.modGal k (fun g => { g with progIters := g.progIters + res.iters, progRows := g.progRows + 1 })
  match s.writeEmap k a es with
  | some s => (s, false)
  | none => (s, true)

/-- HOLDUP comes while the programmer holds an array: the pulse in flight ends, its verify is skipped and nothing later of the row
happens: no further pulse, no entries, no row counted (R170, R176). -/
def State.cutRow (s : State) (i : Nat) : State :=
  let r := s.arr i
  match r.cut with
  | none => s
  | some x =>
    if x.endAt ≤ s.now then s
    else
      let begun := ((List.range x.before.length).filter (fun n => decide (x.first + n * ns 120 < s.now))).length
      let s := (x.before.drop begun).reverse.foldl (fun s ps => ps.foldl (fun s p => s.setCellQ i p.1 x.row p.2) s) s
      let s := (s.writeEmap (i / 32) (i % 32) x.entries).getD s
      s.modArr i (fun r => { r with wear := some x.wear, heldUntil := s.now, cut := none })

/-! ### Touch-up (R177, R205) -/

/-- R205, when an array's last row ends, without the limits of R196; a set outside the ranges of R101 is never committed (R187). Every
owned gallery is evaluated then (R206). -/
def State.touchupDone (s : State) (k a : Nat) : State :=
  let i := arrKey k a
  let r := s.arr i
  let c := s.coefSet k a
  let d := 1 + r.driftEst
  let c1 := { c with gbase := c.gbase.map (fun g => if d = 0 then g else ratRhe ((g : Rat) / d)) }
  let s := if c1.inRange then s.writeCoefs k a c1 else s
  let s := s.modArr i (fun r => { r with job := none, due := false, ageEq := 0, lastProgrammed := s.now })
  (s.recordBaseline k a).evalMargins false

/-- Begin touch-up of an array: the gallery's iteration mean starts afresh with its first array (R206). -/
def State.touchupBegin (s : State) (k a : Nat) : State :=
  let i := arrKey k a
  if (s.arr i).job.isSome then s
  else
    let s := s.modGal k (fun g => { g with progIters := 0, progRows := 0 })
    s.modArr i (fun r => { r with job := some { mode := 2, row := 0, sweep := [], readyAt := s.now } })

/-- The array of a gallery whose last touch-up row has run and waits for its end. -/
def State.touchupLast (s : State) (k : Nat) : Option (Nat × Nat) :=
  (s.dueArrays k).findSome? (fun a => match (s.arr (arrKey k a)).job with
    | some j => if j.mode = 2 ∧ 1024 ≤ j.row then some (a, j.readyAt) else none
    | none => none)

/-- The next row of the array that touch-up works on. -/
def touchupNext (k : Nat) (s : State) : State :=
  match s.touchupArray k with
  | none => s
  | some a =>
    if !(s.budgetLeft k 2) then s.bgWaited k 2
    else if !(s.mayTouchup k) then (if s.pkg = 3 ∧ s.railPg 7 = false then s.requestVprog else s)
    else
      let s := s.touchupBegin k a
      let r := s.arr (arrKey k a)
      match r.record, r.job with
      | some rec, some j =>
        let t0 := s.touchupStart k
        let (s, _) := s.runRow k a j.row t0 true rec (programmedCols (s.sparesOf k a))
        let t1 := (s.arr (arrKey k a)).heldUntil
        (s.bgCharge k 2 (2 ^ a) t0 (t1 - t0)).vprogIdle t1
      | _, _ => s

def touchupRow (k : Nat) (s : State) : State :=
  let s := s.testWindow (k / 512)
  match s.touchupLast k with
  | some (a, t) => (s.at t).touchupDone k a
  | none => touchupNext k s

/-- TOUCHUP_ROW (R170 to R172, R177, R205): one row of the array touch-up works on, or the end of its last row. -/
def execTouchupRow (h g : Nat) (s : State) : Host.Outcome State Fault Refusal := next (touchupRow (galKey h g) s)

/-! ### The scrub (R128) -/

/-- Code of row `i` of a scrub window: one of −3, −2, −1, +1, +2, +3, each as likely. The seed is the global time base at the unit's
start; the register's polynomial and the map to codes are open, so the codes are free values of the seed (R128). -/
def scrubCode (seed i : Nat) : Int := [(-3 : Int), -2, -1, 1, 2, 3].getD (Config.scrubDraw seed i % 6) 1

/-- The EVAL a scrub unit is: class 0, low step, CHK_TOL = 15, the rows of the window. -/
def State.scrubEval (s : State) (k a seed : Nat) : EvalRun :=
  let b := s.ceilCode k
  let n := budgetRows b
  let ptr := (s.gal k).scrubRow
  let seg : Segment := {
    format := .a4, lowpass := false, scales := List.replicate 32 0x78#8,
    codes := tabulate 1024 (fun r => if (r + 1024 - ptr) % 1024 < n then scrubCode seed ((r + 1024 - ptr) % 1024) else 0),
    readyAt := s.now }
  let cls := segClasses seg
  { id := 0, slot := 0, mask := 2 ^ a, budgetCode := b, f := s.fsExp k b, transpose := false, high := false, low := true,
    chkTol := 15, thresh := 0, replicaMode := 0, poison := false, seg := seg, smax := segMax seg.scales, cls := cls,
    carrySeg := none, carryDue := none, passes := passList cls (mainCode seg cls) n false true false, residDue := 0,
    residDone := true, emap := [(a, s.emapOf k a)], spares := [(a, s.sparesOf k a)], coefs := s.coefBlocks k (2 ^ a),
    done := false, readyAt := 0, outs := [], landed := 0 }

/-- Arrays with a record at or after the scrub's place. -/
def State.scrubArray (s : State) (k : Nat) : Option Nat :=
  (s.recArrays k).find? (fun a => decide ((s.gal k).scrubArray ≤ a))

/-- The array a scrub unit runs on: the next at its place, else the first. -/
def State.scrubTarget (s : State) (k : Nat) : Nat := (s.scrubArray k).getD ((s.recArrays k).headD 0)

/-- May a scrub unit start, were no other activity before it? -/
def State.mayScrub (s : State) (k : Nat) : Bool :=
  (s.owner k).isSome && !(s.gal k).suspect && s.awake k && !(s.recArrays k).isEmpty &&
  s.bgRoom k (s.unitStart k (s.scrubTarget k) 0 + ns 68) false &&
  (match (s.gal k).refOn with | some t => decide (t + refWarm ≤ s.now) | none => false)

/-- The scrub's place after a unit on array `a`: the pointer moves by the budget once every array has run. -/
def State.scrubNext (s : State) (k a : Nat) : State :=
  if (s.recArrays k).any (fun x => decide (a < x)) then s.modGal k (fun g => { g with scrubArray := a + 1 })
  else s.modGal k (fun g => { g with scrubArray := 0, scrubRow := (g.scrubRow + budgetRows (s.ceilCode k)) % 1024 })

def scrubUnit (k : Nat) (s : State) : State :=
  if !(s.mayScrub k) || s.mayTouchup k || (s.maySurvey k && s.budgetLeft k 0) then s
  else if !(s.budgetLeft k 1) then s.bgWaited k 1
  else
      let a := s.scrubTarget k
      let rep := (s.gal k).scrubRepeat
      let s := s.bgCharge k 1 (2 ^ a) (s.unitStart k a 0) (ns 68)
      let seed := rep.getD s.time.toNat
      let e := s.scrubEval k a seed
      let s := s.bump (galReg k 0x7C) 1
      let e := { e with passes := e.passes.map (fun p =>
        { p with codes := [(a, s.forwardCodes (arrKey k a) p.rows e.f s.free)], done := true }) }
      let s := s.use 1104
      match (s.arr (arrKey k a)).record with
      | none => s
      | some rec =>
        let r := evalChecks e a rec.gc rec.rho rec.colSums
        let s := (s.bump (galReg k 0x6C) r.passed).bump (galReg k 0x74) r.skipped
        match r.fails with
        | [] => (s.modGal k (fun g => { g with scrubRepeat := none })).scrubNext k a
        | c :: _ =>
          let s := s.checkMismatch k c true rep.isSome r.fails.length
          let s := if rep.isSome then s.deadConverters k r.fails else s
          if rep.isSome then ((s.modGal k (fun g => { g with scrubRepeat := none })).scrubNext k a).becomeSuspect k 5
          else s.modGal k (fun g => { g with scrubRepeat := some seed })

/-- SCRUB_UNIT (R94, R95, R128): one unit, or the repeat of a unit that mismatched. -/
def execScrubUnit (h g : Nat) (s : State) : Host.Outcome State Fault Refusal := next (scrubUnit (galKey h g) s)

/-! ### VPROG and the wear table (R174, R183) -/

/-- VPROG_OFF_DELAY (R174, R367): EN_PROG is deasserted 10 ms after the last programming ended. -/
def execVprogOffDelay (s : State) : Host.Outcome State Fault Refusal :=
  match s.vprogOff with
  | none => next s
  | some t => next ({ (s.at t).setRbit 0x10008 7 false with vprogOff := none, vprogAt := none })

/-- Write every wear record the device counts in SRAM to the NV log (R183). -/
def State.writeWear (s : State) : State :=
  s.arrays.foldl (fun t (i, r) => match r.wear with
    | none => t
    | some w => (t.nvWrite (16 * i) (natLE 16 w.toNat)).modArr i (fun r => { r with wear := none })) s

/-- WEAR_TABLE_WRITE (R183): every 600 s. -/
def execWearTableWrite (s : State) : Host.Outcome State Fault Refusal :=
  let s := s.at (s.lastWear + sec 600)
  next { s.writeWear with lastWear := s.now }

end Sys2Proof.Machine
end

