-- ==== Sys2Proof/Machine/AtlasImage.lean ====
section
/-! DEFINITION. The atlas image: header, sections, records, and every check the loader makes of them (R159 to R167). The model's own
choices: log 32 atlas loads (DEDUCED, DESIGN CHOICE). -/

namespace Sys2Proof.Machine

/-! ### Header and sections (R159 to R161) -/

abbrev Image := List Byte

/-- Number of `n` bytes at an offset. -/
def Image.num (m : Image) (o n : Nat) : Nat := tblNum m o n

def Image.sections (m : Image) : Nat := m.num 10 2
def Image.noWide (m : Image) : Bool := (m.num 12 4).testBit 0
def Image.rotation (m : Image) : Bool := (m.num 12 4).testBit 1
def Image.ident (m : Image) : Nat := m.num 16 8
def Image.matrices (m : Image) : Nat := m.num 24 4
def Image.layers (m : Image) : Nat := m.num 28 2
def Image.vgals (m : Image) (h : Nat) : Nat := m.num (32 + 2 * h) 2
def Image.scratch (m : Image) (h : Nat) : Nat := m.num (48 + 4 * h) 4
def Image.tier0Bytes (m : Image) : Nat := m.num 80 8
def Image.bytes (m : Image) : Nat := m.num 88 8

/-- A section-table entry. -/
structure Sect where
  type : Nat
  count : Nat
  off : Nat
  len : Nat
  crc : Nat
  deriving DecidableEq, Repr

def Image.sectAt (m : Image) (i : Nat) : Sect :=
  let o := 256 + 32 * i
  { type := m.num o 1, count := m.num (o + 4) 4, off := m.num (o + 8) 8, len := m.num (o + 16) 8, crc := m.num (o + 24) 4 }

def Image.table (m : Image) : List Sect := tabulate m.sections m.sectAt

/-- The section of a type. -/
def Image.sect (m : Image) (ty : Nat) : Sect :=
  (m.table.find? (fun x => decide (x.type = ty))).getD { type := 0, count := 0, off := 0, len := 0, crc := 0 }

def secDispatch : Nat := 1
def secPlacement : Nat := 2
def secFlights : Nat := 3
def secCheck : Nat := 4
def secStats : Nat := 5
def secSeed : Nat := 6
def secWeights : Nat := 7
def secWide : Nat := 8

/-- Bytes `off` to `off + len − 1` have the check value. -/
def Image.crcOk (m : Image) (off len crc : Nat) : Bool := decide ((crc32c ((m.drop off).take len)).toNat = crc)

/-- Is the header whole and the section table with it? -/
def Image.headIn (m : Image) : Bool := decide (256 ≤ m.length) && decide (256 + 32 * m.sections ≤ m.length)

/-- MAGIC, VERSION and the header's CRC (R160, R167). -/
def Image.headerCrcOk (m : Image) : Bool :=
  decide (m.num 0 8 = 0x3153414C54415A4E) && decide (m.num 8 2 = 1) && m.crcOk 0 252 (m.num 252 4)

/-- Sections of a table lie one after another inside the image, on multiples of 4,096. -/
def sectsInside (n : Nat) : Nat → List Sect → Bool
  | _, [] => true
  | lo, x :: xs => decide (lo ≤ x.off) && decide (x.off % 4096 = 0) && decide (x.off + x.len ≤ n) && sectsInside n (x.off + x.len) xs

/-- R160, R161, R167: ranges of the header and the section table. R167 lists no field out of its range and no section off a multiple of
4,096 among its reasons; the model rejects both as a failing part of the image (log 32, DESIGN CHOICE). -/
def Image.headerOk (m : Image) (privileged : Bool) : Bool :=
  m.headerCrcOk && decide (m.table.map Sect.type = (if m.noWide then [1, 2, 3, 4, 5, 6, 7] else [1, 2, 3, 4, 5, 6, 7, 8])) &&
  decide (1 ≤ m.matrices ∧ m.matrices ≤ 65536) && decide (1 ≤ m.layers ∧ m.layers ≤ 256) &&
  (List.range 8).all (fun h => decide (m.vgals h ≤ 512)) && sectsInside m.bytes (256 + 32 * m.sections) m.table &&
  (!m.rotation || privileged)

/-! ### Records (R161 to R165) -/

/-- A gallery record (R162). -/
structure GalRec where
  vhall : Nat
  pool : Bool
  vgal : Nat
  arrays : Nat
  convFs : Nat
  layer : Nat
  off : Nat
  steps : Nat
  deriving DecidableEq, Repr

/-- An array record (R163), before its tables. -/
structure ArrEntry where
  vhall : Nat
  varray : Nat
  vgal : Nat
  matrix : Nat
  rowblk : Nat
  colblk : Nat
  rows : Nat
  cols : Nat
  fmt : Nat
  gc : Nat
  cell : Nat
  stats : Nat
  check : Nat
  seed : Nat
  ranges : Nat
  layer : Nat
  deriving DecidableEq, Repr

def Image.galRec (m : Image) (i : Nat) : GalRec :=
  let o := (m.sect secPlacement).off + 64 * i
  { vhall := m.num o 1, pool := (m.num (o + 1) 1).testBit 0, vgal := m.num (o + 2) 2, arrays := m.num (o + 4) 4,
    convFs := m.num (o + 8) 4, layer := m.num (o + 12) 2, off := m.num (o + 16) 8, steps := m.num (o + 24) 4 }

def Image.arrEntry (m : Image) (i : Nat) : ArrEntry :=
  let o := (m.sect secPlacement).off + 64 * i
  { vhall := m.num o 1, varray := m.num (o + 1) 1, vgal := m.num (o + 2) 2, matrix := m.num (o + 4) 2, rowblk := m.num (o + 6) 2,
    colblk := m.num (o + 8) 2, rows := m.num (o + 10) 2, cols := m.num (o + 12) 2, fmt := m.num (o + 14) 1, gc := m.num (o + 15) 1,
    cell := m.num (o + 16) 8, stats := m.num (o + 24) 8, check := m.num (o + 32) 8, seed := m.num (o + 40) 8,
    ranges := m.num (o + 48) 4, layer := m.num (o + 52) 2 }

def popcount (x : Nat) : Nat := ((List.range 32).filter (fun i => x.testBit i)).length

/-- Gallery records come first: read them until they and the array records they announce fill the section. -/
def Image.galRecsFrom (m : Image) (count : Nat) : Nat → Nat → Nat → List GalRec
  | 0, _, _ => []
  | fuel + 1, i, arrays =>
    if count ≤ i + arrays then []
    else
      let g := m.galRec i
      g :: m.galRecsFrom count fuel (i + 1) (arrays + popcount g.arrays)

def Image.galRecs (m : Image) : List GalRec :=
  let n := (m.sect secPlacement).count
  m.galRecsFrom n n 0 0

def Image.arrEntries (m : Image) : List ArrEntry :=
  let g := m.galRecs.length
  tabulate ((m.sect secPlacement).count - g) (fun i => m.arrEntry (g + i))

def GalRec.owns (g : GalRec) (a : ArrEntry) : Bool :=
  decide (a.vhall = g.vhall ∧ a.vgal = g.vgal ∧ a.layer = g.layer)

/-- Array records of a gallery record, ascending in VARRAY. -/
def Image.arraysOf (m : Image) (g : GalRec) : List ArrEntry :=
  sortBy (fun x y => decide (x.varray ≤ y.varray)) (m.arrEntries.filter g.owns)

def wFmtOf (c : Nat) : WFormat := if c = 0 then .w4 else if c = 1 then .w3 else if c = 2 then .w2 else .wt

/-- Bytes of a cell image (R164). -/
def cellImageBytes (fmt : Nat) : Nat := 512 * (64 * parcelLines (wFmtOf fmt).width)

/-- First byte of the cell image of an array record, and one past its last. -/
def Image.cellSpan (m : Image) (a : ArrEntry) : Nat × Nat :=
  let o := (m.sect secWeights).off + a.cell
  (o, o + cellImageBytes a.fmt)

/-- The bytes of the cell image of an array record (R164). -/
def Image.cells (m : Image) (a : ArrEntry) : List Byte := (m.drop (m.cellSpan a).1).take (cellImageBytes a.fmt)

/-- Codes of a weight column of a cell image, and its 32 scales (R164). -/
def cellColumn (f : WFormat) (cells : List Byte) (j : Nat) : List Int × List Byte :=
  let w := f.width
  let p := j / 2 * (64 * parcelLines w)
  let b0 := 32 * (j % 2)
  ((List.range 32).flatMap (fun b => (unpackBlock w ((cells.drop (p + 4 * w * (b0 + b))).take (4 * w))).map f.decode),
   (cells.drop (p + 256 * w + b0)).take 32)

/-- R43: all scales of a column are one. -/
def cellsOk (f : WFormat) (cells : List Byte) : Bool :=
  (List.range 1024).all (fun j => ((cellColumn f cells j).2.eraseDups).length ≤ 1)

/-- The bytes of the seed of an array record (R165). -/
def Image.seed (m : Image) (a : ArrEntry) : List Byte := (m.drop ((m.sect secSeed).off + a.seed)).take (128 + 4 * a.ranges)

/-- ROLE and TARGET of the 64 spares of a seed, and its RANGE entries (R165). -/
def seedSpares (seed : List Byte) : List (Nat × Nat) :=
  tabulate 64 (fun i => (tblNum seed (2 * i) 2 % 4, tblNum seed (2 * i) 2 / 4 % 1024))

def seedRanges (seed : List Byte) : List EmapEntry :=
  tabulate ((seed.length - 128) / 4) (fun i => EmapEntry.ofWord (BitVec.ofNat 32 (tblNum seed (128 + 4 * i) 4)))

/-- What the loader holds of an array record, with its cell image; none until that has arrived. -/
def Image.record (m : Image) (ctx : Nat) (a : ArrEntry) (cells : Option (List Byte)) : ArrayRec :=
  let st := (m.sect secStats).off + a.stats
  let ck := (m.sect secCheck).off + a.check
  let f := wFmtOf a.fmt
  { context := ctx, varray := a.varray, matrix := a.matrix, rowblk := a.rowblk, colblk := a.colblk, rows := a.rows, cols := a.cols,
    format := f, gc := a.gc, rotLayer := a.layer
    scales := match cells with | some b => tabulate 1024 (fun j => (cellColumn f b j).2.headD 0#8) | none => []
    codes := match cells with | some b => tabulate 1024 (fun j => (cellColumn f b j).1) | none => []
    stats := tabulate 1024 (fun j => (BitVec.ofNat 32 (m.num (st + 8 * j) 4), BitVec.ofNat 32 (m.num (st + 8 * j + 4) 4)))
    rho := tabulate 1024 (fun r => (signed 16 (m.num (ck + 4 * r) 2), signed 16 (m.num (ck + 4 * r + 2) 2)))
    colSums := tabulate 1024 (fun j => signed 16 (m.num (ck + 4096 + 2 * j) 2)) }

/-- Steps of a gallery record, with virtual names (R166). -/
def Image.steps (m : Image) (g : GalRec) : List StepWord :=
  let o := (m.sect secFlights).off + g.off
  tabulate g.steps (fun i => BitVec.ofNat 128 (m.num (o + 16 * i) 16))

/-! ### Checks of the whole placement (R167) -/

def Image.matrixLayer (m : Image) (x : Nat) : Nat := m.num ((m.sect secDispatch).off + 32 * x) 1
def Image.matrixWide (m : Image) (x : Nat) : Bool := (m.num ((m.sect secDispatch).off + 32 * x + 1) 1).testBit 0
def Image.matrixWideOff (m : Image) (x : Nat) : Nat := m.num ((m.sect secDispatch).off + 32 * x + 8) 8

/-- Bytes of a wide copy (R161): columns on lines, then scales on a line. -/
def Image.wideBytes (m : Image) (x : Nat) : Nat :=
  let k := m.num ((m.sect secDispatch).off + 32 * x + 2) 2
  let n := m.num ((m.sect secDispatch).off + 32 * x + 4) 4
  n * (cdiv (32 * k) 64 * 64) + n * k

/-- Bytes of the smallest record of a section (R161 to R165): cell images, seeds and wide copies vary in length. -/
def minRecord (t : Nat) : Nat :=
  if t = secDispatch then 32 else if t = secPlacement then 64 else if t = secFlights then 16 else if t = secCheck then 6144
  else if t = secStats then 8192 else if t = secSeed then 128 else if t = secWeights then 294912 else 65

/-- Every offset and count lies inside its section. -/
def Image.spansOk (m : Image) : Bool :=
  let len := fun t => (m.sect t).len
  m.table.all (fun x => decide (minRecord x.type * x.count ≤ x.len)) && decide (32 * m.matrices ≤ len secDispatch) &&
  decide (m.arrEntries.length = (m.galRecs.map (fun g => popcount g.arrays)).foldl (· + ·) 0) &&
  (List.range m.matrices).all (fun x => !(m.matrixWide x) || (!m.noWide && decide (m.matrixWideOff x + m.wideBytes x ≤ len secWide))) &&
  m.galRecs.all (fun g => decide (g.vhall < 8) && decide (g.vgal < m.vgals g.vhall) && decide (g.off + 16 * g.steps ≤ len secFlights) &&
    (g.pool || decide (g.layer = 0xFFFF)) && decide ((m.arraysOf g).length = popcount g.arrays) &&
    (m.arraysOf g).all (fun a => g.arrays.testBit a.varray)) &&
  m.arrEntries.all (fun a => m.galRecs.any (fun g => g.owns a) && decide (a.varray < 32) && decide (a.matrix < m.matrices) &&
    decide (1 ≤ a.rows ∧ a.rows ≤ 1024) && decide (1 ≤ a.cols ∧ a.cols ≤ 1024) && decide (a.fmt ≤ 3) && decide (a.gc ≤ 9) &&
    decide (a.cell + cellImageBytes a.fmt ≤ len secWeights) && decide (a.stats + 8192 ≤ len secStats) &&
    decide (a.check + 6144 ≤ len secCheck) && decide (a.seed + 128 + 4 * a.ranges ≤ len secSeed))

/-- Virtual galleries a step names (R166). -/
def stepNames (w : StepWord) : List (Nat × Nat) :=
  let op := StepWord.op w
  if (op = opWake ∨ op = opArmRef) ∧ bit w 121 then [(fld w 120 118, fld w 117 109)]
  else if op = opChain then [(fld w 114 112, fld w 111 103)]
  else []

/-- Virtual arrays a step names. -/
def stepArrays (w : StepWord) : Nat :=
  if StepWord.op w = opEval then fld w 120 89 else if StepWord.op w = opLand then 2 ^ fld w 103 99 else 0

/-- R167: flights, array names, gallery names and seeds; R90 counts the CHAIN steps among all the flights of the context. -/
def Image.placementOk (m : Image) : Bool :=
  let gs := m.galRecs
  m.spansOk &&
  gs.all (fun g => stepsOk (m.steps g) && (m.steps g).all (fun w =>
    decide (stepArrays w &&& g.arrays = stepArrays w) && (stepNames w).all (fun n => gs.any (fun x => decide ((x.vhall, x.vgal) = n))))) &&
  chainsOk (gs.map (fun g => ((g.vhall, g.vgal), (scanGroups [] [] (m.steps g)).getD []))) &&
  m.arrEntries.all (fun a =>
    let sp := seedSpares (m.seed a)
    sp.all (fun x => decide (x.1 ≠ 1)) && sparesOk (sp.filter (fun x => decide (x.1 ≠ 0))) && rangesOk (seedRanges (m.seed a)))

end Sys2Proof.Machine
end

