-- ==== Sys2Proof/Machine/Ecc.lean ====
section
/-! DEFINITION. Errors, marks and retirement of memory (R341, R343 to R346), and the volumes of tier 2 (R339). The model's own choices:
log 36 memory tiers (DEDUCED, DESIGN CHOICE). -/

namespace Sys2Proof.Machine

/-- Memory of tier 2 in the codes of R319 and R344. -/
def memTier2 : Nat := 12

/-- The die that reports an error of a unit of a memory (R344). -/
def eccSource (mem unit : Nat) : Nat :=
  if mem < 8 then mem
  else if mem = 9 then unit
  else if mem = 10 then (if unit < 8 then 9 else 10)
  else 8

/-- The physical unit of a line: its stack, its channel, 0 for SRAM (R344). -/
def State.eccUnit (s : State) (a : Nat) : Nat :=
  match s.memOf a with
  | some 9 => (s.stackOf a).1
  | some 10 => (s.t1ChannelOf a).getD 0
  | _ => 0

/-- Capacity of a tier in GiB without the units given (R346). -/
def State.tierGib (s : State) (mem : Nat) (out : List Nat) : Nat :=
  if mem = 10 then (s.t1Channels.filter (fun c => !(out.contains (160 + c)))).length * (s.t1ChannelBytes / gib)
  else if mem = 9 then (s.hbmStacks.filter (fun c => !(out.contains (144 + c)))).length * 48
  else 0

/-- Raise MEMORY_CHANNEL_RETIRED (R344). -/
def State.raiseRetired (s : State) (mem unit cause : Nat) (pending : Bool) : State :=
  let out := s.retirePending ++ s.t1Retired.map (160 + ·)
  s.raise evMemoryChannelRetired (eccSource mem unit) none
    (mem + unit * 2 ^ 4 + b2n pending * 2 ^ 8 + cause * 2 ^ 9 + (s.tierGib mem out) * 2 ^ 16)

/-- R346: a tier-1 channel is retired at once. -/
def State.retireChannel (s : State) (c cause : Nat) : State :=
  if s.t1Retired.contains c || !(s.t1Channels.contains c) then s
  else ({ s with t1Retired := s.t1Retired ++ [c] }).raiseRetired 10 c cause false

/-- R346: a unit is retired at the next power-up. -/
def State.retireLater (s : State) (mem unit cause : Nat) : State :=
  let u := 16 * mem + unit
  if s.retirePending.contains u || (decide (mem = 10) && s.t1Retired.contains unit) then s
  else ({ s with retirePending := s.retirePending ++ [u] }).raiseRetired mem unit cause true

/-- Events of a unit since an instant. -/
def countSince (xs : List (Nat × Nat)) (u t : Nat) : Nat := (xs.filter (fun x => decide (x.1 = u ∧ t ≤ x.2))).length

def State.ueLimit (s : State) : Nat := max 1 (s.rfld 0x9000C 23 16)

/-- Count a marking toward retirement (R346): tiers 0 and 1 only. -/
def State.noteUe (s : State) (mem unit : Nat) : State :=
  if mem ≠ 9 ∧ mem ≠ 10 then s
  else
    let u := 16 * mem + unit
    let s := { s with ueTimes := (u, s.now) :: s.ueTimes.filter (fun x => decide (s.now < x.2 + sec 86400)) }
    if mem = 10 ∧ s.ueLimit ≤ countSince s.ueTimes u (s.now + 1 - sec 1) then s.retireChannel unit 2
    else if s.ueLimit ≤ countSince s.ueTimes u 0 then s.retireLater mem unit 2
    else s

/-- ECC_UNCORRECTED for one marking: counted, raised and tested (R344, R346). `line` is the line address in its memory. -/
def State.raiseUe (s : State) (mem unit kind line : Nat) (ctx : Option Nat) : State :=
  let s := s.bump (0x90104 + 8 * mem) 1
  (s.raise evEccUncorrected (eccSource mem unit) ctx (mem + unit * 2 ^ 4 + kind * 2 ^ 8 + (line % 2 ^ 40) * 2 ^ 24)).noteUe mem unit

/-- Mark a line of device memory and raise its event, unless it is marked already. -/
def State.markFound (s : State) (a kind : Nat) (ctx : Option Nat) : State :=
  match s.memOf a with
  | none => s
  | some m => if s.marked a then s
    else (s.markLine a).raiseUe m (s.eccUnit a) kind ((a - memBase m) / 64) ctx

/-- A corrected error: counted; ECC_CORRECTED at most once per unit and interval; the 24 h limit (R344, R346). -/
def State.corrected (s : State) (mem unit line : Nat) (ctx : Option Nat) : State :=
  let u := 16 * mem + unit
  let s := s.bump (0x90100 + 8 * mem) 1
  let n := min 0xFFFF (Tab.get 0 s.ceSince u + 1)
  let s := { s with ceTimes := (u, s.now) :: s.ceTimes.filter (fun x => decide (s.now < x.2 + sec 86400)) }
  let gap := ms (max 1 (s.rfld 0x9000C 9 0))
  let due := match Tab.find s.ceLast u with | some t => decide (t + gap ≤ s.now) | none => true
  let s := if due then
      ({ s with ceSince := Tab.set 0 s.ceSince u 0, ceLast := Tab.put s.ceLast u s.now }).raise evEccCorrected (eccSource mem unit) ctx
        (mem + unit * 2 ^ 4 + n * 2 ^ 8 + (line % 2 ^ 40) * 2 ^ 24)
    else { s with ceSince := Tab.set 0 s.ceSince u n }
  if (mem = 9 ∨ mem = 10) ∧ 1000 * s.rfld 0x9000C 31 24 < countSince s.ceTimes u 0 then s.retireLater mem unit 3 else s

/-! ### Tier 2 (R339, R340) -/

/-- Key of byte `b` of a volume. -/
def t2Key (vol b : Nat) : Nat := vol * 2 ^ 60 + b
def State.t2Byte (s : State) (vol b : Nat) : Byte := Tab.get 0#8 s.tier2 (t2Key vol b)
def State.t2Write (s : State) (vol b : Nat) (bs : List Byte) : State := { s with tier2 := putBytes s.tier2 (t2Key vol b) bs }

/-- Members of a volume: a MEMBERS value above 8 acts as 0 (R339, R360). -/
def State.t2Members (s : State) (vol : Nat) : Nat := let m := Tab.get 0 s.t2Vol vol
  if m ≤ 8 then m else 0

/-- Blocks that a volume's member holds: those of its namespace from its base LBA on (R339). -/
def State.t2MemberBlocks (s : State) (vol m : Nat) : Nat :=
  let w := fun i => Tab.get 0#32 s.t2Mem (32 * vol + 4 * m + i)
  Config.nsBlocks (fld (w 0) 2 0) (fld (w 0) 31 4) - ((w 1).toNat + (w 2).toNat * 2 ^ 32)

/-- Blocks that the members of all volumes hold together (R339). -/
def State.t2Blocks (s : State) : Nat :=
  ((List.range 8).map (fun vol => ((List.range (s.t2Members vol)).map (s.t2MemberBlocks vol)).sum)).sum

/-- Blocks that tier 2 may hold: 256 TB (R4, R339). -/
def t2Limit : Nat := 62500000000

/-- R4, R339: a member that would pass the limit is refused, and the registers keep their old values. -/
def State.t2Admit (old new : State) : State := if t2Limit < new.t2Blocks ∧ old.t2Blocks < new.t2Blocks then old else new

/-- Root port that holds a volume block (R339); 0 for a volume without members. -/
def State.t2Port (s : State) (vol lba : Nat) : Nat :=
  let m := s.t2Members vol
  if m = 0 then 0 else fld (Tab.get 0#32 s.t2Mem (32 * vol + 4 * (lba / 32 % m))) 2 0

/-- Has a volume a member on a retired drive (R346)? -/
def State.volFailed (s : State) (vol : Nat) : Bool :=
  (List.range (s.t2Members vol)).any (fun m => s.drivesRetired.contains (fld (Tab.get 0#32 s.t2Mem (32 * vol + 4 * m)) 2 0))

/-- Volume of the tier-2 KV region (R340). -/
def State.t2KvVol (s : State) : Nat := s.rfld 0x90214 2 0

end Sys2Proof.Machine
end

