-- ==== Sys2Proof/Machine/Command.lean ====
section
/-! DEFINITION. Commands of the host's submission rings: opcodes, reserved fields and the checks against the ring's binding (R288, R290).
The model's own choices: log 37 rings (DEDUCED, DESIGN CHOICE, PRESUMED). -/

namespace Sys2Proof.Machine

/-! ### Opcodes and fields (R290) -/

def cmdNop : Nat := 0x00
def cmdStreamOpen : Nat := 0x10
def cmdStreamContinue : Nat := 0x11
def cmdStreamCancel : Nat := 0x12
def cmdStreamClose : Nat := 0x13
def cmdStreamPark : Nat := 0x14
def cmdStreamResume : Nat := 0x15
def cmdStreamQuery : Nat := 0x16
def cmdStreamReadTokens : Nat := 0x17
def cmdStreamMirror : Nat := 0x18
def cmdProfileSet : Nat := 0x20
def cmdAtlasLoad : Nat := 0x21
def cmdContextUnload : Nat := 0x22
def cmdTokeniserLoad : Nat := 0x23
def cmdFallback : Nat := 0x24
def cmdSnapshot : Nat := 0x30
def cmdDmaStart : Nat := 0x31

/-- How a command names the context its ring's binding must cover (R288). -/
inductive Names where
  | nothing | context | stream | task
  deriving DecidableEq, Repr

/-- What R290 gives an opcode: the bit ranges of its operands, whether it is management only, and what it names. -/
structure CmdDef where
  opcode : Nat
  fields : List (Nat × Nat)
  mgmt : Bool
  names : Names
  deriving DecidableEq, Repr

/-- Bits of bytes `lo` to `hi`. -/
def byteBits (lo hi : Nat) : Nat × Nat := (8 * hi + 7, 8 * lo)

def cmdDefs : List CmdDef := [
  ⟨cmdNop, [], false, .nothing⟩,
  ⟨cmdStreamOpen, [byteBits 16 27, byteBits 32 55], false, .context⟩,
  ⟨cmdStreamContinue, [byteBits 16 17, byteBits 20 27, byteBits 40 47], false, .stream⟩,
  ⟨cmdStreamCancel, [byteBits 16 17], false, .stream⟩,
  ⟨cmdStreamClose, [byteBits 16 17], false, .stream⟩,
  ⟨cmdStreamPark, [byteBits 16 18, byteBits 20 23], false, .stream⟩,
  ⟨cmdStreamResume, [byteBits 16 17], false, .stream⟩,
  ⟨cmdStreamQuery, [byteBits 16 17, byteBits 40 47], false, .stream⟩,
  ⟨cmdStreamReadTokens, [byteBits 16 17, (144, 144), byteBits 20 27, byteBits 40 47], false, .stream⟩,
  ⟨cmdStreamMirror, [byteBits 16 18, (171, 160), byteBits 22 23], false, .stream⟩,
  ⟨cmdProfileSet, [byteBits 16 17], true, .context⟩,
  ⟨cmdAtlasLoad, [byteBits 16 18, byteBits 20 21, byteBits 24 27, byteBits 40 47], true, .context⟩,
  ⟨cmdContextUnload, [byteBits 16 17], true, .context⟩,
  ⟨cmdTokeniserLoad, [byteBits 16 16, byteBits 40 47], true, .context⟩,
  ⟨cmdFallback, [byteBits 16 21], true, .context⟩,
  ⟨cmdSnapshot, [byteBits 16 23, (192, 192)], true, .nothing⟩,
  ⟨cmdDmaStart, [byteBits 16 18, byteBits 24 31], false, .task⟩]

/-- Bits an entry may set: PHASE, OPCODE, TAG and the operands. -/
def CmdDef.mask (d : CmdDef) : Nat :=
  (((7, 0) :: (8, 8) :: byteBits 8 15 :: d.fields).map (fun (hi, lo) => 2 ^ (hi + 1) - 2 ^ lo)).foldl (· ||| ·) 0

def cmdDef (op : Nat) : Option CmdDef := cmdDefs.find? (fun d => decide (d.opcode = op))

/-- No reserved bit of the entry is set (R290). -/
def CmdDef.reservedZero (d : CmdDef) (e : SubEntry) : Bool := decide (e.bytes.toNat &&& d.mask = e.bytes.toNat)

/-! ### Streams and bindings -/

def State.stream (s : State) (n : Nat) : Stream := Tab.get Stream.reset s.streams n
def State.setStream (s : State) (n : Nat) (x : Stream) : State := { s with streams := Tab.set Stream.reset s.streams n x }
def State.modStream (s : State) (n : Nat) (f : Stream → Stream) : State := s.setStream n (f (s.stream n))

/-- Is the function the management function (R279)? -/
def State.isMgmt (s : State) (fn : Nat) : Bool := decide (fn = 2 * s.mgmtPort + 1)

/-- Does the ring's binding cover a context (R283, R288)? -/
def Ring.binds (r : Ring) (ctx : Nat) : Bool := r.all || decide (r.ctx = ctx)

/-- R288: is the context or stream that the command names within the ring's binding? A stream that is FREE has no context.
For DMA_START the value 64 needs the management function (R310). -/
def State.bindingOk (s : State) (e : SubEntry) (d : CmdDef) : Bool :=
  let r := s.ring e.sq
  match d.names with
  | .nothing => true
  | .context => r.binds (e.byte 16)
  | .stream => let x := s.stream (e.num 16 17)
    decide (x.state = .free) || r.binds x.context
  | .task => if e.byte 17 = 64 then s.isMgmt r.fn else decide (64 < e.byte 17) || r.binds (e.byte 17)

/-- R288 and R290 together: may the entry's command start? -/
def State.commandOk (s : State) (e : SubEntry) : Bool :=
  match cmdDef e.opcode with
  | none => false
  | some d => d.reservedZero e && (!d.mgmt || s.isMgmt (s.ring e.sq).fn) && s.bindingOk e d

/-- Stream that an entry's command names (R288). -/
def namesStream (e : SubEntry) : Option Nat :=
  match cmdDef e.opcode with
  | some d => if d.names = .stream then some (e.num 16 17) else none
  | none => none

/-- Has an entry's command taken effect on its stream, though it has not completed: a cancel, a mirror set-up, a park or a resume in
progress? -/
def State.begun (s : State) (e : SubEntry) : Bool :=
  match namesStream e with
  | none => false
  | some st =>
    let x := (s.stream st).work
    decide (x.cancel = some e) || decide (x.mirrorCmd = some e) ||
    (match Tab.find s.parks st with | some p => decide (p.cmd = some e) || decide (p.resume = some e) | none => false)

/-- R288: commands that name one stream take effect in the order the device accepted them, and each once: an accepted entry waits while
one accepted before it has still to take effect on the stream. -/
def State.mustWait (s : State) (e : SubEntry) : Bool :=
  s.accepted.contains e && (s.begun e || (match namesStream e with
    | none => false
    | some st => (s.accepted.takeWhile (fun f => decide (f ≠ e))).any (fun f => decide (namesStream f = some st) && !(s.begun f))))

/-- Run the command of an entry whose opcode is `op`: ACCESS_FAULT where the checks fail; an entry of another opcode is not
this command, and one behind another of its stream waits. -/
def State.command (s : State) (e : SubEntry) (op : Nat) (body : State → State) : State :=
  if e.opcode ≠ op ∨ s.mustWait e then s
  else if s.commandOk e then body s
  else s.complete e stAccessFault 0

/-! ### Contexts (R156) -/

def Context.reset : Context where
  live := false
  ident := 0
  matrices := 0
  layers := 0
  dispatch := 0
  parts := []
  scratch := []
  flightRegion := []
  wide := (0, 0)
  rotStore := []
  central := 0
  saturated := false
  nLive := 0
  liveSet := []

def State.ctx (s : State) (c : Nat) : Context := Tab.get Context.reset s.contexts c
def State.setCtx (s : State) (c : Nat) (x : Context) : State := { s with contexts := Tab.set Context.reset s.contexts c x }

/-- Streams of a context in a state. -/
def State.streamsIn (s : State) (c : Nat) (p : StreamState → Bool) : List Nat :=
  (s.streams.filter (fun x => decide (x.2.context = c) && p x.2.state)).map Prod.fst

end Sys2Proof.Machine
end

