-- ==== Sys2Proof/Machine/Real.lean ====
section
/-! DEFINITION. Correctly rounded exponential, logarithm, sine and cosine (R153, R223, R263): evaluated in fixed point with 240 fraction
bits, far beyond what any binary32 argument needs to decide its rounding. The model's own choices: log 45 correctly rounded functions
(DEDUCED). -/

namespace Sys2Proof.Machine

/-- Fraction bits of the fixed-point values below. -/
def fixBits : Nat := 240
def fixOne : Int := 2 ^ fixBits
/-- π in fixed point. -/
def fixPi : Int := 0x3243f6a8885a308d313198a2e03707344a4093822299f31d0082efa98ec4e
/-- ln 2 in fixed point. -/
def fixLn2 : Int := 0xb17217f7d1cf79abc9e3b39803f2f6af40f343267298b62d8a0d175b8bab
def fixMul (a b : Int) : Int := (a * b).fdiv fixOne
def fixDiv (a b : Int) : Int := (a * fixOne).fdiv b
/-- A rational in fixed point. -/
def toFix (r : Rat) : Int := (r.num * fixOne).fdiv r.den
def ofFix (x : Int) : Rat := (x : Rat) / (fixOne : Rat)

/-- Sum of `x^n / n!` from the term `t = x^n / n!` on. -/
def expSeries (x : Int) : Nat → Nat → Int → Int
  | 0, _, _ => 0
  | fuel + 1, n, t => t + expSeries x fuel (n + 1) ((fixMul t x).fdiv ((n : Int) + 1))

/-- `e^r`: reduced by multiples of ln 2, then the series. -/
def expRat (r : Rat) : Rat :=
  let k := ratRhe (r / ofFix fixLn2)
  let t := toFix r - k * fixLn2
  ofFix (expSeries t 60 0 fixOne) * pow2 k

/-- `2^r`. -/
def exp2Rat (r : Rat) : Rat := expRat (r * ofFix fixLn2)

/-- Exponential of a binary32, correctly rounded. -/
def F32.expo (x : F32) : F32 :=
  if F32.isNaN x then nan32
  else if F32.isInf x then (if F32.neg x then 0#32 else inf32)
  else if F32.isZero x then one32
  else
    let r := F32.toRat x
    if 200 < r then inf32 else if r < -200 then 0#32 else F32.ofRat (expRat r)

/-- Sum of `z^(2n+1) / (2n+1)` for the inverse hyperbolic tangent. -/
def atanhSeries (z2 : Int) : Nat → Nat → Int → Int
  | 0, _, _ => 0
  | fuel + 1, n, t => t.fdiv (2 * (n : Int) + 1) + atanhSeries z2 fuel (n + 1) (fixMul t z2)

/-- Natural logarithm of a positive rational: the argument is brought into [3/4, 3/2] by a power of two. -/
def lnRat (r : Rat) : Rat :=
  let e := binExp r.num.toNat r.den
  let m0 := r / pow2 e
  let (m, e) := if 3 / 2 < m0 then (m0 / 2, e + 1) else (m0, e)
  let z := toFix ((m - 1) / (m + 1))
  ofFix (2 * atanhSeries (fixMul z z) 130 0 z + e * fixLn2)

/-- Sum of `±x^n / n!` over every second n, from the term `t` of index `n`. -/
def trigSeries (x2 : Int) : Nat → Nat → Int → Int
  | 0, _, _ => 0
  | fuel + 1, n, t => t + trigSeries x2 fuel (n + 2) (-((fixMul t x2).fdiv (((n : Int) + 1) * (n + 2))))

/-- Sine and cosine of a rational, by its quarter turn and the series on what remains. -/
def sinCosRat (r : Rat) : Rat × Rat :=
  let q := ratRhe (r * 2 / ofFix fixPi)
  let t := toFix r - (q * fixPi).fdiv 2
  let t2 := fixMul t t
  let s := ofFix (trigSeries t2 40 1 t)
  let c := ofFix (trigSeries t2 40 0 fixOne)
  let j := q % 4
  if j = 0 then (s, c) else if j = 1 then (c, -s) else if j = 2 then (-s, -c) else (-c, s)

/-- Sine of a rational argument, rounded to binary32. -/
def F32.sinRat (r : Rat) : F32 := F32.ofRat (sinCosRat r).1
/-- Cosine of a rational argument, rounded to binary32. -/
def F32.cosRat (r : Rat) : F32 := F32.ofRat (sinCosRat r).2

end Sys2Proof.Machine
end

