-- ==== Sys2Proof/Machine/Wide.lean ====
section
/-! DEFINITION. The digital matrix engine and the dispatch table with fallback: "Wide path, digital matrix engine and sparse engine" (R132
to R147). The model's own choices: log 20 full queues (DEDUCED); log 28 digital matrix engine (DEDUCED, DESIGN CHOICE); log 29 fallback
(DEDUCED, DESIGN CHOICE); log 47 outbound operations of a flight that is cut off (DEDUCED, DESIGN CHOICE). -/

namespace Sys2Proof.Machine

/-! ### The job descriptor (R137) -/

structure DmeDesc where
  op : Nat
  aFmt : Nat
  wFmt : Nat
  flags : Nat
  m : Nat
  n : Nat
  kBlk : Nat
  group : Nat
  base : Nat
  tag : Nat
  reserved : Nat
  aAddr : Nat
  wAddr : Nat
  wScale : Nat
  carryAddr : Nat
  outAddr : Nat
  outFmt : Nat
  clipRank : Nat
  counter : Nat
  compAddr : Nat
  deriving DecidableEq, Repr

/-- Little-endian number in bytes `lo` to `hi` of a 64-byte descriptor. -/
def dnum (d : BitVec 512) (lo hi : Nat) : Nat := fld d (8 * hi + 7) (8 * lo)

def DmeDesc.of (d : BitVec 512) : DmeDesc where
  op := dnum d 0 0
  aFmt := dnum d 1 1
  wFmt := dnum d 2 2
  flags := dnum d 3 3
  m := dnum d 4 5
  n := dnum d 6 7
  kBlk := dnum d 8 9
  group := dnum d 10 10
  base := dnum d 11 11
  tag := dnum d 12 13
  reserved := dnum d 14 15
  aAddr := dnum d 16 23
  wAddr := dnum d 24 31
  wScale := dnum d 32 39
  carryAddr := dnum d 40 47
  outAddr := dnum d 48 55
  outFmt := dnum d 56 56
  clipRank := dnum d 57 57
  counter := dnum d 58 59
  compAddr := dnum d 60 63

def DmeDesc.carry (d : DmeDesc) : Bool := d.flags.testBit 0
def DmeDesc.tile (d : DmeDesc) : Nat := d.flags / 2 % 2
def DmeDesc.close (d : DmeDesc) : Bool := d.flags.testBit 2
def DmeDesc.half (d : DmeDesc) : Nat := d.flags / 8 % 2

def roundLine (n : Nat) : Nat := cdiv n 64 * 64

/-- Format of an operand: I8, BF16 or a narrow width with its decoding. -/
inductive OpFormat where
  | i8 | bf16
  | act (f : ActFormat)
  | weight (f : WFormat)
  deriving DecidableEq, Repr

def aFormat (c : Nat) : Option OpFormat :=
  [OpFormat.i8, .bf16, .act .a4, .act .a3, .act .a2][c]?
def wFormat (c : Nat) : Option OpFormat :=
  [OpFormat.i8, .bf16, .weight .w4, .weight .w3, .weight .w2, .weight .wt][c]?

/-- Element width of a narrow format; 8 for I8, 16 for BF16. -/
def OpFormat.width : OpFormat → Nat
  | .i8 => 8
  | .bf16 => 16
  | .act f => f.width
  | .weight f => f.width

def OpFormat.narrow : OpFormat → Bool
  | .act _ => true
  | .weight _ => true
  | _ => false

def OpFormat.decode : OpFormat → Nat → Int
  | .act f, c => f.decode c
  | .weight f, c => f.decode c
  | _, c => signed 8 c

/-- Bytes of the parcels of `kBlk` blocks (R36). -/
def parcelsBytes (w kBlk : Nat) : Nat := cdiv kBlk 64 * (64 * parcelLines w)

/-- Bytes of one activation row, before its stride (R137). -/
def rowBytes (f : OpFormat) (kBlk : Nat) (carry : Bool) : Nat :=
  match f with
  | .i8 => roundLine (32 * kBlk) + kBlk
  | .bf16 => 64 * kBlk
  | f => parcelsBytes f.width kBlk * (if carry then 2 else 1)

def rowStride (f : OpFormat) (kBlk : Nat) (carry : Bool) : Nat := roundLine (rowBytes f kBlk carry)

/-- Stride of a weight column: every column starts on a line (R137, R161). -/
def colStride (f : OpFormat) (kBlk : Nat) : Nat :=
  match f with
  | .i8 => roundLine (32 * kBlk)
  | .bf16 => 64 * kBlk
  | f => parcelsBytes f.width kBlk

/-- Stride of an output row (R135). -/
def outStride (fmt rank n : Nat) : Nat :=
  if fmt = 0 then roundLine (4 * n) else if fmt = 1 then roundLine (2 * n)
  else if fmt = 5 then roundLine (roundLine n + cdiv n 32)
  else cdiv n 2048 * (64 * parcelLines (outFmtOf fmt).width + (if rank = 0 then 0 else 64 * parcelLines 4))

/-- Distance of two parcels of an activation row (R137). -/
def aParcelStride (f : OpFormat) (carry : Bool) : Nat := if carry then 2 * 1088 else 64 * parcelLines f.width

/-- Extents the job reads and writes: address, bytes, is it written (R137). -/
def DmeDesc.extents (d : DmeDesc) (af wf : OpFormat) : List (Nat × Nat × Bool) :=
  let rs := rowStride af d.kBlk d.carry
  let np := cdiv d.kBlk 64
  let aLen := if af.narrow then (d.m - 1) * rs + (np - 1) * aParcelStride af d.carry + 64 * parcelLines af.width
    else (d.m - 1) * rs + rowBytes af d.kBlk false
  [(d.aAddr, aLen, false), (d.wAddr, (d.n - 1) * colStride wf d.kBlk + (if wf = .i8 then 32 * d.kBlk else colStride wf d.kBlk), false)] ++
  (if wf = .i8 then [(d.wScale, d.n * d.kBlk, false)] else []) ++
  (if d.carry then [(d.carryAddr, (d.m - 1) * rs + (np - 1) * (2 * 1088) + 1088, false)] else []) ++
  (if d.close then [(d.outAddr, d.m * outStride d.outFmt d.clipRank d.n, true)] else []) ++
  (if d.compAddr = 0 then [] else [(centralBase + 64 * d.compAddr, 16, true)])

/-- An access of `n` bytes by a task: mapped, and for a task other than 64 inside one of its windows (R137, R328). -/
def State.extentOk (s : State) (task : Nat) (x : Nat × Nat × Bool) : Bool := s.allowed task x.2.2 x.1 x.2.1

/-- R137: may the job run? -/
def State.dmeOk (s : State) (j : DmeJob) : Bool :=
  let d := DmeDesc.of j.desc
  match aFormat d.aFmt, wFormat d.wFmt with
  | some af, some wf =>
    decide (d.op = 1) && decide (d.flags < 16) && decide (1 ≤ d.m ∧ d.m ≤ 4096) && decide (1 ≤ d.n ∧ d.n ≤ 16384) &&
    decide (d.m * d.n ≤ 16384) && decide (1 ≤ d.kBlk) && decide (d.group < 16) &&
    decide (64 * d.base + d.m * d.n ≤ 16384) && decide (d.reserved = 0) && decide (d.outFmt ≤ 5) &&
    decide (d.clipRank ≤ 7) && decide (d.counter < 4096) && !(d.carry && !af.narrow) &&
    !(decide (d.half = 1) && decide (1024 < d.n)) &&
    [d.aAddr, d.wAddr, d.outAddr].all (fun a => decide (a % 64 = 0)) &&
    (wf != .i8 || decide (d.wScale % 64 = 0)) && (!d.carry || decide (d.carryAddr % 64 = 0)) &&
    (d.extents af wf).all (s.extentOk j.task) && decide (64 * d.compAddr < centralSize) &&
    (match Tab.find s.dme.groups d.group with
     | some g => decide (g.tile = d.tile ∧ g.base = d.base ∧ g.m = d.m ∧ g.n = d.n)
     | none => true)
  | _, _ => false

/-! ### Block terms (R133, R134) -/

/-- One block of an operand: integer codes with a scale, or BF16 values. -/
inductive Block where
  | codes (xs : List Int) (scale : Byte)
  | reals (xs : List F32)
  deriving DecidableEq, Repr

/-- Read block `b` of a narrow tensor whose parcels lie `stride` apart; marked lines give poison (R343). -/
def State.narrowBlock (s : State) (a stride : Nat) (f : OpFormat) (b : Nat) : Block :=
  let p := a + (b / 64) * stride
  let w := f.width
  let i := b % 64
  let bad := s.anyMarked (p + 4 * w * i) (4 * w) || s.marked (p + 256 * w + i)
  .codes ((unpackBlock w (s.bytes (p + 4 * w * i) (4 * w))).map f.decode) (if bad then 0xF8#8 else s.byte (p + 256 * w + i))

/-- Read block `b` of I8 bytes at `a` with scales at `sc`. -/
def State.i8Block (s : State) (a sc b : Nat) : Block :=
  let bad := s.anyMarked (a + 32 * b) 32 || s.marked (sc + b)
  .codes ((s.bytes (a + 32 * b) 32).map (fun x => signed 8 x.toNat)) (if bad then 0xF8#8 else s.byte (sc + b))

/-- BF16 element at an address; NaN on a marked line (R343). -/
def State.bf16At (s : State) (a : Nat) : F32 := if s.marked a then nan32 else bf16To32 (BitVec.ofNat 16 (s.readLE a 2))

/-- binary32 element at an address; NaN on a marked line (R343). -/
def State.f32At (s : State) (a : Nat) : F32 := if s.marked a then nan32 else BitVec.ofNat 32 (s.readLE a 4)

def State.bf16Block (s : State) (a b : Nat) : Block := .reals (tabulate 32 (fun i => s.bf16At (a + 64 * b + 2 * i)))

/-- Sum of exact products, rounded once. With an operand that is infinite or NaN, only the products of such operands decide: they are
infinities and NaN as R32 has them, and no finite product, however large, is rounded beside them. -/
def exactSum (xs : List (F32 × F32)) : F32 :=
  match xs.filter (fun (a, b) => !(F32.isFinite a && F32.isFinite b)) with
  | [] => F32.ofRat (xs.foldl (fun t (a, b) => t + F32.toRat a * F32.toRat b) 0)
  | ys => (ys.map (fun (a, b) => F32.mul a b)).foldl F32.add 0#32

/-- A block's values as binary32; code times scale is exact (R133). -/
def Block.values : Block → List F32
  | .codes xs sc => xs.map (fun c => dequant c sc)
  | .reals xs => xs

def Block.poison : Block → Bool
  | .codes _ sc => S8.isPoison sc
  | .reals _ => false

/-- R133: the block term. -/
def blockTerm (a w : Block) : F32 :=
  if a.poison || w.poison then nan32
  else match a, w with
    | .codes xs sa, .codes ys sw =>
      F32.mul (F32.ofInt (isum (xs.zipWith (· * ·) ys))) (F32.mul (S8.toF32 sa) (S8.toF32 sw))
    | a, w => exactSum (a.values.zip w.values)

/-- Block `b` of activation row `m`. -/
def State.actBlock (s : State) (d : DmeDesc) (f : OpFormat) (m b : Nat) : Block :=
  let row := d.aAddr + m * rowStride f d.kBlk d.carry
  match f with
  | .i8 => s.i8Block row (row + roundLine (32 * d.kBlk)) b
  | .bf16 => s.bf16Block row b
  | f => s.narrowBlock row (aParcelStride f d.carry) f b

/-- Block `b` of weight column `n`. -/
def State.weightBlock (s : State) (d : DmeDesc) (f : OpFormat) (n b : Nat) : Block :=
  let col := d.wAddr + n * colStride f d.kBlk
  match f with
  | .i8 => s.i8Block col (d.wScale + n * d.kBlk) b
  | .bf16 => s.bf16Block col b
  | f => s.narrowBlock col (64 * parcelLines f.width) f b

/-- The carry block of block `b` of row `m` (R137). -/
def State.carryBlockAt (s : State) (d : DmeDesc) (f : OpFormat) (m b : Nat) : Block :=
  s.narrowBlock (d.carryAddr + m * rowStride f d.kBlk d.carry) (2 * 1088) (.act .a4) b

/-- R134: add a term to an entry; the first is written. -/
def addTerm (acc : Option F32) (t : F32) : Option F32 :=
  match acc with
  | none => some t
  | some x => some (F32.add x t)

/-- R134: one output element, from the entry's present value. -/
def State.dmeElement (s : State) (d : DmeDesc) (af wf : OpFormat) (old : Option F32) (m n : Nat) : F32 :=
  ((List.range d.kBlk).foldl (fun acc b =>
    let w := s.weightBlock d wf n b
    let acc := addTerm acc (blockTerm (s.actBlock d af m b) w)
    if d.carry then addTerm acc (blockTerm (s.carryBlockAt d af m b) w) else acc) old).getD 0#32

/-! ### Time (R136, R372) -/

/-- A correction-die cycle in ticks (R372). -/
def State.coreCycle (s : State) : Nat := if s.coreSlow then 8 else 6

/-- Rate of the memory that holds the weights, in tenths of a byte per ns (R136). The table has no row for weights in a hall scratchpad; the
model takes the rate of the central store for them (log 28, DESIGN CHOICE). -/
def State.weightRate10 (s : State) (a : Nat) : Nat :=
  match s.memOf a with
  | some 9 => 10 * 2000 * (if a - tier0Base < s.t0Inter then s.hbmStacks.length else 1)
  | some 8 => 10 * 48000
  | some 10 => 512 * s.t1Channels.length
  | _ => 10 * 48000

/-- First-data latency of a memory read from the correction die (R449). -/
def coreReadLatency (m : Nat) : Nat := if m = 8 then ns 20 else if m < 8 then ns 60 else if m = 9 then ns 150 else ns 500

/-- Weight bytes of a job (R136): I8 with its scales. -/
def weightBytes (f : OpFormat) (n kBlk : Nat) : Nat :=
  match f with
  | .i8 => n * (32 * kBlk) + n * kBlk
  | f => n * colStride f kBlk

/-- Weight lines of a job. -/
def weightLines (f : OpFormat) (n kBlk : Nat) : Nat :=
  match f with
  | .i8 => n * cdiv (32 * kBlk) 64 + cdiv (n * kBlk) 64
  | f => n * (colStride f kBlk / 64)

/-- R136: time of a job up to its last term, in ticks. -/
def State.dmeTime (s : State) (d : DmeDesc) (af wf : OpFormat) : Nat :=
  let rate10 := min (s.weightRate10 d.wAddr) (10 * (if s.coreSlow then 12000 else 16000))
  let stream := cdiv (weightBytes wf d.n d.kBlk * 12 * 10) rate10
  let perNs := (if s.coreSlow then 450000 else 600000) / (if af = .bf16 ∨ wf = .bf16 then 2 else 1)
  let macs := cdiv (d.m * d.n * 32 * d.kBlk * 12) perNs
  ns 60 + coreReadLatency ((s.memOf d.wAddr).getD 9) + max stream macs

/-! ### Queues and jobs (R132, R135) -/

/-- Entries of each DME queue. -/
def dmeDepth : Nat := 256

/-- Jobs that wait for room in the management queue enter it in order (R132). -/
def Dme.refill (e : Dme) : Dme :=
  let n := dmeDepth - e.mgmtQueue.length
  { e with mgmtQueue := e.mgmtQueue ++ e.mgmtWait.take n, mgmtWait := e.mgmtWait.drop n }

/-- Post a job; a full queue leaves the poster waiting. -/
def State.postDme (s : State) (j : DmeJob) (mgmt : Bool) : State :=
  if mgmt then
    if s.dme.mgmtQueue.length < dmeDepth ∧ s.dme.mgmtWait = [] then { s with dme := { s.dme with mgmtQueue := s.dme.mgmtQueue ++ [j] } } else s
  else if s.dme.queue.length < dmeDepth then { s with dme := { s.dme with queue := s.dme.queue ++ [j] } } else s

/-- A management processor posts the jobs of a fallback one after another; those that find no room wait in their order (R132, R141). -/
def State.postFallback (s : State) (js : List DmeJob) : State :=
  { s with dme := { s.dme with mgmtWait := s.dme.mgmtWait ++ js }.refill }

/-- The completion record of a job that ends at `now`, after the writes named (R76, R137); a record the poster's task may not write is not
written (R328). -/
def State.dmeRecord (s : State) (d : DmeDesc) (task status lines : Nat) (after : List Nat) (now : Nat) : State :=
  let s := (s.bump 0xA4010 1)
  if d.compAddr = 0 ∨ centralSize ≤ 64 * d.compAddr ∨ s.allowed task true (centralBase + 64 * d.compAddr) 16 = false then s
  else
    let w := mkWrite s .dme (centralBase + 64 * d.compAddr) (completion16 d.tag status false false lines ({ s with now := now } : State).time)
      (now + coreWriteLatency 8) []
    s.send { w with after := after }

/-- The job the DME takes next (R132), with the queues without it. -/
def Dme.take (e : Dme) : Option (DmeJob × Dme) :=
  match e.mgmtQueue, e.queue with
  | j :: q, _ => some (j, { e with mgmtQueue := q }.refill)
  | [], j :: q => some (j, { e with queue := q })
  | [], [] => none

/-! ### Operations of one matrix (R143) -/

/-- Is `b` the operation whose rows, carry parcels and output rows follow those of `a`, all else alike, and do both fit one job? -/
def dmeFollows (a b : DmeJob) : Bool :=
  let x := DmeDesc.of a.desc
  let y := DmeDesc.of b.desc
  match aFormat x.aFmt with
  | none => false
  | some f =>
    let rows := x.m * rowStride f x.kBlk x.carry
    decide (a.task = b.task) && decide (y.aAddr = x.aAddr + rows) && (!x.carry || decide (y.carryAddr = x.carryAddr + rows)) &&
    decide (y.outAddr = x.outAddr + x.m * outStride x.outFmt x.clipRank x.n) && decide (x.m + y.m ≤ 4096) &&
    decide (64 * x.base + (x.m + y.m) * x.n ≤ 16384) &&
    decide ({ y with m := x.m, aAddr := x.aAddr, carryAddr := x.carryAddr, outAddr := x.outAddr } = x)

/-- Put collected operations into as few jobs as they fit (R143). -/
def dmeMerge : List DmeJob → List DmeJob
  | [] => []
  | j :: js => match dmeMerge js with
    | [] => [j]
    | k :: ks => if dmeFollows j k then { j with desc := setFld j.desc 47 32 ((DmeDesc.of j.desc).m + (DmeDesc.of k.desc).m) } :: ks
      else j :: k :: ks

/-- When a job starts, what was collected for its weights is posted (R143). -/
def State.postCollected (s : State) (j : DmeJob) : State :=
  let mine := s.dme.collected.filter (fun x => decide ((DmeDesc.of x.desc).wAddr = (DmeDesc.of j.desc).wAddr))
  let s := { s with dme := { s.dme with collected := s.dme.collected.filter (fun x => !(mine.contains x)) } }
  (dmeMerge mine).foldl (fun s x => s.postDme x false) s

/-- A job keeps an entry's present value while its group is open; the entries of a closed group are fresh (R134, R135). -/
def State.dmeOld (s : State) (d : DmeDesc) (i : Nat) : Option F32 :=
  if (Tab.find s.dme.groups d.group).isSome then some (Tab.get 0#32 s.dme.tiles (16384 * d.tile + 64 * d.base + i)) else none

def dmeStart (s : State) : State :=
  if s.dme.run.isSome then s
  else match s.dme.take with
    | none => s
    | some (j, e) =>
      let d := DmeDesc.of j.desc
      let s := { s with dme := e }.postCollected j
      if !(s.dmeOk j) then s.dmeRecord d j.task stAccessFault 0 [] s.now
      else match aFormat d.aFmt, wFormat d.wFmt with
        | some af, some wf =>
          let s := s.at (s.dme.drainEnd.getD d.tile 0)
          let vals := tabulate (d.m * d.n) (fun i => s.dmeElement d af wf (s.dmeOld d i) (i / d.n) (i % d.n))
          let lines := weightLines wf d.n d.kBlk
          { s with dme := { s.dme with run := some { job := j, vals := vals, lines := lines, endAt := s.now + s.dmeTime d af wf } } }
        | _, _ => s

/-- DME_JOB_START (R132 to R137): the next job is checked whole, then its terms are added. The rules do not say when, between its start and
its last term, a job reads each of its operands; the model reads them all at the start (log 28, DESIGN CHOICE). -/
def execDmeJobStart (s : State) : Host.Outcome State Fault Refusal := if s.newWork then next (dmeStart s) else next s

/-- Whole parcels of a narrow output row of more than 1,024 elements, each followed by its carry parcel (R135). -/
def rowParcels (a fmt rank : Nat) (vals : List F32) : List (Nat × List Byte) :=
  let w := (outFmtOf fmt).width
  let step := 64 * parcelLines w + (if rank = 0 then 0 else 64 * parcelLines 4)
  (chunks 2048 64 vals).zipIdx.flatMap (fun (xs, p) =>
    let lo := narrowBlocks (outFmtOf fmt) (xs.take 1024) rank
    let hi := narrowBlocks (outFmtOf fmt) (xs.drop 1024) rank
    let at0 := a + p * step
    let one := fun (sel : QBlock × QBlock → QBlock) (b w : Nat) =>
      halfParcel b w 0 (lo.map sel) ++ halfParcel b w 1 (hi.map sel)
    one Prod.fst at0 w ++ (if rank = 0 then [] else one Prod.snd (at0 + 64 * parcelLines w) 4))

/-- The parts a CLOSE writes, row by row (R135). -/
def dmeParts (d : DmeDesc) (vals : List F32) : List (Nat × List Byte) :=
  let rs := outStride d.outFmt d.clipRank d.n
  (chunks d.n 4096 vals).zipIdx.flatMap (fun (xs, m) =>
    let a := d.outAddr + m * rs
    if 2 ≤ d.outFmt ∧ d.outFmt ≠ 5 ∧ 1024 < d.n then rowParcels a d.outFmt d.clipRank xs
    else groupParts a d.outFmt d.half d.clipRank xs)

/-- Memory of the counter of an output address: its scratchpad, or the central store (R135, R329). -/
def State.counterMem (s : State) (a : Nat) : Nat :=
  match s.memOf a with
  | some m => if m ≤ 8 then m else 8
  | none => 8

def dmeEnd (s : State) : State :=
  match s.dme.run with
  | none => s
  | some r =>
    let d := DmeDesc.of r.job.desc
    let s := (s.at r.endAt).bump 0xA4014 r.lines
    let g : DmeGroup := (Tab.find s.dme.groups d.group).getD { tile := d.tile, base := d.base, m := d.m, n := d.n, closing := none }
    let e := { s.dme with
      run := none, groups := Tab.put s.dme.groups d.group g
      tiles := r.vals.zipIdx.foldl (fun t (v, i) => Tab.set 0#32 t (16384 * d.tile + 64 * d.base + i) v) s.dme.tiles }
    if !d.close then { s with dme := e }.dmeRecord d r.job.task stOk r.lines [] s.now
    else
      let drained := r.endAt + cdiv (d.m * d.n) 128 * s.coreCycle
      let mem := (s.memOf d.outAddr).getD 8
      let due := drained + (if 2 ≤ d.outFmt then ns 8 else 0) + coreWriteLatency mem
      let w : PendWrite := { mkWrite s .dme d.outAddr [] due [{ key := cntKey (s.counterMem d.outAddr) d.counter, amount := 1 }] with
        parts := dmeParts d r.vals }
      let id := s.nextId
      let s := { s with dme := { e with
        groups := Tab.put e.groups d.group { g with closing := some id }, drainEnd := e.drainEnd.set d.tile drained } }
      (s.send w).dmeRecord d r.job.task stOk r.lines [id] due

/-- The write of a CLOSE has arrived: its group closes (R135). -/
def State.closeDmeGroups (s : State) (id : Nat) : State :=
  { s with dme := { s.dme with groups := s.dme.groups.filter (fun p => decide (p.2.closing ≠ some id)) } }

/-- DME_JOB_END (R134 to R136): the last term is added to the group's entries; CLOSE drains, quantises and writes the group, which closes
when that write arrives. -/
def execDmeJobEnd (s : State) : Host.Outcome State Fault Refusal := next (dmeEnd s)

/-! ### The dispatch table (R138) -/

/-- Byte address of a matrix's dispatch entry. -/
def Context.entry (x : Context) (m : Nat) : Nat := x.dispatch + 16 * m

/-- Galleries that hold a part of a matrix. -/
def Context.galleries (x : Context) (m : Nat) : List Nat := (x.parts.filter (fun p => decide (p.1 = m))).map Prod.snd

/-- A dispatch entry's fields. -/
structure Dispatch where
  path : Bool
  causeGallery : Bool
  causeHost : Bool
  wide : Bool
  layer : Nat
  galleries : Nat
  wideAddr : Nat
  deriving DecidableEq, Repr

def Dispatch.of (w : Nat) : Dispatch where
  path := w.testBit 0
  causeGallery := w.testBit 1
  causeHost := w.testBit 2
  wide := w.testBit 3
  layer := w / 2 ^ 8 % 256
  galleries := w / 2 ^ 32 % 2 ^ 32
  wideAddr := w / 2 ^ 64

def Dispatch.bits (d : Dispatch) : Nat :=
  b2n d.path + 2 * b2n d.causeGallery + 4 * b2n d.causeHost + 8 * b2n d.wide + d.layer * 2 ^ 8 + d.galleries * 2 ^ 32 +
  d.wideAddr * 2 ^ 64

def State.dispatchOf (s : State) (x : Context) (m : Nat) : Dispatch := Dispatch.of (s.readLE (x.entry m) 16)

def State.setDispatch (s : State) (x : Context) (m : Nat) (d : Dispatch) : State := s.writeLE (x.entry m) 16 d.bits

/-- R138: PATH follows the causes; a matrix with no part on galleries keeps the wide path. -/
def Dispatch.withPath (d : Dispatch) (onGalleries : Bool) : Dispatch :=
  { d with path := d.causeGallery || d.causeHost || !onGalleries }

/-- Set or clear a cause on matrices of a context; answers the matrices whose PATH changed (R140, R141). -/
def State.setCauses (s : State) (c : Nat) (ms : List Nat) (f : Dispatch → Dispatch) : List Nat × State :=
  let x := s.ctx c
  ms.foldl (fun (ch, s) m =>
    let d := s.dispatchOf x m
    let d' := (f d).withPath !(x.galleries m).isEmpty
    (if d'.path = d.path then ch else ch ++ [m], if d' = d then s else s.setDispatch x m d')) ([], s)

/-! ### What the stream processors post (R138, R143, R261) -/

/-- The matrix whose wide copy an address lies in: context and matrix (R138, R139). -/
def State.wideMatrix (s : State) (a : Nat) : Option (Nat × Nat) :=
  (s.contexts.find? (fun (_, x) => x.live && decide (x.wide.1 ≤ a ∧ a < x.wide.1 + x.wide.2))).bind (fun (c, x) =>
    let ms := (List.range x.matrices).filter (fun m => let d := s.dispatchOf x m
      d.wide && decide (d.wideAddr ≤ a))
    (ms.foldl (fun best m => match best with
      | none => some m
      | some b => if (s.dispatchOf x b).wideAddr < (s.dispatchOf x m).wideAddr then some m else best) none).map (fun m => (c, m)))

/-- Does a queued job read this matrix's wide copy? -/
def State.matrixQueued (s : State) (cm : Nat × Nat) : Bool :=
  s.dme.queue.any (fun j => decide (s.wideMatrix (DmeDesc.of j.desc).wAddr = some cm))

/-- A stream processor's job: one on a wide copy is posted while its matrix has PATH = 1 (R138); while a job of the matrix is queued, and the
context is not saturated, it is collected until that job starts, up to 4,096 rows (R143). -/
def State.postStreamJob (s : State) (j : DmeJob) : State :=
  match s.wideMatrix (DmeDesc.of j.desc).wAddr with
  | none => s.postDme j false
  | some (c, m) =>
    if !(s.dispatchOf (s.ctx c) m).path then s
    else if (s.ctx c).saturated || !(s.matrixQueued (c, m)) then s.postDme j false
    else
      let rows := ((s.dme.collected.filter (fun x => decide (s.wideMatrix (DmeDesc.of x.desc).wAddr = some (c, m)))).map (fun x =>
        (DmeDesc.of x.desc).m)).foldl (· + ·) 0
      if rows + (DmeDesc.of j.desc).m ≤ 4096 then { s with dme := { s.dme with collected := s.dme.collected ++ [j] } } else s

/-- DME_JOB_POST (R132, R138, R143): the management queue takes a management processor's jobs; a poster that finds its queue full waits. -/
def execDmeJobPost (desc : BitVec 512) (task : Nat) (poster : Poster) (s : State) : Host.Outcome State Fault Refusal :=
  let j : DmeJob := { desc := desc, task := task }
  if !(s.mayPost poster) then next s
  else next (if poster = .sp then s.postStreamJob j else s.postDme j (decide (poster = .mp)))

/-- Steps of hall `h` from a step address up to the first HALT, at most `fuel`. -/
def State.stepsFrom (s : State) (h a : Nat) : Nat → List StepWord
  | 0 => []
  | fuel + 1 =>
    let w : StepWord := BitVec.ofNat 128 (s.readLE (hallBase h + 16 * a) 16)
    if StepWord.op w = opHalt then [w] else w :: s.stepsFrom h (a + 1) fuel

/-- Steps of the flight a launch names, none when it lies outside the gallery's own flights. -/
def State.flightWords (s : State) (k : Nat) (l : Launch) : List StepWord :=
  let g := s.gal k
  if g.flightInside l then s.stepsFrom (k / 512) l.flight (g.flightBase + g.flightSteps - l.flight) else []

/-- Array records that the EVAL steps of a flight name. -/
def State.flightRecs (s : State) (k : Nat) (l : Launch) : List ArrayRec :=
  let ws := (s.flightWords k l).filter (fun w => decide (StepWord.op w = opEval))
  ((List.range 32).filter (fun a => ws.any (fun w => (fld w 120 89).testBit a))).filterMap (fun a => (s.arr (arrKey k a)).record)

/-- Does a flight of the launch evaluate a matrix on the wide path (R138)? -/
def State.onWidePath (s : State) (k : Nat) (l : Launch) : Bool :=
  match s.owner k with
  | none => false
  | some c => (s.ctx c).live && (s.flightRecs k l).any (fun r => (s.dispatchOf (s.ctx c) r.matrix).path)

/-- Galleries of a context that hold a part of a matrix of a layer that gallery `k` has a part of. -/
def State.layerGalleries (s : State) (k : Nat) : List Nat :=
  match s.owner k with
  | none => [k]
  | some c =>
    let x := s.ctx c
    let layer := fun (m : Nat) => (s.dispatchOf x m).layer
    let mine := ((x.parts.filter (fun p => decide (p.2 = k))).map (fun p => layer p.1)).eraseDups
    (k :: (x.parts.filter (fun p => mine.contains (layer p.1))).map Prod.snd).eraseDups

/-- R261: is a prefill launch of `n` tokens posted now: at most SLICE tokens, no decode launch in the queue, none of the layer waiting? A
package whose role is PREFILL has no generation to put first. -/
def State.mayPrefill (s : State) (k n : Nat) : Bool :=
  decide (s.rfld 0xA6000 1 0 = 1) ||
  (decide (n ≤ max 1 (s.rfld 0xA6000 7 2)) && (s.gal k).queue.all (fun l => decide (l.work ≠ Work.decode)) &&
    (s.layerGalleries k).all (fun g => !(s.gal g).decodeWaits))

/-- FLIGHT_LAUNCH (R73, R75, R127, R138, R261, R382, R401): a stream processor posts no flight of a matrix on the wide path and no prefill
launch of more than SLICE tokens, and prefill waits for decode; a throttle and a hand-over leave the poster waiting. -/
def execFlightLaunch (h g : Nat) (entry : BitVec 256) (poster : Poster) (s : State) (work : Work := .other) : Host.Outcome State Fault Refusal :=
  let k := galKey h g
  let held := decide (poster = .sp) && (s.onWidePath k { bits := entry, poster := poster, work := work, arrived := s.now } ||
    (match work with | .prefill n => !(s.mayPrefill k n) | _ => false))
  if s.mayPost poster && !held then next (flightLaunch h g entry poster work s) else next s

/-! ### Saturation (R144 to R147) -/

/-- Matrices of a layer. -/
def State.layerMatrices (s : State) (c l : Nat) : List Nat :=
  (List.range (s.ctx c).matrices).filter (fun m => decide ((s.dispatchOf (s.ctx c) m).layer = l))

/-- R144: every layer with a matrix has one on the wide path. -/
def State.isSaturated (s : State) (c : Nat) : Bool :=
  let x := s.ctx c
  let ds := tabulate x.matrices (s.dispatchOf x)
  x.live && !ds.isEmpty && ds.all (fun d => ds.any (fun e => decide (e.layer = d.layer) && e.path))

/-- Layers, KV heads and tokens of a layer as a stream's directory gives them (R215). -/
def State.dirLayers (s : State) (d : Nat) : Nat := s.readLE d 2
def State.dirHkv (s : State) (d : Nat) : Nat := s.readLE (d + 2) 1
def State.dirTokens (s : State) (d l : Nat) : Nat := s.readLE (d + 64 + 4 * l) 4

/-- Pages of `n` tokens that one KV head attends in a decode step (R229). -/
def State.attendedPages (s : State) (c n : Nat) : Nat :=
  let pages := cdiv n 16
  if n ≤ 256 * s.rfld (0x98000 + 16 * c) 12 0 then pages
  else min pages (min (s.rfld (0x98000 + 16 * c) 15 13) 4 + min 2048 (s.rfld (0x98004 + 16 * c) 27 16) / 16 + 1 +
    min (s.rfld (0x98004 + 16 * c) 8 0) 256)

/-- V of a stream: key-value bytes its attention reads per token (R145, R229). -/
def State.kvBytes (s : State) (st : Nat) : Nat :=
  let x := Tab.get Stream.reset s.streams st
  if x.kvDir = 0 then 0
  else ((List.range (s.dirLayers x.kvDir)).map (fun l =>
    s.attendedPages x.context (s.dirTokens x.kvDir l) * s.dirHkv x.kvDir * 2304)).foldl (· + ·) 0

/-- Figures of the model the predictor uses, which the spec leaves to the firmware's knowledge of the image (R145). -/
def Context.figure (x : Context) (i : Nat) : Nat := Config.modelFigure x.ident i

/-- Routed-expert weights read per step: Σ over MoE layers of E(N) × W_exp (R145). -/
def Context.expertWeights (x : Context) (cap n : Nat) : Nat :=
  ((List.range (x.figure 2)).map (fun l =>
    let k := x.figure (4 * l + 8)
    let experts := x.figure (4 * l + 9)
    let wexp := x.figure (4 * l + 10)
    (if cap = 0 then min (k * n) experts else min (k * n) (max cap k)) * wexp)).foldl (· + ·) 0

/-- R145: predicted step time of `n` streams in µs, `v` the key-value bytes per token of the longest of them. -/
def State.stepTime (s : State) (x : Context) (v n : Nat) : Rat :=
  let cap := s.rfld 0xA4000 19 16
  let nsat := max 1 (s.contexts.filter (fun p => p.2.saturated)).length
  let b : Rat := (33 / 32 : Rat) * (x.figure 0 + x.expertWeights cap n : Nat) + (n * v : Nat)
  let mem := b * (nsat : Rat) / 16000000
  let mac : Rat := (n * x.figure 1 : Nat) / (if s.coreSlow then 450000000 else 600000000)
  (if mem < mac then mac else mem) + 16

/-- R145: the largest N ≥ 1 whose step time does not exceed STEP_TARGET; times rise with N, so the first failure ends the
search. `vs` are the V of the streams by admission time; `v` is the largest of the first `n`. `fuel` bounds it by the streams of the
table. -/
def State.searchLive (s : State) (x : Context) (target : Rat) (vs : List Nat) : Nat → Nat → Nat → Nat
  | 0, _, n => n
  | fuel + 1, v, n =>
    let v := max v (vs.getD n 0)
    if s.stepTime x v (n + 1) ≤ target then s.searchLive x target vs fuel v (n + 1) else n

/-- DECODE streams of a context by admission time (R144). -/
def State.oldestDecode (s : State) (c : Nat) : List Nat :=
  (sortBy (fun x y => decide (x.2.admitTime.toNat ≤ y.2.admitTime.toNat))
    (s.streams.filter (fun x => decide (x.2.context = c) && decide (x.2.state = .decode)))).map Prod.fst

def State.liveCount (s : State) (c : Nat) : Nat :=
  let vs := (s.oldestDecode c).map s.kvBytes
  s.searchLive (s.ctx c) (s.rfld 0xA4000 11 0 : Nat) vs 65535 (vs.headD 0) 1

/-- R145: set N_live and the live set before a step. -/
def State.planStep (s : State) (c : Nat) : State :=
  let n := s.liveCount c
  s.setCtx c { s.ctx c with nLive := n, liveSet := (s.oldestDecode c).take n }

/-- R147: raise FALLBACK_SATURATED when a context becomes saturated or stops being so. -/
def State.updateSaturation (s : State) (c : Nat) : State :=
  let x := s.ctx c
  let now := s.isSaturated c
  if now = x.saturated then s
  else
    let s := s.setCtx c { x with saturated := now }
    let s := if now then s.planStep c else s
    let n := (s.ctx c).nLive
    let s := s.raise evFallbackSaturated 8 (some c) (c + b2n now * 2 ^ 6 + (n % 65536) * 2 ^ 7)
    if now then s else s.setCtx c { s.ctx c with nLive := 0, liveSet := [] }

/-- R142: the event of a trigger or clearing, when some PATH changed; COUNT holds the low 16 bits of the count, which 65,536 matrices exceed
(log 29, DESIGN CHOICE). -/
def State.fallbackEvent (s : State) (code c scope cause : Nat) (changed : List Nat) : State :=
  match changed with
  | [] => s
  | m :: _ =>
    let layer := (s.dispatchOf (s.ctx c) m).layer
    (s.raise code 8 (some c) (c + scope * 2 ^ 6 + cause * 2 ^ 8 + layer * 2 ^ 10 + m * 2 ^ 18 +
      (changed.length % 2 ^ 16) * 2 ^ 34)).updateSaturation c

/-- A gallery whose parts keep their matrices on the wide path: suspect, retired, or not surveyed since it was bound
(R140, R420). -/
def State.outOfService (s : State) (g : Nat) : Bool :=
  (s.gal g).suspect || (s.gal g).retired || !(s.gal g).survey.initialDone

/-- A gallery trigger sets or clears CAUSE_GALLERY on every matrix with a part on the gallery (R140, R142). Clearing keeps
the bit on a matrix that still has a part on another gallery out of service. -/
def State.galleryCause (s : State) (k : Nat) (on : Bool) : State :=
  match s.owner k with
  | none => s
  | some c =>
    let x := s.ctx c
    if !x.live then s else
    let ms := ((x.parts.filter (fun p => decide (p.2 = k))).map Prod.fst).eraseDups
    let out := fun (m : Nat) => (x.galleries m).any (fun g => decide (g ≠ k) && s.outOfService g)
    let ms := ms.filter (fun m => (s.dispatchOf x m).wide && (on || !out m))
    let (ch, s) := s.setCauses c ms (fun d => { d with causeGallery := on })
    s.fallbackEvent (if on then evFallbackEnter else evFallbackExit) c 0 1 ch

/-! ### The FALLBACK command (R140) -/

/-- R140: matrices in the scope of a FALLBACK command; none when an operand lies outside the context. -/
def State.fallbackScope (s : State) (c scope layer matrix : Nat) : Option (List Nat) :=
  let x := s.ctx c
  if scope = 0 then (if matrix < x.matrices then some [matrix] else none)
  else if scope = 1 then (if layer < x.layers then some (s.layerMatrices c layer) else none)
  else if scope = 2 then some (List.range x.matrices)
  else none

def fallbackCommand (e : SubEntry) (s : State) : State :=
  let c := e.byte 16
  let scope := e.byte 17
  let dir := e.byte 18
  let x := s.ctx c
  if !x.live || decide (2 ≤ dir) then s.complete e stAccessFault 0
  else match s.fallbackScope c scope (e.byte 19) (e.num 20 21) with
    | none => s.complete e stAccessFault 0
    | some ms =>
      let held := ms.filter (fun m => !(x.galleries m).isEmpty)
      let mine := held.filter (fun m => (s.dispatchOf x m).wide)
      if held.isEmpty then s.complete e stOk 0
      else if mine.isEmpty then s.complete e stNoCapacity 0
      else
        let (ch, s) := s.setCauses c mine (fun d => { d with causeHost := decide (dir = 1) })
        (s.fallbackEvent (if dir = 1 then evFallbackEnter else evFallbackExit) c scope 2 ch).complete e stOk 0

/-- FALLBACK (R140, R142, R290). -/
def execFallback (e : SubEntry) (s : State) : Host.Outcome State Fault Refusal :=
  next (s.command e cmdFallback (fallbackCommand e))

/-! ### FALLBACK_TRIGGER and FALLBACK_STEP (R141, R145) -/

/-- An unfinished flight: its gallery, its launch and how many outbound operations of it have arrived. -/
structure Unfinished where
  key : Nat
  launch : Launch
  arrived : Nat
  deriving DecidableEq, Repr

/-- The running and queued flights of a context that no management processor launched, in order of gallery. -/
def State.unfinished (s : State) (c : Nat) : List Unfinished :=
  (s.galleries.filter (fun p => decide (s.owner p.1 = some c))).flatMap (fun (k, g) =>
    ((match g.flight with | some f => [{ key := k, launch := f.launch, arrived := f.nOut }] | none => []) ++
      g.queue.map (fun l => ({ key := k, launch := l, arrived := 0 } : Unfinished))).filter (fun u => decide (u.launch.poster ≠ .mp)))

/-- Output column blocks: matrix and column block of each array record. -/
def columnBlocks (rs : List ArrayRec) : List (Nat × Nat) := (rs.map (fun r => (r.matrix, r.colblk))).eraseDups

/-- Galleries into which the steps chain. -/
def chainTargets (ws : List StepWord) : List Nat :=
  ((ws.filter (fun w => decide (StepWord.op w = opChain))).map (fun w => galKey (fld w 114 112) (fld w 111 103))).eraseDups

/-- R141: the flights that contribute to an affected column block, where `blocks` are affected, the galleries `into` take their partials and
the galleries `from_` hold flights aborted already; a block to which an aborted flight contributes is affected as well. -/
def State.affected (s : State) (us : List Unfinished) : Nat → List (Nat × Nat) → List Nat → List Nat → List Unfinished
  | 0, _, _, _ => []
  | fuel + 1, blocks, into, from_ =>
    let hit := us.filter (fun u =>
      (columnBlocks (s.flightRecs u.key u.launch)).any blocks.contains || into.contains u.key ||
      (chainTargets (s.flightWords u.key u.launch)).any from_.contains)
    if hit.isEmpty then []
    else hit ++ s.affected (us.filter (fun u => !(hit.contains u))) fuel
      (blocks ++ hit.flatMap (fun u => columnBlocks (s.flightRecs u.key u.launch)))
      (into ++ hit.flatMap (fun u => chainTargets (s.flightWords u.key u.launch))) (from_ ++ hit.map Unfinished.key)

/-- The unfinished flights that a suspect gallery's operations make the management processor abort (R141). -/
def State.affectedBy (s : State) (k : Nat) : List Unfinished :=
  match s.owner k with
  | none => []
  | some c =>
    let us := s.unfinished c
    let g := s.gal k
    let own := tabulate g.flightSteps (fun i => (BitVec.ofNat 128 (s.readLE (hallBase (k / 512) + 16 * (g.flightBase + i)) 16) : StepWord))
    s.affected us us.length (columnBlocks ((List.range 32).filterMap (fun a => (s.arr (arrKey k a)).record))) (chainTargets own) [k]

/-- Abort one flight, running or queued (R77, R141); a queued one runs no step. -/
def State.abortFlight (s : State) (u : Unfinished) : State :=
  let g := s.gal u.key
  if g.flight.any (fun f => decide (f.launch = u.launch)) then (s.dropOutbound u.key).endFlight u.key stAborted
  else if g.queue.contains u.launch then
    (s.setGal u.key { g with queue := g.queue.erase u.launch }).flightRecord u.key u.launch stAborted false false 0
  else s

/-- The CLOSE steps of an aborted flight whose writes have not arrived: its outbound steps in order, less those that have arrived; in a
flight with loops, all of them. -/
def State.openCloses (s : State) (u : Unfinished) : List StepWord :=
  let ws := s.flightWords u.key u.launch
  let out := ws.filter (fun w => decide (StepWord.op w = opClose ∨ StepWord.op w = opChain ∨ StepWord.op w = opSignal))
  let left := if ws.any (fun w => decide (StepWord.op w = opLoop)) then out else out.drop u.arrived
  left.filter (fun w => decide (StepWord.op w = opClose))

/-- Does a job stand in for this CLOSE: its address, format, CLIP_RANK, parcel half and counter (R141)? -/
def standsFor (d : DmeDesc) (w : StepWord) : Bool :=
  let base := memBase (fld w 114 111) + 64 * fld w 110 86
  let stride := 64 * (signed 16 (fld w 64 49)).natAbs
  d.close && decide (d.outFmt = fld w 84 82) && decide (d.clipRank = fld w 81 79) && decide (d.half = fld w 85 85) &&
  decide (d.counter = fld w 78 67) && decide (if stride = 0 then d.outAddr = base else ((d.outAddr : Int) - base) % stride = 0)

/-- May the management processor post this job for the aborted flights of context `c`: I8 weights of the wide copy of one of their matrices, and
a CLOSE of theirs that it stands for (R140, R141)? -/
def State.replaces (s : State) (c : Nat) (us : List Unfinished) (j : BitVec 512) : Bool :=
  let d := DmeDesc.of j
  let ms := (us.flatMap (fun u => (s.flightRecs u.key u.launch).map ArrayRec.matrix)).eraseDups
  decide (d.wFmt = 0) && (match s.wideMatrix d.wAddr with | some (c', m) => decide (c' = c) && ms.contains m | none => false) &&
  us.any (fun u => (s.openCloses u).any (standsFor d))

/-- The instant of a gallery's latest suspect, the trigger of R140. -/
def Gallery.suspectSince (g : Gallery) : Nat := g.suspectTimes.foldl max 0

/-- FALLBACK_TRIGGER (R140 to R142): a suspect gallery's matrices change path; every unfinished flight that contributes to an affected column
block ends with ABORTED; the management processor's jobs for the column blocks whose CLOSE has not arrived join its queue. `jobs` are the
descriptors it builds from the operations' input parcels; one that stands for no such CLOSE is not posted (log 29). All this stands `delay`
ticks after the gallery became suspect, at most 2 µs (R141). -/
def execFallbackTrigger (h g delay : Nat) (jobs : List (BitVec 512)) (s : State) : Host.Outcome State Fault Refusal :=
  let k := galKey h g
  match s.owner k with
  | none => next s
  | some c =>
    if (s.gal k).suspect then
      let us := s.affectedBy k
      let js := jobs.filter (s.replaces c us)
      let s := us.foldl State.abortFlight ((s.at ((s.gal k).suspectSince + delay)).galleryCause k true)
      next (s.postFallback (js.map (fun j => { desc := j, task := 64 })))
    else next s

/-- FALLBACK_STEP (R144, R145): N_live and the live set of the next step of a saturated context. -/
def execFallbackStep (c : Nat) (s : State) : Host.Outcome State Fault Refusal :=
  if (s.ctx c).saturated then next (s.planStep c) else next s

end Sys2Proof.Machine
end

