-- ==== Sys2Proof/Machine/Atlas.lean ====
section
/-! DEFINITION. Loading, binding, programming, rotating and releasing an atlas (R156 to R158, R166, R168 to R181). The model's own
choices: log 22 survey (DEDUCED, DESIGN CHOICE); log 25 room in the error-map pool (DESIGN CHOICE); log 26 programming window (DEDUCED);
log 31 rotation (DEDUCED); log 32 atlas loads (DEDUCED, DESIGN CHOICE). -/

namespace Sys2Proof.Machine

/-! ### Space (R160, R169, R236) -/

/-- Lowest place of `n` units in `[lo, hi)` beside the ranges in use. -/
def firstFit (lo hi n : Nat) (used : List (Nat × Nat)) : Option Nat :=
  let fits := fun (b : Nat) => decide (lo ≤ b ∧ b + n ≤ hi) &&
    used.all (fun (u, k) => decide (k = 0) || decide (b + n ≤ u) || decide (u + k ≤ b))
  ((lo :: used.map (fun (u, k) => u + k)).filter fits).foldl (fun m b => some (match m with | none => b | some x => min x b)) none

/-- Lines of a hall scratchpad that contexts hold: SCRATCH lines and flight regions. -/
def State.hallUsed (s : State) (h : Nat) : List (Nat × Nat) :=
  s.contexts.flatMap (fun (_, x) => [x.scratch.getD h (0, 0), x.flightRegion.getD h (0, 0)])

/-- Lines of a hall scratchpad left to contexts (R108). -/
def State.hallLines (s : State) : Nat := (249 - s.emapMib) * mib / 64

/-- GiB of tier 0 the KV pool takes (R236). -/
def State.kvGib (s : State) : Nat := min (s.rfld 0x98408 8 0) (s.t0Inter / gib - 1)

/-- A place for `n` bytes of wide copies in the wide area (R236). -/
def State.widePlace (s : State) (n : Nat) : Option Nat :=
  firstFit (tier0Base + s.kvGib * gib) (tier0Base + s.t0Inter) n (s.contexts.map (fun p => p.2.wide))

def State.load (s : State) (c : Nat) : Option Load := Tab.find s.loads c
def State.setLoad (s : State) (c : Nat) (l : Load) : State := { s with loads := Tab.put s.loads c l }

/-- Does the context keep wide copies (R158)? -/
def State.keepsWide (s : State) (c : Nat) (m : Image) : Bool := !m.noWide && !(bit (s.reg (0xA5100 + 4 * c)) 1)

/-- Galleries of a hall with no owner, not suspect, not retired (R168). -/
def State.freeGalleries (s : State) (h : Nat) : List Nat :=
  (tabulate 512 (fun g => galKey h g)).filter (fun k => (s.owner k).isNone && !(s.gal k).suspect && !(s.gal k).retired)

/-- The halls whose local region is the one of hall `h`: one, unless a stack is left out (R334). -/
def State.localHalls (s : State) (h : Nat) : List Nat := (List.range 8).filter (fun x => decide (s.localBase x = s.localBase h))

/-- First byte of the 1 GiB staging ring of a hall: the rings of the halls that share a local region come first in it (R169, R334). -/
def State.stageBase (s : State) (h : Nat) : Nat :=
  s.localBase h + gib * ((s.localHalls h).filter (fun x => decide (x < h))).length

/-- The bytes of a hall's local region that rotation stores may take: all but the staging rings (R236). -/
def State.storeSpan (s : State) (h : Nat) : Nat × Nat :=
  (s.localBase h + gib * (s.localHalls h).length, s.localBase h + s.rfld 0x90000 4 0 * gib)

def State.storesUsed (s : State) : List (Nat × Nat) := s.contexts.flatMap (fun p => p.2.rotStore)

/-- Bytes left to rotation stores in all local regions together. -/
def State.storeRoom (s : State) : Nat :=
  let regions := (List.range 8).filter (fun h => decide ((s.localHalls h).head? = some h))
  (regions.map (fun h => (s.storeSpan h).2 - (s.storeSpan h).1)).foldl (· + ·) 0 - (s.storesUsed.map Prod.snd).foldl (· + ·) 0

/-- R169 step 1: capacity known from the header and the section table. Of the rotation stores the header gives the total only, TIER0_BYTES
less the wide copies; each hall's is tested once PLACEMENT is in, before anything changes (log 32, DEDUCED). -/
def State.headRoom (s : State) (c : Nat) (m : Image) : Bool :=
  let quota := s.rfld (0xA5100 + 4 * c) 15 4
  let want := (List.range 8).map m.vgals
  (decide (quota = 0) || decide (want.foldl (· + ·) 0 ≤ quota)) &&
  (List.range 8).all (fun h => decide (m.vgals h ≤ (s.freeGalleries h).length) &&
    (firstFit 0 s.hallLines (m.scratch h) (s.hallUsed h)).isSome) &&
  (!(s.keepsWide c m) || (s.widePlace (m.sect secWide).len).isSome) &&
  decide ((if m.rotation then m.tier0Bytes - (m.sect secWide).len else 0) ≤ s.storeRoom)

/-! ### The rotation store (R181): of each pool gallery record of a hall, in record order, its steps, then the cell image and the seed of
each of its arrays -/

def Image.poolRecs (m : Image) (h : Nat) : List GalRec := m.galRecs.filter (fun g => g.pool && decide (g.vhall = h))

def ArrEntry.storeBytes (a : ArrEntry) : Nat := cellImageBytes a.fmt + 128 + 4 * a.ranges

def Image.galStore (m : Image) (g : GalRec) : Nat := 16 * g.steps + ((m.arraysOf g).map ArrEntry.storeBytes).foldl (· + ·) 0

/-- Bytes of the rotation store of a hall. -/
def Image.rotBytes (m : Image) (h : Nat) : Nat := ((m.poolRecs h).map m.galStore).foldl (· + ·) 0

/-- Place of a record's steps in its hall's store, and of an array's cell image. -/
def Image.storeOf (m : Image) (g : GalRec) : Nat :=
  (((m.poolRecs g.vhall).takeWhile (fun x => x != g)).map m.galStore).foldl (· + ·) 0
def Image.storeArr (m : Image) (g : GalRec) (a : ArrEntry) : Nat :=
  m.storeOf g + 16 * g.steps + (((m.arraysOf g).takeWhile (fun x => x != a)).map ArrEntry.storeBytes).foldl (· + ·) 0

/-- A place for the rotation store of every hall; none where a hall's local region has no room (R236). -/
def State.placeStores (s : State) (m : Image) : Option (List (Nat × Nat)) :=
  (List.range 8).foldl (fun acc h => acc.bind (fun rs =>
    let (lo, hi) := s.storeSpan h
    let n := m.rotBytes h
    if n = 0 then some (rs ++ [(0, 0)])
    else (firstFit lo hi n (rs ++ s.storesUsed)).map (fun b => rs ++ [(b, n)]))) (some [])

def Context.storeBase (x : Context) (h : Nat) : Nat := (x.rotStore.getD h (0, 0)).1

/-- Write the steps and seeds of every rotating layer to the rotation store (R181); cell images follow as they arrive. -/
def State.fillStore (s : State) (c : Nat) (m : Image) : State :=
  let x := s.ctx c
  (m.galRecs.filter GalRec.pool).foldl (fun s g =>
    let b := x.storeBase g.vhall
    let s := s.writeBytes (b + m.storeOf g) ((m.steps g).flatMap (fun w => natLE 16 w.toNat))
    (m.arraysOf g).foldl (fun s a => s.writeBytes (b + m.storeArr g a + cellImageBytes a.fmt) (m.seed a)) s) s

/-- The steps of a gallery record, the seed and the cell image of an array record: from the rotation store for a pool gallery, else as the
image brought them. -/
def State.stepsOf (s : State) (c : Nat) (m : Image) (g : GalRec) : List StepWord :=
  if g.pool then tabulate g.steps (fun i => BitVec.ofNat 128 (s.readLE ((s.ctx c).storeBase g.vhall + m.storeOf g + 16 * i) 16)) else m.steps g
def State.seedOf (s : State) (c : Nat) (m : Image) (g : GalRec) (a : ArrEntry) : List Byte :=
  if g.pool then s.bytes ((s.ctx c).storeBase g.vhall + m.storeArr g a + cellImageBytes a.fmt) (128 + 4 * a.ranges) else m.seed a
def State.cellsOf (s : State) (c : Nat) (m : Image) (g : GalRec) (a : ArrEntry) : List Byte :=
  if g.pool then s.bytes ((s.ctx c).storeBase g.vhall + m.storeArr g a) (cellImageBytes a.fmt) else m.cells a

/-! ### Binding (R168) -/

/-- R168: is an array fit for a virtual array with these spares? -/
def State.arrayFit (s : State) (i : Nat) (spares : List (Nat × Nat)) : Bool :=
  let w := s.wear i
  let left := fun (g : Nat) => ((List.range 4).filter (fun x => decide ((spares.getD (4 * g + x) (0, 0)).1 = 0))).length
  decide (wearState w ≠ 2) &&
  (List.range 16).all (fun g => decide (((deadCols w).filter (fun c => decide (groupOf c = g))).length ≤ left g))

/-- R168: which of two arrays a virtual array takes first. -/
def State.wearBefore (s : State) (i j : Nat) : Bool :=
  let key := fun (x : Nat) => (b2n (decide (wearState (s.wear x) ≠ 0)), wearRows (s.wear x), x)
  let (a1, b1, c1) := key i
  let (a2, b2, c2) := key j
  decide (a1 < a2) || (decide (a1 = a2) && (decide (b1 < b2) || (decide (b1 = b2) && decide (c1 ≤ c2))))

/-- R168: an array of gallery `k` for each virtual array. -/
def State.fitArrays (s : State) (k : Nat) (vs : List (Nat × List (Nat × Nat))) : Option (List (Nat × Nat)) :=
  vs.foldl (fun acc (v, sp) => acc.bind (fun perm =>
    let free := (List.range 32).filter (fun a => !(perm.any (fun p => decide (p.2 = a))) && s.arrayFit (arrKey k a) sp)
    match sortBy (fun a b => s.wearBefore (arrKey k a) (arrKey k b)) free with
    | [] => none
    | a :: _ => some (perm ++ [(v, a)]))) (some [])

def State.worstWear (s : State) (k : Nat) (perm : List (Nat × Nat)) : Nat :=
  perm.foldl (fun m p => max m (wearRows (s.wear (arrKey k p.2)))) 0

/-- R168: the best of the free galleries. -/
def State.bestGallery (s : State) (free : List Nat) (vs : List (Nat × List (Nat × Nat))) : Option (Nat × List (Nat × Nat)) :=
  free.foldl (fun best k => match s.fitArrays k vs with
    | none => best
    | some perm => match best with
      | some (k0, p0) => if s.worstWear k perm < s.worstWear k0 p0 then some (k, perm) else best
      | none => some (k, perm)) none

/-- Virtual arrays of a gallery record with their spares. -/
def Image.wants (m : Image) (g : GalRec) : List (Nat × List (Nat × Nat)) :=
  (m.arraysOf g).map (fun a => (a.varray, seedSpares (m.seed a)))

/-- Records to program at a load: of a pool gallery, its lowest layer (R181). -/
def Image.firstRecs (m : Image) : List GalRec :=
  m.galRecs.filter (fun g => m.galRecs.all (fun x => decide ((x.vhall, x.vgal) ≠ (g.vhall, g.vgal)) || decide (g.layer ≤ x.layer)))

/-- R168: bind every virtual gallery; none when one does not fit. -/
def State.bindAll (s : State) (m : Image) : Option (List Bound) :=
  (List.range 8).foldl (fun acc h =>
    let vgs := sortBy (fun x y =>
      decide (popcount y.arrays < popcount x.arrays) || (decide (popcount x.arrays = popcount y.arrays) && decide (x.vgal ≤ y.vgal))) (m.firstRecs.filter (fun g => decide (g.vhall = h)))
    vgs.foldl (fun acc g => acc.bind (fun bs =>
      let free := (s.freeGalleries h).filter (fun k => !(bs.any (fun b => decide (b.key = k))))
      (s.bestGallery free (m.wants g)).map (fun (k, perm) =>
        bs ++ [{ vhall := h, vgal := g.vgal, layer := g.layer, key := k, perm := perm, ready := false }]))) acc) (some [])

/-! ### Flights (R166) -/

/-- Where a step's names lead: bound galleries, SCRATCH regions of the halls, the region of the central store. -/
structure Names8 where
  bound : List Bound
  scratch : List (Nat × Nat)
  central : Nat
  /-- BUDGET code of the context's profile (R275) -/
  budget : Nat
  deriving DecidableEq, Repr

def Names8.gal (n : Names8) (h g : Nat) : Nat :=
  ((n.bound.find? (fun b => decide (b.vhall = h ∧ b.vgal = g))).map (fun b => b.key % 512)).getD g

def permMask (perm : List (Nat × Nat)) (mask : Nat) : Nat :=
  perm.foldl (fun m (v, p) => if mask.testBit v then m + 2 ^ p else m) 0

def permArray (perm : List (Nat × Nat)) (v : Nat) : Nat :=
  ((perm.find? (fun x => decide (x.1 = v))).map Prod.snd).getD v

/-- R166: translate one step of a gallery of hall `h` whose arrays are placed by `perm`; an EVAL takes the budget of the
context's profile (R275). -/
def translate (n : Names8) (h : Nat) (perm : List (Nat × Nat)) (w : StepWord) : StepWord :=
  let op := StepWord.op w
  let base := fun (x : Nat) => if x = 8 then n.central else (n.scratch.getD x (0, 0)).1
  let add := fun (hi lo x : Nat) => setFld w hi lo (fld w hi lo + base x)
  if op = opWake ∨ op = opArmRef then
    (if bit w 121 then setFld w 117 109 (n.gal (fld w 120 118) (fld w 117 109)) else w)
  else if op = opStage then add 116 94 h
  else if op = opCarry then add 119 97 h
  else if op = opClose then add 110 86 (fld w 114 111)
  else if op = opEval then setFld (setFld w 120 89 (permMask perm (fld w 120 89))) 88 87 n.budget
  else if op = opLand then setFld w 103 99 (permArray perm (fld w 103 99))
  else if op = opChain then setFld w 111 103 (n.gal (fld w 114 112) (fld w 111 103))
  else w

/-- Steps placed before gallery record `g` in its hall's flight region. -/
def Image.stepsBefore (m : Image) (g : GalRec) : Nat :=
  let hs := m.galRecs.filter (fun x => decide (x.vhall = g.vhall))
  ((hs.takeWhile (fun x => x != g)).map GalRec.steps).foldl (· + ·) 0

def Image.hallSteps (m : Image) (h : Nat) : Nat :=
  ((m.galRecs.filter (fun x => decide (x.vhall = h))).map GalRec.steps).foldl (· + ·) 0

/-- First step address of a gallery record's flights. -/
def Context.flightAt (x : Context) (m : Image) (g : GalRec) : Nat := 4 * (x.flightRegion.getD g.vhall (0, 0)).1 + m.stepsBefore g

/-- The gallery record a binding holds. -/
def Image.recOf (m : Image) (b : Bound) : Option GalRec :=
  m.galRecs.find? (fun g => decide (g.vhall = b.vhall ∧ g.vgal = b.vgal ∧ g.layer = b.layer))

/-- Is a rotating layer resident in every gallery it uses (R181)? -/
def layerResident (bs : List Bound) (m : Image) (l : Nat) : Bool :=
  decide (l = 0xFFFF) ||
  m.galRecs.all (fun g => decide (g.layer ≠ l) || bs.any (fun b => decide (b.vhall = g.vhall ∧ b.vgal = g.vgal ∧ b.layer = l) && b.ready))

/-- Tell each gallery of a live context where its own flights lie; before step 6 of R169 it has none, so that no launch runs. -/
def State.placeFlights (s : State) (c : Nat) (m : Image) (bs : List Bound) : State :=
  let x := s.ctx c
  bs.foldl (fun s b =>
    match m.recOf b with
    | none => s
    | some g =>
      let mine := m.galRecs.filter (fun r => decide (r.vhall = b.vhall ∧ r.vgal = b.vgal))
      let here := layerResident bs m b.layer
      let others := mine.filter (fun r => !here || decide (r.layer ≠ b.layer))
      s.modGal b.key (fun gl => { gl with
        flightBase := x.flightAt m g, flightSteps := if x.live && here then g.steps else 0,
        otherFlights := if x.live && g.pool then others.map (fun r => (x.flightAt m r, r.steps)) else [] })) s

/-- Write every flight of the context that is resident, translated. -/
def State.writeFlights (s : State) (c : Nat) (m : Image) (bs : List Bound) : State :=
  let x := s.ctx c
  let n : Names8 := { bound := bs, scratch := x.scratch, central := x.central, budget := profileBudget (s.rfld (0xA6100 + 4 * c) 1 0) }
  let s := bs.foldl (fun s b =>
    match m.recOf b with
    | none => s
    | some g => s.writeBytes (hallBase b.vhall + 16 * x.flightAt m g)
        ((s.stepsOf c m g).flatMap (fun w => natLE 16 (translate n b.vhall b.perm w).toNat))) s
  s.placeFlights c m bs

/-! ### Galleries of a load -/

/-- Zero a range of memory: its bytes and its marks; as every write does, it takes its lines from their L1 holders (R298). -/
def State.zeroBytes (s : State) (a n : Nat) : State :=
  { s with mem := s.mem.filter (fun p => !(decide (a ≤ p.1 ∧ p.1 < a + n)))
           marks := s.marks.filter (fun p => !(decide (a ≤ 64 * p.1 ∧ 64 * p.1 + 64 ≤ a + n)))
           dir := s.dir.filter (fun p => !(decide (a / 64 ≤ p.1 ∧ 64 * p.1 < a + n))) }

/-- The arrays of a gallery lose what a load gave them; wear stays. -/
def State.clearArrays (s : State) (k : Nat) : State :=
  (List.range 32).foldl (fun s a =>
    let i := arrKey k a
    let s := { s with progActive := s.progActive.erase i, progWait := s.progWait.erase i }
    s.modArr i (fun r => { ArrayState.reset with wear := r.wear, heldUntil := r.heldUntil, lastProgrammed := r.lastProgrammed })) s

/-- The arrays of a gallery leave their layer (R181): their records and jobs go; what the survey holds of them stays, since a rotation
runs no initial survey that would take the baselines of R203 anew. -/
def State.leaveLayer (s : State) (k : Nat) : State :=
  (List.range 32).foldl (fun s a =>
    let i := arrKey k a
    let s := { s with progActive := s.progActive.erase i, progWait := s.progWait.erase i }
    s.modArr i (fun r => { r with record := none, job := none, due := false })) s

/-- Release a gallery (R180): owner, pool, flights. -/
def State.releaseGallery (s : State) (k : Nat) : State :=
  let s := (s.setReg (galReg k 0xC0) 0#32).zeroBytes (s.poolBase k) (4 * s.poolWords)
  let s := ((s.clearArrays k).modGal k (fun g => { g with
    flightBase := 0, flightSteps := 0, otherFlights := [],
    survey := { g.survey with initialDone := false, offsBefore := [] } })).grant grantFuel
  s.vprogIdle s.now

/-- Give every known dead column of an array the lowest free spare of its converter group (R168, R173). -/
def repairSpares (dead : List Nat) (sp : List (Nat × Nat)) : List (Nat × Nat) :=
  dead.foldl (fun sp c =>
    match (List.range 4).find? (fun x => decide ((sp.getD (4 * groupOf c + x) (0, 0)).1 = 0)) with
    | some x => sp.set (4 * groupOf c + x) (1, c)
    | none => sp) sp

/-- Install the record a binding holds: owner, pool, CONV_FS, spares, RANGE entries (R169 steps 2 and 3). The second answer
says that a pool is full. -/
def State.install (s : State) (c : Nat) (m : Image) (b : Bound) (fresh : Bool) : State × Bool :=
  match m.recOf b with
  | none => (s, false)
  | some g =>
    let k := b.key
    let s := (s.leaveQuiet (k / 512)).setReg (galReg k 0xC0) (BitVec.ofNat 32 (c + 64 + b2n g.pool * 128 + b.vgal * 256))
    let s := (s.zeroBytes (s.poolBase k) (4 * s.poolWords)).setReg (galReg k 0x40) (BitVec.ofNat 32 g.convFs &&& 0x77777#32)
    let s := if fresh then (s.clearArrays k).modGal k (fun gl => { gl with survey := { gl.survey with initialDone := false } }) else s.leaveLayer k
    let s := (s.modGal k (fun gl => { gl with progIters := 0, progRows := 0 })).applyProfile k (s.rfld (0xA6100 + 4 * c) 1 0)
    (m.arraysOf g).foldl (fun (s, full) a =>
      let p := permArray b.perm a.varray
      let i := arrKey k p
      let seed := s.seedOf c m g a
      let s := s.modArr i (fun r => { r with record := some (m.record c a none) })
      let s := s.writeSpares k p (repairSpares (deadCols (s.wear i)) (seedSpares seed))
      match s.writeEmap k p (seedRanges seed) with
      | some s => (s, full)
      | none => (s, true)) (s, false)

/-- Parts of matrices the bindings hold. -/
def Image.parts (m : Image) (bs : List Bound) : List (Nat × Nat) :=
  bs.flatMap (fun b => (m.galRecs.filter (fun g => decide (g.vhall = b.vhall ∧ g.vgal = b.vgal))).flatMap (fun g =>
    ((m.arraysOf g).map (fun a => (a.matrix, b.key))))) |>.eraseDups

/-- Start programming an array from its cell image. -/
def State.startArray (s : State) (c : Nat) (m : Image) (b : Bound) (a : ArrEntry) (mode : Nat) : State :=
  let i := arrKey b.key (permArray b.perm a.varray)
  let cells := match m.recOf b with | some g => s.cellsOf c m g a | none => m.cells a
  let s := s.modArr i (fun r => { r with record := some (m.record c a (some cells)) })
  let s := { s with progActive := s.progActive.erase i, progWait := s.progWait.erase i }
  s.startJob i mode []

/-! ### Task windows of a context (R328) -/

/-- Set one window of a task; `none` clears it. -/
def State.setWindow (s : State) (t w : Nat) (r : Option (Nat × Nat)) : State :=
  let o := 0x70000 + 0x80 * t + 0x10 * w
  match r with
  | none => (((s.setReg o 0#32).setReg (o + 4) 0#32).setReg (o + 8) 0#32).setReg (o + 12) 0#32
  | some (a, n) =>
    let last := a + n - 1
    (((s.setReg o (BitVec.ofNat 32 (a % 2 ^ 32 / 64 * 64 + 7))).setReg (o + 4) (BitVec.ofNat 32 (a / 2 ^ 32))).setReg (o + 8)
      (BitVec.ofNat 32 (last % 2 ^ 32 / 64 * 64))).setReg (o + 12) (BitVec.ofNat 32 (last / 2 ^ 32))

def Context.ranges (x : Context) : List (Nat × Nat) :=
  ((List.range 8).filterMap (fun h => let (l, n) := x.scratch.getD h (0, 0)
    if n = 0 then none else some (hallBase h + 64 * l, 64 * n))) ++ (if x.wide.2 = 0 then [] else [x.wide])

def State.setWindows (s : State) (t : Nat) (rs : List (Nat × Nat)) : State :=
  (List.range 8).foldl (fun s w => s.setWindow t w rs[w]?) s

/-! ### The end of a load (R169, R178) -/

/-- Complete the command of a load. -/
def State.endCmd (s : State) (l : Load) (status : Nat) : State := s.complete l.cmd status 0

/-- Release everything a context's load holds. -/
def State.releaseLoad (s : State) (c : Nat) : State :=
  let x := s.ctx c
  let bs := match s.load c with | some l => l.bound | none => []
  let s := bs.foldl (fun s b => s.releaseGallery b.key) s
  let s := (List.range 8).foldl (fun s h => let (l, n) := x.flightRegion.getD h (0, 0)
    s.zeroBytes (hallBase h + 64 * l) (64 * n)) s
  let s := if x.saturated then s.raise evFallbackSaturated 8 (some c) (c + (x.nLive % 65536) * 2 ^ 7) else s
  let s := if x.dispatch = 0 then s else s.zeroBytes x.dispatch (16 * x.matrices)
  let s := s.setWindows c []
  { s.setCtx c Context.reset with loads := Tab.del s.loads c }

/-- End a load with a status other than OK; the wear counts are written at this completion too (R183). -/
def State.endLoad (s : State) (c status : Nat) : State :=
  match s.load c with
  | none => s
  | some l =>
    if l.done then s
    else if l.sendOnly then { s with loads := Tab.del s.loads c }.endCmd l status
    else ((s.releaseLoad c).endCmd l status).writeWear

/-! ### Re-placing a gallery (R173, R181, R185, R420) -/

/-- Bind the virtual gallery at `k` anew: to a gallery of the same hall that fits, or `none`. -/
def State.rebindTo (s : State) (l : Load) (b : Bound) : Option Bound :=
  (l.image |> fun (m : Image) => m.recOf b).bind (fun g =>
    let free := (s.freeGalleries b.vhall).filter (fun k => !(l.bound.any (fun x => decide (x.key = k))))
    (s.bestGallery free (Image.wants l.image g)).map (fun (k, perm) => { b with key := k, perm := perm, ready := false }))

/-- Cell image of a record received? -/
def Image.cellIn (m : Image) (a : ArrEntry) : Bool := decide ((m.cellSpan a).2 ≤ m.length)

/-- R420, R429: can the sections of a load be read again: from tier 1, from its volume, or from the root of its tree, while the link
to the parent is up? -/
def State.imageReadable (s : State) (l : Load) : Bool :=
  if l.source = 0 then s.mapped l.addr l.image.length && !(s.anyMarked l.addr l.image.length)
  else if l.source = 1 then !(s.volFailed l.nsid)
  else (List.range 96).any (fun i => decide (fld (Tab.get 0#32 s.treeMap (16 * l.tree + i / 8)) (4 * (i % 8) + 3) (4 * (i % 8)) = 1) &&
    (let k := Tab.get Link.reset s.links i
     decide (k.state = 2 ∨ k.state = 3)))

/-- Re-place the virtual gallery bound to `k` (R173, R420): false when no gallery fits, or when the image of a loaded context cannot be read. The new gallery is programmed from
the image, and every step of the context that names the old one is rewritten. -/
def State.replaceGallery (s : State) (c k : Nat) : State × Bool :=
  match s.load c with
  | none => (s, false)
  | some l => match l.bound.find? (fun b => decide (b.key = k)) with
    | none => (s, false)
    | some b => match (if l.done && !(s.imageReadable l) then none else s.rebindTo l b) with
      | none =>
        let s := (s.releaseGallery k).setCtx c { s.ctx c with parts := (s.ctx c).parts.map (fun p => if p.2 = k then (p.1, 4096) else p) }
        (s.setLoad c { l with bound := l.bound.erase b }, false)
      | some b' =>
        let m : Image := l.image
        let bs := l.bound.map (fun x => if x = b then b' else x)
        let s := (s.releaseGallery k).setLoad c { l with bound := bs }
        let s := s.setCtx c { s.ctx c with parts := m.parts bs ++ ((s.ctx c).parts.filter (fun p => decide (p.2 = 4096))) }
        let (s, full) := s.install c m b' true
        let started := m.arrEntries.take l.arraysStarted
        let s := match m.recOf b' with
          | none => s
          | some g => (m.arraysOf g).foldl (fun s a => if started.contains a || l.done then s.startArray c m b' a 1 else s) s
        (s.writeFlights c m bs, !full)

/-- An array or gallery of a load is no longer fit (R173, R185): re-place it; when nothing fits, a load in progress completes
with NO_CAPACITY, and a context that is already live counts the failure (R420). -/
def State.unfit (s : State) (c k : Nat) : State :=
  match s.load c with
  | none => s
  | some l =>
    let (s1, ok) := (s.galleryCause k true).replaceGallery c k
    if ok then s1
    else if l.done then s1.bump 0xA0020 1
    else s.endLoad c stNoCapacity

/-! ### ATLAS_LOAD (R169, R178) -/

def atlasLoad (e : SubEntry) (s : State) : State :=
  let c := e.byte 16
  let sendOnly := decide (e.byte 18 = 1)
  let key := if sendOnly then 64 + c else c
  if 255 < e.num 20 21 ∨ 2 < e.byte 17 ∨ 63 < c ∨ 1 < e.byte 18 ∨ (e.byte 17 = 1 ∧ 7 < e.num 24 27) then s.complete e stAccessFault 0
  else if (s.load key).isSome then s.complete e stNoCapacity 0
  else s.setLoad key {
    cmd := e, context := c, source := e.byte 17, addr := e.num 40 47, nsid := e.num 24 27, tree := e.num 20 21,
    sendOnly := sendOnly, image := [], stage := 0, retried := false, bound := [], arraysStarted := 0, waitSince := none,
    lastData := s.now, done := false }

/-- ATLAS_LOAD (R169, R178, R180, R358): the command is checked and the load waits for its image. -/
def execAtlasLoad (e : SubEntry) (s : State) : Host.Outcome State Fault Refusal := next (s.command e cmdAtlasLoad (atlasLoad e))

/-! ### The image arrives (R169) -/

/-- R169 step 2, once the seeds are in and every check has passed. -/
def State.bindLoad (s : State) (c : Nat) (l : Load) : State :=
  let m : Image := l.image
  let lines := fun (h : Nat) => cdiv (m.hallSteps h) 4
  let scr := tabulate 8 (fun h => (firstFit 0 s.hallLines (m.scratch h) (s.hallUsed h)).map (fun b => (b, m.scratch h)))
  let fl := tabulate 8 (fun h => (firstFit 0 s.hallLines (lines h) (((scr.getD h none).getD (0, 0)) :: s.hallUsed h)).map
    (fun b => (b, lines h)))
  let wide := if s.keepsWide c m then (s.widePlace (m.sect secWide).len).map (fun a => (a, (m.sect secWide).len)) else some (0, 0)
  match wide, s.placeStores m, s.bindAll m with
  | some w, some rot, some bs =>
    if !(s.headRoom c m) || scr.any Option.isNone || fl.any Option.isNone then s.endLoad c stNoCapacity
    else
      let x : Context := { Context.reset with
        ident := m.ident, matrices := m.matrices, layers := m.layers, parts := m.parts bs,
        scratch := scr.map (fun o => o.getD (0, 0)), flightRegion := fl.map (fun o => o.getD (0, 0)), wide := w,
        rotStore := rot, central := (Config.centralLine c).val, dispatch := 64 * (Config.dispatchLine c).val }
      let s := (((s.setCtx c x).setLoad c { l with bound := bs }).setWindows c x.ranges).fillStore c m
      let (s, full) := bs.foldl (fun (s, full) b => let (s, f) := s.install c m b true
        (s, full || f)) (s, false)
      let s := (s.writeFlights c m bs).requestVprog
      if full then s.endLoad c stNoCapacity else s
  | _, _, _ => s.endLoad c stNoCapacity

/-- A part of the image failed its check: it is read once more, then the image is rejected (R167). A receiver of a broadcast waits for the
part to come down the tree again. -/
def State.failPart (s : State) (c : Nat) (l : Load) (off : Nat) : State :=
  if l.retried then s.endLoad c stAccessFault
  else s.setLoad c { l with image := l.image.take off, retried := true, arraysStarted := if l.stage ≤ 6 then l.arraysStarted else
    (l.image |> fun (m : Image) => (m.arrEntries.takeWhile (fun a => decide ((m.cellSpan a).2 ≤ off))).length) }

/-- Take the next part of the image that has arrived whole; none when nothing more can be taken. -/
def State.takePart (s : State) (c : Nat) : Option State :=
  match s.load c with
  | none => none
  | some l =>
    let m : Image := l.image
    if l.done then none
    else if l.stage = 0 then
      if !m.headIn then none
      else if !(m.headerOk (bit (s.reg (0xA5100 + 4 * c)) 0)) then some (s.failPart c l 0)
      else if !(s.headRoom c m) then some (s.endLoad c stNoCapacity)
      else some (s.setLoad c { l with stage := 1, retried := false })
    else if m.sections < l.stage then none
    else
      let x := m.sectAt (l.stage - 1)
      if m.length < x.off + x.len then none
      else if !(m.crcOk x.off x.len x.crc) then some (s.failPart c l x.off)
      else
        let l1 := { l with stage := l.stage + 1, retried := false }
        let s := s.setLoad c l1
        if x.type = secSeed then some (if m.placementOk then s.bindLoad c l1 else s.endLoad c stAccessFault)
        else if x.type = secWide ∧ (s.ctx c).wide.2 ≠ 0 then
          some (s.writeBytes (s.ctx c).wide.1 ((m.drop x.off).take x.len))
        else some s

def State.takeParts (s : State) (c : Nat) : Nat → State
  | 0 => s
  | fuel + 1 => match s.takePart c with
    | none => s
    | some s => s.takeParts c fuel

/-- Write bytes at the staging ring's place of a hall, wrapping at its end (R169). -/
def State.stage (s : State) (h : Nat) (bs : List Byte) : State :=
  let p := s.staged.getD h 0 % gib
  let s := (s.writeBytes (s.stageBase h + p) (bs.take (gib - p))).writeBytes (s.stageBase h) (bs.drop (gib - p))
  { s with staged := s.staged.set h (s.staged.getD h 0 + bs.length) }

/-- A cell image has arrived whole: into its hall's staging ring and, of a rotating layer, into the rotation store (R169, R181). -/
def State.takeCells (s : State) (c : Nat) (m : Image) (a : ArrEntry) : State :=
  let s := s.stage a.vhall (m.cells a)
  match m.galRecs.find? (fun g => g.owns a) with
  | some g => if g.pool then s.writeBytes ((s.ctx c).storeBase g.vhall + m.storeArr g a) (m.cells a) else s
  | none => s

/-- Start the arrays whose cell images are in, in record order (R169 step 4). -/
def State.startArrays (s : State) (c : Nat) : Nat → State
  | 0 => s
  | fuel + 1 =>
    match s.load c with
    | none => s
    | some l =>
      let m : Image := l.image
      if l.bound.isEmpty || decide (l.stage < 7) then s
      else match m.arrEntries[l.arraysStarted]? with
        | none => s
        | some a =>
          if !(m.cellIn a) then s
          else if !(cellsOk (wFmtOf a.fmt) (m.cells a)) then s.endLoad c stAccessFault
          else
            let s := (s.setLoad c { l with arraysStarted := l.arraysStarted + 1 }).takeCells c m a
            let b := l.bound.find? (fun b => decide (b.vhall = a.vhall ∧ b.vgal = a.vgal ∧ b.layer = a.layer))
            (match b with | some b => s.startArray c m b a 1 | none => s).startArrays c fuel

/-- Bytes of the staging ring of a hall that cell images of a load hold (R169 step 4). -/
def State.stagedOf (s : State) (l : Load) (h : Nat) : Nat :=
  let m : Image := l.image
  (m.arrEntries.zipIdx.map (fun (a, i) =>
    let (lo, hi) := m.cellSpan a
    let bs := l.bound.find? (fun b => decide (b.vhall = a.vhall ∧ b.vgal = a.vgal ∧ b.layer = a.layer))
    let finished := decide (i < l.arraysStarted) && (match bs with
      | some b => (s.arr (arrKey b.key (permArray b.perm a.varray))).job.isNone
      | none => true)
    if a.vhall ≠ h ∨ finished ∨ m.length ≤ lo then 0 else min hi m.length - lo)).foldl (· + ·) 0

def State.stagingFull (s : State) (l : Load) : Bool :=
  decide (7 ≤ l.stage) && !l.bound.isEmpty && (List.range 8).any (fun h =>
    decide (gib ≤ (s.loads.map (fun p => if p.2.done || p.2.sendOnly then 0 else s.stagedOf p.2 h)).foldl (· + ·) 0))

/-- Hand a message to the fabric; its MSG_NO counts per flow, per tree for a broadcast (R355). -/
def State.handFab (s : State) (kind flags dest flow offset : Nat) (body : List Byte) : State :=
  let key := if kind = 4 then 2 ^ 40 + dest else 65536 * dest + flow
  let no := Tab.get 0 s.fabNo key
  { s with fabOut := s.fabOut ++ [{ uid := s.nextId, kind := kind, flags := flags, dest := dest, src := s.rfld 0x80000 11 0, flow := flow, msgNo := no
                                    offset := offset % 2 ^ 32, body := body, link := none, sent := 0 }]
           fabNo := Tab.set 0 s.fabNo key ((no + 1) % 2 ^ 32), nextId := s.nextId + 1 }

/-- Send image bytes down a tree in messages of at most 65,536 bytes (R178, R358). -/
def State.broadcast (s : State) (tree off total : Nat) (bs : List Byte) : State :=
  ((chunks 65536 (bs.length + 1) bs).zipIdx).foldl (fun s (b, i) =>
    let o := off + 65536 * i
    s.handFab 4 (b2n (decide (total ≤ o + b.length))) tree 0 o b) s

/-- The image's length, once its header is in. -/
def Load.total (l : Load) : Option Nat := if 256 ≤ l.image.length then some (Image.bytes l.image) else none

/-- The bytes that arrive: from tier 1, what memory holds there; else what the source sends. -/
def State.imageBytes (s : State) (l : Load) (data : List Byte) : List Byte :=
  if l.source = 0 then s.bytes (l.addr + l.image.length) data.length else data

def imageArrival (c : Nat) (data : List Byte) (s : State) : State :=
  match s.load c with
  | none => s
  | some l =>
    let n := match l.total with | some t => min data.length (t - l.image.length) | none => data.length
    let data := data.take n
    let a := l.addr + l.image.length
    if l.done || data.isEmpty || s.stagingFull l then s
    else if l.source = 1 && s.volFailed l.nsid then s.endLoad c stDeviceFault
    else if l.source = 0 && !(s.mapped a n) then s.endLoad c stAccessFault
    else if l.source = 0 && s.anyMarked a n then s.endLoad c stDeviceFault
    else
      let bs := s.imageBytes l data
      let l1 := { l with image := l.image ++ bs, lastData := s.now }
      let s := s.setLoad c l1
      let s := if l.tree ≠ 0 ∧ l.source ≠ 2 then s.broadcast l.tree l.image.length ((l1.total).getD 0) bs else s
      if l.sendOnly then
        (match l1.total with | some t => if t ≤ l1.image.length then (s.endCmd l1 stOk |> fun s => { s with loads := Tab.del s.loads c }) else s | none => s)
      else
        let s := s.takeParts c 32
        s.startArrays c 131072

/-- IMAGE_DATA_ARRIVAL (R167, R169, R178): the next bytes of load `c`'s image; load 64 + c is a send-only one. From tier 1 the
operand gives only how many arrive; a broadcast's bytes come by BCAST. -/
def execImageDataArrival (c : Nat) (data : List Byte) (s : State) : Host.Outcome State Fault Refusal :=
  if (s.load c).any (fun l => decide (l.source = 2)) then next s else next (imageArrival c data s)

/-! ### Programming (R170 to R175) -/

/-- R173: weight columns with STUCK entries on more than 64 rows. -/
def deadColumns (es : List EmapEntry) : List Nat :=
  ((es.filter (fun e => decide (e.flags = 2 ∧ e.col < 1024))).map EmapEntry.col).eraseDups.filter (fun c =>
    decide (64 < ((es.filter (fun e => decide (e.flags = 2 ∧ e.col = c))).map EmapEntry.row).eraseDups.length))

/-- The layer a pool gallery has been programmed with becomes resident; launches that waited for it may run (R181). -/
def State.layerReady (s : State) (c k : Nat) : State :=
  match s.load c with
  | none => s
  | some l =>
    if (s.recArrays k).any (fun a => (s.arr (arrKey k a)).job.isSome || ((s.arr (arrKey k a)).record.map (fun r => r.codes.isEmpty)).getD true) then s
    else
      let bs := l.bound.map (fun b => if b.key = k then { b with ready := true } else b)
      let s := (s.setLoad c { l with bound := bs }).writeFlights c l.image bs
      (bs.filter (fun b => decide (b.layer ≠ 0xFFFF))).foldl (fun s b => s.startNext b.key (queueDepth + 1)) s

/-- The last row of a sweep has ended (R173): repair dead columns, re-place an unfit gallery, or end the job. A column that a repair spare
already stands for loses its entries and takes no second spare. -/
def State.sweepDone (s : State) (c k a : Nat) (j : ProgJob) : State :=
  let i := arrKey k a
  let es := s.emapOf k a
  let sp0 := s.sparesOf k a
  let worn := if j.sweep.isEmpty then deadColumns es else []
  let dead := worn.filter (fun c => !(sp0.contains (1, c)))
  let w := dead.foldl wearDead (s.wear i)
  let s := if dead.isEmpty then s else s.setWear i w
  let s := if worn.isEmpty then s else (s.writeEmap k a (es.filter (fun e => !(worn.contains e.col)))).getD s
  let sp1 := repairSpares dead sp0
  let new := (List.range 64).filter (fun x => decide (sp1.getD x (0, 0) ≠ sp0.getD x (0, 0)))
  if dead.isEmpty then
    (((s.modArr i (fun r => { r with lastProgrammed := s.now, ageEq := 0 })).endJob i)).layerReady c k
  else if new.length < dead.length ∨ wearState w = 2 then s.unfit c k
  else
    let s := s.writeSpares k a sp1
    s.modArr i (fun r => { r with job := some { j with row := 0, sweep := new.map (· + 1024) } })

def programRow (k a : Nat) (s : State) : State :=
  let i := arrKey k a
  let r := s.arr i
  match r.job, r.record with
  | some j, some rec =>
    if j.mode = 2 ∨ !(s.progActive.contains i) then s
    else
      let s := (s.at j.readyAt).testWindow (k / 512)
      if (s.gal k).suspect then s.unfit rec.context k
      else if 1024 ≤ j.row then s.sweepDone rec.context k a j
      else if !(s.windowOpen.getD (k / 512) false) || decide (s.pkg ≠ 3) then s
      else if !(s.railPg 7) then s.requestVprog
      else if s.power.relock.contains (k / 512) then s
      else
        let cols := if j.sweep.isEmpty then programmedCols (s.sparesOf k a) else j.sweep
        let (s, full) := s.runRow k a j.row s.now false rec cols
        if full then (match s.load rec.context with
          | some l => if l.done then s.unfit rec.context k else s.endLoad rec.context stNoCapacity
          | none => s)
        else s
  | _, _ => s

/-- PROGRAM_ROW (R170 to R175, R185): one row of an array that the arbiter has admitted, or the end of its last row; a hall that left QUIET first relocks its
converter PLL (R373). -/
def execProgramRow (h g a : Nat) (s : State) : Host.Outcome State Fault Refusal := next (programRow (galKey h g) (a % 32) s)

/-! ### Initial survey and the end of a load -/

/-- INITIAL_SURVEY (R201, R202): the gallery a load has bound and programmed. A gallery bound to a live context ends the
causes on its matrices (R142, R420). A set that R187 forbids ends a load in progress with DEVICE_FAULT (log 22, DESIGN CHOICE). -/
def execInitialSurvey (h g : Nat) (s : State) : Host.Outcome State Fault Refusal :=
  let k := galKey h g
  if s.pkg = 3 ∧ (s.owner k).isSome ∧ (s.recArrays k).isEmpty = false ∧ (s.gal k).survey.initialDone = false ∧ (s.gal k).suspect = false ∧
      (s.recArrays k).all (fun a => (s.arr (arrKey k a)).job.isNone &&
        ((s.arr (arrKey k a)).record.map (fun r => !r.codes.isEmpty)).getD false) then
    let bad := s.initialBad k
    let s := s.initialSurvey k
    next (match s.owner k with
      | some c =>
        if (s.ctx c).live then (if bad then s else s.galleryCause k false)
        else if bad then s.endLoad c stDeviceFault
        else s
      | none => s)
  else next s

/-- The dispatch entries of a context (R138, R169 step 6). -/
def State.writeDispatch (s : State) (c : Nat) (m : Image) : State :=
  let x := s.ctx c
  (List.range m.matrices).foldl (fun s i =>
    let wide := decide (x.wide.2 ≠ 0) && m.matrixWide i
    s.setDispatch x i {
      path := (x.galleries i).isEmpty, causeGallery := false, causeHost := false, wide := wide, layer := m.matrixLayer i,
      galleries := (Config.placementLine c i).val, wideAddr := if wide then x.wide.1 + m.matrixWideOff i else 0 }) s

def loadComplete (c : Nat) (s : State) : State :=
  match s.load c with
  | none => s
  | some l =>
    let m : Image := l.image
    if l.done || l.sendOnly || decide (s.pkg ≠ 3) || decide (l.stage = 0) || decide (l.stage ≤ m.sections) then s
    else match l.bound.find? (fun b => (s.gal b.key).suspect) with
      | some b => s.unfit c b.key
      | none =>
        if !(l.bound.all (fun b => (s.gal b.key).survey.initialDone ||
            ((m.recOf b).map (fun g => decide (popcount g.arrays = 0))).getD true)) then s
        else
          let s := s.writeDispatch c m
          let s := (s.setCtx c { s.ctx c with live := true }).placeFlights c m l.bound
          (((s.setLoad c { l with done := true }).endCmd l stOk).writeWear).updateSaturation c

/-- LOAD_COMPLETE (R144, R169 step 6, R183). -/
def execLoadComplete (c : Nat) (s : State) : Host.Outcome State Fault Refusal := next (loadComplete c s)

/-- LOAD_WAIT_EXPIRY (R175): the window has stayed shut for LOAD_WAIT seconds. -/
def execLoadWaitExpiry (c : Nat) (s : State) : Host.Outcome State Fault Refusal :=
  match s.load c with
  | none => next s
  | some l => match l.waitSince with
    | none => next s
    | some t =>
      let s := s.at (t + sec (s.rfld 0xA5000 19 12))
      let s := (l.bound.map Bound.vhall).eraseDups.foldl State.testWindow s
      if ((s.load c).bind Load.waitSince).isSome then next (s.endLoad c stProgramWindow) else next s

/-- BROADCAST_RX_TIMEOUT (R178): no data for 100 ms. -/
def execBroadcastRxTimeout (c : Nat) (s : State) : Host.Outcome State Fault Refusal :=
  match s.load c with
  | none => next s
  | some l =>
    let whole := match l.total with | some t => decide (t ≤ l.image.length) | none => false
    if l.source = 2 ∧ l.done = false ∧ whole = false then next ((s.at (l.lastData + ms 100)).endLoad c stAborted) else next s

/-! ### Rotation (R181) -/

/-- The next layer of a pool gallery, ascending and wrapping. -/
def Image.nextLayer (m : Image) (b : Bound) : Option Nat :=
  let ls := sortBy (fun x y => decide (x ≤ y)) ((m.galRecs.filter (fun g => decide (g.vhall = b.vhall ∧ g.vgal = b.vgal))).map GalRec.layer)
  match ls.find? (fun l => decide (b.layer < l)) with
  | some l => some l
  | none => if ls.headD b.layer = b.layer then none else ls.head?

/-- May the gallery leave its layer: no launch of it runs or waits, and every array is old enough? -/
def State.mayRotate (s : State) (k : Nat) (m : Image) (x : Context) (b : Bound) : Bool :=
  let g := s.gal k
  let mine := match m.recOf b with
    | some r => g.queue.any (fun l => decide (x.flightAt m r ≤ l.flight ∧ l.flight < x.flightAt m r + r.steps))
    | none => false
  b.ready && g.flight.isNone && !mine &&
  (s.recArrays k).all (fun a => decide ((s.arr (arrKey k a)).lastProgrammed + sec (s.rfld 0xA5000 31 20) ≤ s.now))

def rotate (k : Nat) (s : State) : State :=
  match s.owner k with
  | none => s
  | some c => match s.load c with
    | none => s
    | some l => match l.bound.find? (fun b => decide (b.key = k)) with
      | none => s
      | some b =>
        let m : Image := l.image
        match m.nextLayer b with
        | none => s
        | some ly =>
          if !l.done || decide (b.layer = 0xFFFF) || !(s.mayRotate k m (s.ctx c) b) then s
          else
            let b1 := { b with layer := ly, ready := false }
            match m.recOf b1 with
            | none => s
            | some g => match s.fitArrays k (m.wants g) with
              | none => (s.setLoad c { l with bound := l.bound.map (fun x => if x = b then b1 else x) }).unfit c k
              | some perm =>
                let b2 := { b1 with perm := perm }
                let bs := l.bound.map (fun x => if x = b then b2 else x)
                let s := s.setLoad c { l with bound := bs }
                let (s, _) := s.install c m b2 false
                let s := s.writeFlights c m bs
                (m.arraysOf g).foldl (fun s a => s.startArray c m b2 a 3) s

/-- ROTATION_REPROGRAM (R181): the pool gallery takes its next layer. -/
def execRotationReprogram (h g : Nat) (s : State) : Host.Outcome State Fault Refusal := next (rotate (galKey h g) s)

end Sys2Proof.Machine
end

