-- ==== Sys2Proof/Machine/Sparse.lean ====
section
/-! DEFINITION. The sparse engine (R148 to R153). The model's own choices: log 20 full queues (DEDUCED); log 30 sparse engine (DEDUCED,
DESIGN CHOICE). -/

namespace Sys2Proof.Machine

/-! ### Descriptors (R149) -/

structure SpeDesc where
  op : Nat
  flags : Nat
  tag : Nat
  count : Nat
  src0 : Nat
  src1 : Nat
  src2 : Nat
  dst : Nat
  aux : Nat
  compAddr : Nat
  counter : Nat
  /-- PARAM, bytes 58 to 63 -/
  param : Nat
  deriving DecidableEq, Repr

def SpeDesc.of (d : BitVec 512) : SpeDesc where
  op := dnum d 0 0
  flags := dnum d 1 1
  tag := dnum d 2 3
  count := dnum d 4 7
  src0 := dnum d 8 15
  src1 := dnum d 16 23
  src2 := dnum d 24 31
  dst := dnum d 32 39
  aux := dnum d 40 47
  compAddr := dnum d 48 55
  counter := dnum d 56 57 % 4096
  param := dnum d 58 63

/-- Byte `i` of PARAM. -/
def SpeDesc.p (d : SpeDesc) (i : Nat) : Nat := d.param / 256 ^ i % 256
/-- Bytes 0 and 1 of PARAM. -/
def SpeDesc.p16 (d : SpeDesc) : Nat := d.param % 65536
/-- Bytes 0 to 3 of PARAM. -/
def SpeDesc.p32 (d : SpeDesc) : Nat := d.param % 2 ^ 32
/-- Bytes 3 to 5 of PARAM. -/
def SpeDesc.p24hi (d : SpeDesc) : Nat := d.param / 2 ^ 24 % 2 ^ 24

/-- Is OP defined (R149)? -/
def SpeDesc.defined (d : SpeDesc) : Bool := decide (1 ≤ d.op ∧ d.op ≤ 6)

/-- A parameter inside its stated range, or else a free value inside it. -/
def freeIn (lo hi x n : Nat) : Nat := if lo ≤ x ∧ x ≤ hi then x else lo + Config.freeNat n % (hi - lo + 1)

/-- PARAM with byte `i` replaced. -/
def SpeDesc.withP (d : SpeDesc) (i x : Nat) : SpeDesc := { d with param := d.param - d.p i * 256 ^ i + x * 256 ^ i }

/-- The parameters that an operation runs with. R150 and R153 give no result for one outside its stated range: the operation runs with a free
value inside the range in its place, drawn from number `n` on (log 30, DESIGN CHOICE). -/
def SpeDesc.eff (d : SpeDesc) (n : Nat) : SpeDesc :=
  match d.op with
  | 1 => d.withP 0 (freeIn 0 6 (d.p 0) n)
  | 2 => d.withP 0 (freeIn 0 6 (d.p 0) n)
  | 4 => { d with param := d.param - d.p16 + freeIn 1 1024 d.p16 n }
  | 6 =>
    let e := freeIn 1 64 (d.p 0) n
    let k := freeIn 1 8 (d.p 1) (n + 1)
    let cap := if d.p 2 = 0 then 0 else freeIn (min k e) e (d.p 2) (n + 2)
    { ((d.withP 0 e).withP 1 k).withP 2 cap with count := freeIn 0 4096 d.count (n + 3) }
  | _ => d

/-- Free numbers kept for the parameters of one operation. -/
def effDraws : Nat := 4

/-- Entries of the SPE's queue (R148). -/
def speDepth : Nat := 512

/-- Does a stream processor post the descriptor? While its context is saturated and EXPERT_CAP is not 0, routing runs as one ROUTE over the
whole live set (R146). -/
def State.routesLive (s : State) (d : SpeDesc) (task : Nat) : Bool :=
  !(decide (d.op = 6) && decide (task < 64) && (s.ctx task).saturated && decide (s.rfld 0xA4000 19 16 ≠ 0)) ||
  decide (d.count = (s.ctx task).liveSet.length)

/-- SPE_DESCRIPTOR_POST (R146, R148, R401): a full queue leaves the poster waiting. A descriptor whose OP is undefined has no effect in the
spec, and is refused (R149). -/
def execSpeDescriptorPost (desc : BitVec 512) (task : Nat) (s : State) (poster : Poster := .sp) : Host.Outcome State Fault Refusal :=
  let d := SpeDesc.of desc
  if !d.defined then .refused .undefinedSpeDescriptor
  else if s.spe.length < speDepth ∧ s.mayPost poster ∧ (poster ≠ .sp ∨ s.routesLive d task) then
    next { s with spe := s.spe ++ [{ desc := desc, task := task }] }
  else next s

/-! ### The run of a descriptor -/

/-- What an operation does: element writes in order (address and bytes), the count reported, indexed accesses, a fault. -/
structure SpeResult where
  writes : List (Nat × List Byte)
  count : Nat
  accesses : Nat
  status : Nat
  deriving DecidableEq, Repr

/-- May the task read (write) `n` bytes at an address (R152, R328)? -/
def State.mayRead (s : State) (task a n : Nat) : Bool := s.allowed task false a n
def State.mayWrite (s : State) (task a n : Nat) : Bool := s.allowed task true a n

/-- uint32 `i` of an array. -/
def State.u32 (s : State) (a i : Nat) : Nat := s.readLE (a + 4 * i) 4

/-- Send the writes of an operation, then its counter once they have arrived; answers what its record waits for (R149). -/
def State.speWrites (s : State) (d : SpeDesc) (r : SpeResult) : List Nat × State :=
  let s := s.bump 0xA401C r.accesses
  let ids := (List.range r.writes.length).map (s.nextId + ·)
  let s := r.writes.foldl (fun s (a, bs) =>
    s.send (mkWrite s .spe a bs (s.now + coreWriteLatency ((s.memOf a).getD 8)) [])) s
  let cm := s.counterMem d.dst
  let w := mkWrite s .spe 0 [] (s.now + coreWriteLatency cm) [{ key := cntKey cm d.counter, amount := 1 }]
  (s.nextId :: ids, s.send { w with mem := cm, parts := [], after := ids })

/-- The descriptor at the head of the queue completes, with its record; a record the poster's task may not write is not written (R328). -/
def State.speRecord (s : State) (d : SpeDesc) (task status count : Nat) (after : List Nat) : State :=
  let s := { s with spe := s.spe.drop 1, speHold := none }.bump 0xA4018 1
  if d.compAddr = 0 ∨ s.allowed task true d.compAddr 16 = false then s
  else
    let w := mkWrite s .spe d.compAddr (completion16 d.tag status false false count s.time)
      (s.now + coreWriteLatency ((s.memOf d.compAddr).getD 8)) []
    s.send { w with after := after }

/-- Finish the descriptor at the head of the queue: its writes, then its counter, then its record. -/
def State.speFinish (s : State) (d : SpeDesc) (task : Nat) (r : SpeResult) : State :=
  let (after, s) := s.speWrites d r
  s.speRecord d task r.status r.count after

/-- Run the descriptor at the head of the queue when it is `op`'s; `draws` free numbers stand for results the spec leaves open. -/
def State.speRun (s : State) (op : Nat) (draws : SpeDesc → Nat) (f : State → Nat → SpeDesc → SpeResult) : State :=
  match s.spe with
  | [] => s
  | j :: _ =>
    let d := (SpeDesc.of j.desc).eff s.free
    if d.op = op ∧ s.newWork then
      let s := s.use effDraws
      (s.use (draws d)).speFinish d j.task (f s j.task d)
    else s

/-- Every write of a unit that is still in flight arrives, in order (R317). -/
def State.landAll (s : State) (o : Owner) : State :=
  let mine := s.writes.filter (fun w => decide (w.owner = o))
  let s := { s with writes := s.writes.filter (fun w => !(decide (w.owner = o))) }
  mine.foldl (fun s w => (s.at w.due).land w) s

def faultAt (r : SpeResult) : SpeResult := { r with status := stAccessFault }

/-- Step an operation over `n` elements; a denied access ends it (`none`). -/
def speLoop (r : SpeResult) (f : SpeResult → Nat → Option SpeResult) (i : Nat) : Nat → SpeResult
  | 0 => r
  | n + 1 => match f r i with
    | none => faultAt r
    | some r => speLoop r f (i + 1) n

def speStart : SpeResult := { writes := [], count := 0, accesses := 0, status := stOk }

/-! ### GATHER and SCATTER (R150 to R152) -/

def gather (s : State) (task : Nat) (d : SpeDesc) : SpeResult :=
  let z := 2 ^ d.p 0
  speLoop speStart (fun r i =>
    if !(s.mayRead task (d.src1 + 4 * i) 4) || !(s.mayWrite task (d.dst + z * i) z) then none
    else
      let x := s.u32 d.src1 i
      if d.aux ≤ x then
        some { r with writes := r.writes ++ [(d.dst + z * i, List.replicate z 0#8)], count := r.count + 1, status := stAccessFault }
      else if !(s.mayRead task (d.src0 + z * x) z) then none
      else some { r with writes := r.writes ++ [(d.dst + z * i, s.bytes (d.src0 + z * x) z)], count := r.count + 1,
                         accesses := r.accesses + 1 }) 0 d.count

/-- GATHER (R150 to R152). -/
def execGather (s : State) : Host.Outcome State Fault Refusal := next (s.speRun 1 (fun _ => 0) gather)

/-- Elements written so far read back by the adds that follow them. -/
def pendingValue (ws : List (Nat × List Byte)) (a : Nat) : Option (List Byte) :=
  (ws.reverse.find? (fun w => decide (w.1 = a))).map Prod.snd

def scatter (s : State) (task : Nat) (d : SpeDesc) : SpeResult :=
  let z := 2 ^ d.p 0
  speLoop speStart (fun r i =>
    if !(s.mayRead task (d.src1 + 4 * i) 4) || !(s.mayRead task (d.src0 + z * i) z) then none
    else
      let x := s.u32 d.src1 i
      let a := d.dst + z * x
      if d.aux ≤ x then some { r with status := stAccessFault }
      else if !(s.mayWrite task a z) then none
      else
        let new := if d.flags.testBit 0 then
            let old := match pendingValue r.writes a with
              | some bs => BitVec.ofNat 32 (leNat bs)
              | none => s.f32At a
            if z = 4 then natLE 4 (F32.add old (s.f32At (d.src0 + 4 * i))).toNat else natLE z (Config.freeNat (s.free + i))
          else s.bytes (d.src0 + z * i) z
        some { r with writes := r.writes ++ [(a, new)], count := r.count + 1, accesses := r.accesses + 1 }) 0 d.count

/-- SCATTER (R150 to R152): overwrite, or add in ascending i. The add is of binary32 elements; what an add of elements of another size writes
is a free value (log 30, DESIGN CHOICE). -/
def execScatter (s : State) : Host.Outcome State Fault Refusal := next (s.speRun 2 SpeDesc.count scatter)

/-! ### SEGREDUCE (R150 to R152) -/

/-- Identity of a reduction: empty segments yield it (R151). -/
def reduceEmpty (kind : Nat) : F32 := if kind = 0 then 0#32 else if kind = 1 then 0xFF800000#32 else inf32

/-- One step of a reduction. The rules do not say what a sum starts from; the model starts it from the first product, so that a lone −0.0
stays −0.0 (log 30, DESIGN CHOICE). -/
def reduceStep (kind : Nat) (acc : Option F32) (x : F32) : Option F32 :=
  match acc with
  | none => some (if F32.isNaN x then nan32 else x)
  | some a => some (if kind = 0 then F32.add a x else if kind = 1 then F32.max a x else F32.min a x)

/-- One segment: its value, products taken, and whether a bad column was skipped; none at a denied access. The length of x
is that of the window its elements lie in: a column that reaches outside the windows is bad (R152). -/
def segment (s : State) (task : Nat) (d : SpeDesc) (lo : Nat) : Nat → Nat → (Option F32 × Nat × Bool) → Option (Option F32 × Nat × Bool)
  | 0, _, acc => some acc
  | n + 1, k, acc =>
    let plain := d.flags.testBit 2
    if !(s.mayRead task (d.src1 + 4 * (lo + k)) 4) || (!plain && !(s.mayRead task (d.src2 + 4 * (lo + k)) 4)) then none
    else
      let x := d.aux + 4 * s.u32 d.src1 (lo + k)
      if !(s.mayRead task x 4) then segment s task d lo n (k + 1) (acc.1, acc.2.1, true)
      else
        let v := if plain then s.f32At x else F32.mul (s.f32At (d.src2 + 4 * (lo + k))) (s.f32At x)
        segment s task d lo n (k + 1) (reduceStep (d.flags % 4) acc.1 v, acc.2.1 + 1, acc.2.2)

def segReduce (s : State) (task : Nat) (d : SpeDesc) : SpeResult :=
  speLoop speStart (fun r i =>
    if !(s.mayRead task (d.src0 + 4 * i) 8) || !(s.mayWrite task (d.dst + 4 * i) 4) then none
    else
      let lo := s.u32 d.src0 i
      let hi := s.u32 d.src0 (i + 1)
      match segment s task d lo (hi - lo) 0 (none, 0, false) with
      | none => none
      | some (v, n, bad) =>
        let y := if d.flags % 4 = 3 then BitVec.ofNat 32 (Config.freeNat (s.free + i)) else v.getD (reduceEmpty (d.flags % 4))
        some { r with writes := r.writes ++ [(d.dst + 4 * i, natLE 4 y.toNat)], count := r.count + 1, accesses := r.accesses + n,
                      status := if bad || decide (hi < lo) then stAccessFault else r.status }) 0 d.count

/-- SEGREDUCE (R150 to R152). R150 names no reduction for FLAGS [1:0] = 3: its values are free (log 30, DESIGN CHOICE). -/
def execSegreduce (s : State) : Host.Outcome State Fault Refusal := next (s.speRun 3 SpeDesc.count segReduce)

/-! ### TOPK (R150, R151) -/

/-- R151: does key `x` of index `i` rank before `y` of index `j`? NaN ranks below every number; equal keys by index.
For TOPK's smallest keys the rule does not say whether that puts a NaN first or last; the model ranks it last there too (log 30, DESIGN
CHOICE). -/
def ranksBefore (smallest : Bool) (x : F32 × Nat) (y : F32 × Nat) : Bool :=
  let nx := F32.isNaN x.1
  let ny := F32.isNaN y.1
  if nx || ny then (if nx == ny then decide (x.2 ≤ y.2) else ny)
  else if F32.eq x.1 y.1 then decide (x.2 ≤ y.2)
  else if smallest then F32.lt x.1 y.1 else F32.lt y.1 x.1

/-- The `k` best of a list, best first (R151). -/
def topK (smallest : Bool) (k : Nat) (xs : List F32) : List (F32 × Nat) := (sortBy (ranksBefore smallest) xs.zipIdx).take k

def topKRun (s : State) (task : Nat) (d : SpeDesc) : SpeResult :=
  if !((List.range d.count).all (fun i => s.mayRead task (d.src0 + 4 * i) 4)) then faultAt speStart
  else
    let best := topK (d.flags.testBit 0) d.p16 (tabulate d.count (fun i => s.f32At (d.src0 + 4 * i)))
    speLoop speStart (fun r i =>
      match best[i]? with
      | none => none
      | some (key, idx) =>
        if s.mayWrite task (d.dst + 8 * i) 8 then
          some { r with writes := r.writes ++ [(d.dst + 8 * i, natLE 4 key.toNat ++ natLE 4 idx)], count := r.count + 1 }
        else none) 0 best.length

/-- TOPK (R150, R151). -/
def execTopk (s : State) : Host.Outcome State Fault Refusal := next (s.speRun 4 (fun _ => 0) topKRun)

/-! ### INTERSECT (R150, R152) -/

/-- The elements of an array from `i` on, as they are read one by one, up to one that is not above the one before it (`prev`) or that the
task may not read; and the status that stops the operation there (R152). -/
def ascending (s : State) (task a : Nat) (prev : Option Nat) (i : Nat) : Nat → List Nat × Nat
  | 0 => ([], stOk)
  | n + 1 =>
    if !(s.mayRead task (a + 4 * i) 4) then ([], stAccessFault)
    else
      let x := s.u32 a i
      if prev.any (fun p => decide (x ≤ p)) then ([], stPartial)
      else
        let (xs, st) := ascending s task a (some x) (i + 1) n
        (x :: xs, st)

/-- Merge two ascending lists; elements in both, at most `cap`; and the status it stops with (R152): that of the list that ends, or PARTIAL
once the output has reached its capacity. -/
def intersectLists (end0 end1 : Nat) (cap : Nat) : Nat → List Nat → List Nat → List Nat × Nat
  | 0, _, _ => ([], stOk)
  | fuel + 1, xs, ys =>
    if cap = 0 then ([], stPartial)
    else match xs, ys with
    | [], _ => ([], end0)
    | _, [] => ([], end1)
    | x :: xs, y :: ys =>
      if x < y then intersectLists end0 end1 cap fuel xs (y :: ys)
      else if y < x then intersectLists end0 end1 cap fuel (x :: xs) ys
      else
        let (zs, st) := intersectLists end0 end1 (cap - 1) fuel xs ys
        (x :: zs, st)

def intersect (s : State) (task : Nat) (d : SpeDesc) : SpeResult :=
  let (xs, e0) := ascending s task d.src0 none 0 d.count
  let (ys, e1) := ascending s task d.src1 none 0 d.aux
  let (zs, st) := intersectLists e0 e1 d.p32 (d.count + d.aux + 1) xs ys
  speLoop { speStart with status := st } (fun r i =>
    if s.mayWrite task (d.dst + 4 * i) 4 then
      some { r with writes := r.writes ++ [(d.dst + 4 * i, natLE 4 (zs.getD i 0))], count := r.count + 1 }
    else none) 0 zs.length

/-- INTERSECT (R150, R152). -/
def execIntersect (s : State) : Host.Outcome State Fault Refusal := next (s.speRun 5 (fun _ => 0) intersect)

/-! ### ROUTE (R153) -/

/-- Exponentials of logits less their largest; NaN throughout when the largest is NaN or −∞ (R153). -/
def expWeights (ls : List F32) : List F32 :=
  let m := ls.foldl (fun a l => if F32.isNaN a then a else F32.max a l) 0xFF800000#32
  if F32.isNaN m || decide (m = 0xFF800000#32) then ls.map (fun _ => nan32)
  else ls.map (fun l => F32.expo (F32.sub l m))

/-- e over the sum of e, added in list order. -/
def normalise (es : List F32) : List F32 :=
  match es with
  | [] => []
  | e :: rest => let z := F32.sumFrom e rest
    es.map (fun x => F32.div x z)

/-- R153 step 1: the experts a cap keeps, by probability summed over the tokens in ascending order. -/
def cappedExperts (e cap : Nat) (tokens : List (List F32)) : List Nat :=
  if cap = 0 then List.range e
  else
    let probs := tokens.map (fun ls => normalise (expWeights ls))
    let sums := tabulate e (fun i => match probs.map (fun p => p.getD i 0#32) with
      | [] => 0#32
      | x :: rest => F32.sumFrom x rest)
    (topK false cap sums).map Prod.snd

/-- R153 step 2: a token's selection among the experts kept, best first. -/
def selectExperts (k : Nat) (keep : List Nat) (ls : List F32) : List Nat :=
  ((sortBy (ranksBefore false) (ls.zipIdx.filter (fun p => keep.contains p.2))).take k).map Prod.snd

/-- R153 step 3: gate weights of a selection. -/
def gateWeights (ls : List F32) (sel : List Nat) : List F32 := normalise (expWeights (sel.map (fun i => ls.getD i 0#32)))

def routeWord (sel : List Nat) : Nat := sel.foldl (fun w i => w ||| 2 ^ i) 0

/-- Logits of token `t`. -/
def State.routeLogits (s : State) (d : SpeDesc) (t : Nat) : List F32 :=
  tabulate (d.p 0) (fun i => s.f32At (d.src0 + 4 * (t * d.p 0 + i)))

/-- The k gate weights of a token: with fewer experts than k the rest are free values, which R153 does not give (log 30, DESIGN CHOICE). -/
def SpeDesc.gates (d : SpeDesc) (n : Nat) (ls : List F32) (sel : List Nat) : List F32 :=
  gateWeights ls sel ++ tabulate (d.p 1 - sel.length) (fun i => BitVec.ofNat 32 (Config.freeNat (n + i)))

/-- Free numbers kept for a ROUTE: the route word of a launch list with several tokens, and eight gate weights a token. -/
def SpeDesc.routeDraws (d : SpeDesc) : Nat := 1 + 8 * d.count

/-- The logits of the token may be read? -/
def State.logitsOk (s : State) (task : Nat) (d : SpeDesc) (t : Nat) : Bool := s.mayRead task (d.src0 + 4 * d.p 0 * t) (4 * d.p 0)

/-- ROUTE token by token; with a cap, every token's logits are read first. A denied access ends it before that access (R152). -/
def route (s : State) (task : Nat) (d : SpeDesc) : SpeResult :=
  let n := d.p 0
  if decide (d.p 2 ≠ 0) && !((List.range d.count).all (s.logitsOk task d)) then faultAt speStart
  else
    let tokens := tabulate d.count (s.routeLogits d)
    let keep := cappedExperts n (d.p 2) tokens
    speLoop speStart (fun r t =>
      if r.status ≠ stOk then some r
      else if !(s.logitsOk task d t) || !(s.mayWrite task (d.dst + 8 * t) 8) then none
      else
        let ls := tokens.getD t []
        let sel := selectExperts (d.p 1) keep ls
        let r1 := { r with writes := r.writes ++ [(d.dst + 8 * t, natLE 8 (routeWord sel))] }
        if s.mayWrite task (d.aux + 32 * t) (4 * d.p 1) then
          some { r1 with
            writes := r1.writes ++ [(d.aux + 32 * t, (d.gates (s.free + 1 + 8 * t) ls sel).flatMap (fun g => natLE 4 g.toNat))]
            count := r.count + 1 }
        else some (faultAt r1)) 0 d.count

/-- R153: the launches of the list whose mask shares a bit with the route word, with that word as their ROUTE, up to an element that the task
may not read; and whether there was one. Neither the launch entry nor the list names the gallery, so the gallery of each list element is an
operand of the command. -/
def State.routeList (s : State) (task : Nat) (d : SpeDesc) (word : Nat) (targets : List Nat) : List (Nat × BitVec 256) × Bool :=
  let ok := (List.range d.p24hi).takeWhile (fun i => s.mayRead task (d.src1 + 64 * i) 64)
  ((ok.filter (fun i => decide (s.readLE (d.src1 + 64 * i + 32) 8 &&& word ≠ 0))).map (fun i =>
      (targets.getD i 0 % 4096, setFld (BitVec.ofNat 256 (s.readLE (d.src1 + 64 * i) 32)) 95 32 word)),
    decide (ok.length < d.p24hi))

/-- Post launches in list order until one finds its queue full (R75); answers those left. -/
def State.postLaunches (s : State) : List (Nat × BitVec 256) → List (Nat × BitVec 256) × State
  | [] => ([], s)
  | (k, l) :: ls =>
    if !(s.gal k).suspect && decide (queueDepth ≤ (s.gal k).queue.length) then ((k, l) :: ls, s)
    else (flightLaunch (k / 512) (k % 512) l .spe .decode s).postLaunches ls

/-- Post what a ROUTE still has to post; the last one completes the descriptor. -/
def State.speLaunch (s : State) (d : SpeDesc) (task : Nat) (x : SpeHold) : State :=
  let (left, s) := s.postLaunches x.launches
  if left.isEmpty then s.speRecord d task x.status x.count x.after else { s with speHold := some { x with launches := left } }

/-- The CAP a ROUTE runs with: while its context is saturated, EXPERT_CAP, which acts as k where it is below k (R146). -/
def State.withCap (s : State) (d : SpeDesc) (task : Nat) : SpeDesc :=
  let c := s.rfld 0xA4000 19 16
  if task < 64 ∧ (s.ctx task).saturated ∧ c ≠ 0 then d.withP 2 (min (max c (d.p 1)) (d.p 0)) else d

def routeRun (targets : List Nat) (s : State) : State :=
  match s.spe with
  | [] => s
  | j :: _ =>
    let d := (SpeDesc.of j.desc).eff s.free
    if d.op ≠ 6 then s
    else match s.speHold with
      | some x => s.speLaunch d j.task x
      | none =>
        let s := s.use effDraws
        let d := s.withCap d j.task
        let r := route s j.task d
        let ls := s.routeLogits d 0
        let word := if d.count = 1 then routeWord (selectExperts (d.p 1) (cappedExperts (d.p 0) (d.p 2) [ls]) ls) else Config.freeNat s.free
        let (after, t) := (s.use d.routeDraws).speWrites d r
        if !(d.flags.testBit 0) || decide (r.status ≠ stOk) then t.speRecord d j.task r.status r.count after
        else
          let t := t.landAll .spe
          let (list, denied) := t.routeList j.task d word targets
          t.speLaunch d j.task { launches := list, after := after, count := r.count, status := if denied then stAccessFault else stOk }

/-- ROUTE (R146, R151 to R153): with a launch list, the SPE posts its launches once the route words and gate weights have arrived, and waits
where a launch queue is full. With FLAGS bit 0 and more than one token, which R153 forbids, the word it posts by is a free value. -/
def execRoute (targets : List Nat) (s : State) : Host.Outcome State Fault Refusal := if s.newWork then next (routeRun targets s) else next s

end Sys2Proof.Machine
end

