-- ==== Sys2Proof/Machine/KvStore.lean ====
section
/-! DEFINITION. The key-value store: pools, tables, pages, the page cache, spill, promotion and parking (R210 to R218, R235 to R245). The
model's own choices: log 33 attention and the key-value store (DEDUCED, DESIGN CHOICE). -/

namespace Sys2Proof.Machine

/-! ### Pools (R218, R235, R236) -/

def slotBytes : Nat := 2304
def maxPositions : Nat := 1048576

/-- First index from `i` on that passes a test, among the next `fuel`. -/
def searchFrom (ok : Nat → Bool) : Nat → Nat → Option Nat
  | 0, _ => none
  | fuel + 1, i => if ok i then some i else searchFrom ok fuel (i + 1)

/-- Slots of a tier's pool. -/
def State.kvSlots (s : State) (tier : Nat) : Nat :=
  if tier = 0 then s.kvGib * gib / slotBytes
  else if tier = 1 then
    (if s.t1Channels.isEmpty then 0 else min (s.rfld 0x98408 23 12 * gib) (s.t1Channels.length * s.t1ChannelBytes) / slotBytes)
  else if bit (s.reg 0x90214) 3 then s.rfld 0x90214 31 8 * gib / slotBytes
  else 0

/-- First byte of a slot of tier 0 or 1 (R218). -/
def kvAddr (tier slot : Nat) : Nat :=
  (if tier = 0 then tier0Base else tier1Base + 64 * Config.kv1Line) + slotBytes * slot

def kvKey (tier slot : Nat) : Nat := 2 ^ 40 * tier + slot

/-- A slot with a byte on a retired channel is unusable (R346). -/
def State.kvUsable (s : State) (tier slot : Nat) : Bool :=
  s.t1Retired.isEmpty || decide (tier ≠ 1) ||
  (List.range 36).all (fun i => !(s.onRetired (kvAddr 1 slot + 64 * i)))

def State.kvFreeSlot (s : State) (tier slot : Nat) : Bool :=
  decide (Tab.get 0 s.kvUsed (kvKey tier slot) = 0) && s.kvUsable tier slot && !(decide (tier = 2) && s.volFailed s.t2KvVol)

/-- Slots of a tier in use. -/
def State.kvHeld (s : State) (tier : Nat) : Nat :=
  (s.kvUsed.filter (fun p => decide (p.1 / 2 ^ 40 = tier))).length

/-- Free slots of a tier (KV_FREE0, KV_FREE1). -/
def State.kvFree (s : State) (tier : Nat) : Nat :=
  if s.t1Retired.isEmpty || decide (tier ≠ 1) then s.kvSlots tier - s.kvHeld tier
  else ((List.range (s.kvSlots 1)).filter (s.kvFreeSlot 1)).length

/-- Take the lowest `n` consecutive free slots of a tier for a stream. -/
def State.kvAlloc (s : State) (tier n stream : Nat) : Option (Nat × State) :=
  let total := s.kvSlots tier
  let ok := fun (i : Nat) => (List.range n).all (fun j => s.kvFreeSlot tier (i + j))
  if total < n then none
  else (searchFrom ok (total - n + 1) 0).map (fun i =>
    (i, (List.range n).foldl (fun s j => { s with kvUsed := Tab.put s.kvUsed (kvKey tier (i + j)) (stream + 1) }) s))

def State.kvRelease (s : State) (tier slot : Nat) : State := { s with kvUsed := Tab.del s.kvUsed (kvKey tier slot) }

/-- Free every slot of a stream in every tier. -/
def State.kvReleaseAll (s : State) (stream : Nat) : State :=
  { s with kvUsed := s.kvUsed.filter (fun p => decide (p.2 ≠ stream + 1))
           kvCache := s.kvCache.filter (fun p => decide (p.2.id.stream ≠ stream))
           fetches := s.fetches.filter (fun f => decide (f.id.stream ≠ stream)) }

/-! ### Slots -/

/-- Bytes of a slot, whatever its tier. -/
def State.slotRead (s : State) (tier slot off n : Nat) : List Byte :=
  if tier ≤ 1 then s.bytes (kvAddr tier slot + off) n
  else tabulate n (fun i => s.t2Byte s.t2KvVol (slotBytes * slot + off + i))

def State.slotWrite (s : State) (tier slot off : Nat) (bs : List Byte) : State :=
  if tier ≤ 1 then s.writeBytes (kvAddr tier slot + off) bs
  else s.t2Write s.t2KvVol (slotBytes * slot + off) bs

/-- Does a range of a slot hold a marked line? -/
def State.slotMarked (s : State) (tier slot off n : Nat) : Bool := decide (tier ≤ 1) && s.anyMarked (kvAddr tier slot + off) n

/-! ### Directories and page tables (R215 to R217) -/

def State.setTokens (s : State) (d l n : Nat) : State := s.writeLE (d + 64 + 4 * l) 4 n

/-- First chunk pair of a directory (R215). -/
def chunkTable (layers : Nat) : Nat := roundLine (64 + 4 * layers)
/-- Bytes of a directory. -/
def dirBytes (layers : Nat) : Nat := chunkTable layers + 1024 * layers

/-- Address of the word that holds the page-table chunk address (`ix` 0) or index chunk address (`ix` 1). -/
def State.chunkWord (s : State) (d l k ix : Nat) : Nat := d + chunkTable (s.dirLayers d) + 1024 * l + 16 * k + 8 * ix
def State.chunkAddr (s : State) (d l k ix : Nat) : Nat := s.readLE (s.chunkWord d l k ix) 8

def chunkBytes (hkv ix : Nat) : Nat := if ix = 0 then 8192 * hkv else 69632 * hkv

/-- A page-table entry (R216). -/
structure PtEntry where
  tier : Nat
  valid : Bool
  moving : Bool
  pinned : Bool
  cached : Bool
  slot : Nat
  cslot : Nat
  deriving DecidableEq, Repr

def PtEntry.of (w : Nat) : PtEntry where
  tier := w % 4
  valid := w.testBit 2
  moving := w.testBit 3
  pinned := w.testBit 4
  cached := w.testBit 5
  slot := w / 2 ^ 8 % 2 ^ 38
  cslot := w / 2 ^ 46 % 2 ^ 18

def PtEntry.bits (e : PtEntry) : Nat :=
  e.tier + 4 * b2n e.valid + 8 * b2n e.moving + 16 * b2n e.pinned + 32 * b2n e.cached + e.slot * 2 ^ 8 + e.cslot * 2 ^ 46

/-- Address of a page's entry; none where no chunk covers it. -/
def State.entryAddr (s : State) (i : PageId) : Option Nat :=
  let d := (s.stream i.stream).kvDir
  let c := s.chunkAddr d i.layer (i.page / 1024) 0
  if d = 0 ∨ c = 0 then none else some (c + ((i.page % 1024) * s.dirHkv d + i.head) * 8)

def State.pte (s : State) (i : PageId) : PtEntry :=
  match s.entryAddr i with
  | some a => PtEntry.of (s.readLE a 8)
  | none => PtEntry.of 0

def State.setPte (s : State) (i : PageId) (e : PtEntry) : State :=
  match s.entryAddr i with
  | some a => s.writeLE a 8 e.bits
  | none => s

/-- Is control data the store needs for a layer of a stream marked (R343)? -/
def State.kvControlMarked (s : State) (stream layer : Nat) : Bool :=
  let d := (s.stream stream).kvDir
  s.anyMarked d (dirBytes (s.dirLayers d)) ||
  (List.range 64).any (fun k =>
    let c := s.chunkAddr d layer k 0
    decide (c ≠ 0) && s.anyMarked c (chunkBytes (s.dirHkv d) 0))

/-- Create a stream's directory in tier 0 (R215, R236). -/
def State.newDirectory (s : State) (stream ctx layers : Nat) : Option State :=
  (s.kvAlloc 0 (cdiv (dirBytes layers) slotBytes) stream).map (fun (i, s) =>
    let d := kvAddr 0 i
    let s := s.zeroBytes d (dirBytes layers)
    let s := ((s.writeLE d 2 layers).writeLE (d + 3) 1 ctx).writeLE (d + 4) 2 stream
    s.modStream stream (fun x => { x with kvDir := d }))

/-- Create one chunk where it is missing (R215). -/
def State.needChunk (s : State) (stream layer k hkv ix : Nat) : Option State :=
  let d := (s.stream stream).kvDir
  if s.chunkAddr d layer k ix ≠ 0 then some s
  else (s.kvAlloc 0 (cdiv (chunkBytes hkv ix) slotBytes) stream).map (fun (i, s) =>
    (s.zeroBytes (kvAddr 0 i) (chunkBytes hkv ix)).writeLE (s.chunkWord d layer k ix) 8 (kvAddr 0 i))

/-! ### Shipping pages (R242, R260, R271) -/

/-- Zemlink links one shipment uses at most (SRV_ROLE.SHIP_LINKS; 0 acts as 1). -/
def State.shipLinks (s : State) : Nat := max 1 (s.rfld 0xA6000 11 8)

/-- Ship the slots of pages to a package as WRITE messages, over as many flows as the shipment has links, which the routes of R354 spread
over the links; the last of each flow with END (R242, R260). -/
def State.shipPages (s : State) (pkg : Nat) (is : List PageId) : State :=
  let k := s.shipLinks
  (is.zipIdx).foldl (fun s (i, n) =>
    let e := s.pte i
    if e.valid then s.handFab 1 (b2n (decide (is.length ≤ n + k))) pkg (n % k) 0 (s.slotRead e.tier e.slot 0 slotBytes) else s) s

/-- Pages of a layer that sealed while its TOKENS rose from `a` to `b`. -/
def State.sealedBetween (s : State) (st l a b : Nat) : List PageId :=
  (List.range (s.dirHkv (s.stream st).kvDir)).flatMap (fun h => (List.range (b / 16 - a / 16)).map (fun p =>
    { stream := st, layer := l, head := h, page := a / 16 + p }))

/-- R271: while mirrored, every page goes to the standby as it seals. -/
def State.mirrorSealed (s : State) (st l a b : Nat) : State :=
  let x := s.stream st
  if x.mirrored then s.shipPages x.peer (s.sealedBetween st l a b) else s

/-- Is every page of the first `n` positions present, on every layer and head (R260, R272)? -/
def State.allPages (s : State) (st n : Nat) : Bool :=
  let d := (s.stream st).kvDir
  decide (d ≠ 0) && (List.range (s.dirLayers d)).all (fun l => decide (n ≤ s.dirTokens d l) &&
    (List.range (s.dirHkv d)).all (fun h => (List.range (cdiv n 16)).all (fun p =>
      (s.pte { stream := st, layer := l, head := h, page := p }).valid)))

/-! ### Tokens of a page (R210 to R214) -/

/-- Key and value of one token, four blocks each. -/
structure KvTok where
  k : List QBlock
  v : List QBlock
  deriving DecidableEq, Repr

/-- One half of a token from its data line and its four scale bytes; poison where `bad`. -/
def halfOf (bad : Bool) (data sc : List Byte) : List QBlock :=
  tabulate 4 (fun b => {
    scale := if bad then 0xF8#8 else sc.getD b 0#8,
    codes := (unpackBlock 4 ((data.drop (16 * b)).take 16)).map (signed 4) })

/-- One half of a token in its home slot: poison where a line is marked. -/
def State.tokHalf (s : State) (tier slot base t : Nat) : List QBlock :=
  halfOf (s.slotMarked tier slot (base + 64 * t) 64 || s.slotMarked tier slot (base + 0x400) 64)
    (s.slotRead tier slot (base + 64 * t) 64) (s.slotRead tier slot (base + 0x400 + 4 * t) 4)

/-- A token as the home slot holds it. -/
def State.pageTok (s : State) (e : PtEntry) (t : Nat) : KvTok :=
  { k := s.tokHalf e.tier e.slot 0 t, v := s.tokHalf e.tier e.slot 0x440 t }

/-- A token as a copy of the page holds it. -/
def copyTok (bs : List Byte) (t : Nat) : KvTok :=
  let half := fun (base : Nat) => halfOf false ((bs.drop (base + 64 * t)).take 64) ((bs.drop (base + 0x400 + 4 * t)).take 4)
  { k := half 0, v := half 0x440 }

/-- R238: a token as an engine reads it: from the copy in the page cache. -/
def State.engineTok (s : State) (e : PtEntry) (t : Nat) : KvTok :=
  match (if e.cached then Tab.find s.kvCache e.cslot else none) with
  | some c => copyTok c.copy t
  | none => s.pageTok e t

/-- Bytes of a list replaced from an offset on. -/
def patch (xs : List Byte) (off : Nat) (bs : List Byte) : List Byte := xs.take off ++ bs ++ xs.drop (off + bs.length)

/-- R238: write part of a page: its home slot, and in the same write its copy in the page cache. -/
def State.pageWrite (s : State) (e : PtEntry) (off : Nat) (bs : List Byte) : State :=
  let s := s.slotWrite e.tier e.slot off bs
  match (if e.cached then Tab.find s.kvCache e.cslot else none) with
  | some c => { s with kvCache := Tab.put s.kvCache e.cslot { c with copy := patch c.copy off bs } }
  | none => s

/-- The cache slot that holds the part of a page's index chunk with an offset in it (R217, R239). -/
def State.indexPart (s : State) (i : PageId) (off : Nat) : Option (Nat × CacheSlot) :=
  s.kvCache.find? (fun (_, c) => decide (c.id = { i with head := 0, page := 1024 * (i.page / 1024) }) &&
    decide (c.part = some (off / slotBytes)))

/-- Write part of a page's index chunk, in tier 0 and in its copy (R214, R217). -/
def State.indexWrite (s : State) (i : PageId) (off : Nat) (bs : List Byte) : State :=
  let ix := s.chunkAddr (s.stream i.stream).kvDir i.layer (i.page / 1024) 1
  if ix = 0 then s
  else
    let s := s.writeBytes (ix + off) bs
    match s.indexPart i off with
    | some (n, c) => { s with kvCache := Tab.put s.kvCache n { c with copy := patch c.copy (off % slotBytes) bs } }
    | none => s

/-- Copy a page's summary to the gazetteer index (R214, R217). -/
def State.putSummary (s : State) (i : PageId) (codes scales : List Byte) : State :=
  (s.indexWrite i (i.head * 69632 + 64 * (i.page % 1024)) codes).indexWrite i (i.head * 69632 + 65536 + 4 * (i.page % 1024)) scales

def halfBytes (bs : List QBlock) : List Byte := bs.flatMap (fun b => packBlock 4 b.codes)

/-- R242: CRC of a slot: lines 0 to 33, line 35, bytes 0 to 59 of line 34 (R212). -/
def State.slotCrc (s : State) (tier slot : Nat) : Nat :=
  (crc32c (s.slotRead tier slot 0 0x880 ++ s.slotRead tier slot 0x8C0 64 ++ s.slotRead tier slot 0x880 60)).toNat

/-- R214: seal a page and copy its summary to the gazetteer index. -/
def State.sealPage (s : State) (i : PageId) (e : PtEntry) : State :=
  let toks := tabulate 16 (fun t => (s.pageTok e t).k)
  let dim := fun (d : Nat) => match toks.map (fun bs => let b := bs.getD (d / 32) { scale := 0#8, codes := [] }
      dequant (b.codes.getD (d % 32) 0) b.scale) with
    | [] => 0#32
    | x :: xs => F32.mul (F32.sumFrom x xs) 0x3D800000#32
  let sum := tabulate 4 (fun b => quantBlock .a4 (tabulate 32 (fun j => dim (32 * b + j))) none)
  let codes := halfBytes sum
  let scales := sum.map QBlock.scale
  let s := (((s.pageWrite e 0x8C0 codes).pageWrite e 0x88C scales).pageWrite e 0x886 [1#8]).pageWrite e 0x890 (natLE 8 s.time.toNat)
  (s.pageWrite e 0x8BC (natLE 4 (s.slotCrc e.tier e.slot))).putSummary i codes scales

/-- Create page `i` in a free tier-0 slot (R212, R237). -/
def State.newPage (s : State) (i : PageId) (hkv ctx : Nat) : Option State :=
  (s.needChunk i.stream i.layer (i.page / 1024) hkv 0).bind (fun s =>
    (s.needChunk i.stream i.layer (i.page / 1024) hkv 1).bind (fun s =>
      (s.kvAlloc 0 1 i.stream).map (fun (slot, s) =>
        let s := (s.zeroBytes (kvAddr 0 slot) slotBytes).slotWrite 0 slot 0x880 (natLE 2 i.stream ++ [BitVec.ofNat 8 ctx, BitVec.ofNat 8 i.layer,
          BitVec.ofNat 8 i.head, 0#8, 0#8, 0#8] ++ natLE 2 i.page)
        s.setPte i { tier := 0, valid := true, moving := false, pinned := true, cached := false, slot := slot, cslot := 0 })))

/-- R213: append one token's key and value at a position for one head; none when no tier-0 slot is free. -/
def State.appendTok (s : State) (stream layer head hkv ctx pos : Nat) (x : KvTok) : Option State :=
  let i : PageId := { stream := stream, layer := layer, head := head, page := pos / 16 }
  let t := pos % 16
  (if (s.pte i).valid then some s else s.newPage i hkv ctx).map (fun s =>
    let e := s.pte i
    let s := ((((s.pageWrite e (64 * t) (halfBytes x.k)).pageWrite e (0x400 + 4 * t) (x.k.map QBlock.scale)).pageWrite e
      (0x440 + 64 * t) (halfBytes x.v)).pageWrite e (0x840 + 4 * t) (x.v.map QBlock.scale)).pageWrite e 0x885 [BitVec.ofNat 8 (t + 1)]
    if t = 15 then s.sealPage i e else s)

/-! ### The page cache (R238 to R242) -/

/-- Pages that units of started jobs still need. -/
def State.pageNeeded (s : State) (i : PageId) : Bool :=
  s.attRuns.any (fun r => r.ended.isNone && r.units.any (fun u => !u.done && decide (u.head = i.head) && u.pages.contains i.page &&
    (let d := r.job.desc
     decide (dnum d 10 10 = i.layer) && (if dnum d 0 0 = 1 then decide (dnum d 12 13 = i.stream)
      else decide (s.readLE (64 * dnum d 56 59 + 16 * u.entry) 2 = i.stream)))))

/-- Cache slots of the page cache. -/
def State.cacheSlots (s : State) : Nat := s.rfld 0x98400 17 0

/-- The slot a fetch takes: the lowest free one, else the least recently read that may leave (R238). -/
def State.cacheVictim (s : State) : Option Nat :=
  match searchFrom (fun i => (Tab.find s.kvCache i).isNone) s.cacheSlots 0 with
  | some i => some i
  | none =>
    (s.kvCache.foldl (fun (best : Option (Nat × Nat)) (i, c) =>
      if c.held || (c.part.isNone && s.pageNeeded c.id) then best
      else match best with
        | some (_, t) => if c.lastRead < t then some (i, c.lastRead) else best
        | none => some (i, c.lastRead)) none).map Prod.fst

/-- Drop what a cache slot holds. -/
def State.evict (s : State) (i : Nat) : State :=
  match Tab.find s.kvCache i with
  | none => s
  | some c =>
    let s := if c.part.isNone then s.setPte c.id { s.pte c.id with cached := false, cslot := 0 } else s
    { s with kvCache := Tab.del s.kvCache i }

/-- Put a copy into the slot a fetch takes; none while no slot may be taken. -/
def State.cachePut (s : State) (c : CacheSlot) : Option (Nat × State) :=
  s.cacheVictim.map (fun n => let s := s.evict n
    (n, { s with kvCache := Tab.put s.kvCache n c }))

/-! ### Fetches (R239, R240) -/

/-- R216, R248: a page that the mover is fetching is MOVING. -/
def State.setMoving (s : State) (b : Bool) (i : PageId) : State := s.setPte i { s.pte i with moving := b }

/-- Drop the fetches that pass a test; their pages are MOVING no more. -/
def State.dropFetches (s : State) (p : Fetch → Bool) : State :=
  let gone := (s.fetches.filter (fun f => p f && !f.index)).map Fetch.id
  gone.foldl (State.setMoving · false) { s with fetches := s.fetches.filter (fun f => !(p f)) }

/-- Percentage test of R241: are the free slots of a tier, less `n`, below `pct` %? -/
def State.freeBelow (s : State) (tier n pct : Nat) : Bool := decide (100 * (s.kvFree tier - n) < pct * s.kvSlots tier)

/-- Move a page's slot to another tier (R235); none when that tier has no free slot. -/
def State.movePage (s : State) (i : PageId) (tier : Nat) : Option State :=
  let e := s.pte i
  if !e.valid then none
  else (s.kvAlloc tier 1 i.stream).map (fun (slot, s) =>
    let s := s.slotWrite tier slot 0 (s.slotRead e.tier e.slot 0 slotBytes)
    let s := if s.slotMarked e.tier e.slot 0 slotBytes ∧ tier ≤ 1 then
        (List.range 36).foldl (fun s j => if s.slotMarked e.tier e.slot (64 * j) 64 then s.markLine (kvAddr tier slot + 64 * j) else s) s
      else s
    (s.kvRelease e.tier e.slot).setPte i { e with tier := tier, slot := slot, moving := false })

/-- R25, R242: every K and V scale of a slot becomes poison, and every code of its blocks 0. -/
def State.poisonSlot (s : State) (e : PtEntry) : State :=
  let half := List.replicate 1024 0#8 ++ List.replicate 64 0xF8#8
  (s.pageWrite e 0 half).pageWrite e 0x440 half

/-- R242, R344: a page arrived with an error: KIND 2 for a tier-2 read or CRC, KIND 0 for an access to tier 0 or 1. -/
def State.raiseSlotError (s : State) (i : PageId) (e : PtEntry) : State :=
  let lba := slotBytes * e.slot / 4096
  let ctx := some (s.stream i.stream).context
  if e.tier = 2 then s.raiseUe memTier2 (s.t2Port s.t2KvVol lba) 2 lba ctx
  else s.raiseUe (if e.tier = 1 then 10 else 9) (s.eccUnit (kvAddr e.tier e.slot)) 0 ((kvAddr e.tier e.slot - memBase (9 + e.tier)) / 64) ctx

/-- R242, R344: a shipped slot fails its CRC: KIND 2, raised by the correction die; the memory named is the one that took the slot. -/
def State.raiseSlotCrc (s : State) (i : PageId) (e : PtEntry) : State :=
  let mem := if e.tier = 2 then memTier2 else 9 + e.tier
  let line := if e.tier = 2 then slotBytes * e.slot / 4096 else (kvAddr e.tier e.slot - memBase mem) / 64
  (s.bump (0x90104 + 8 * mem) 1).raise evEccUncorrected 8 (some (s.stream i.stream).context) (mem + 2 * 2 ^ 8 + (line % 2 ^ 40) * 2 ^ 24)

/-- R242: would one page more in tier 0 leave its free slots above T0_LOW %? -/
def State.promotes (s : State) : Bool :=
  decide (1 ≤ s.kvFree 0) && decide (s.rfld 0x98404 7 0 * s.kvSlots 0 < 100 * (s.kvFree 0 - 1))

/-- R242, R343: does a sealed slot in tier 2 fail its CRC? -/
def State.slotCrcBad (s : State) (e : PtEntry) : Bool :=
  decide (e.tier = 2) && (leNat (s.slotRead 2 e.slot 0x886 1)).testBit 0 &&
  decide (leNat (s.slotRead 2 e.slot 0x8BC 4) ≠ s.slotCrc 2 e.slot)

/-- R242: a page as it arrives: one with an error is poisoned; an error not marked before raises ECC_UNCORRECTED (R344). -/
def State.arriving (s : State) (i : PageId) (bad : Bool) : State :=
  let e := s.pte i
  let known := s.slotMarked e.tier e.slot 0 slotBytes
  if bad || s.slotCrcBad e then (s.poisonSlot e).raiseSlotError i e
  else if known then s.poisonSlot e
  else s

/-- Parts of an index chunk of a stream whose layers have `hkv` heads. -/
def indexParts (hkv : Nat) : Nat := cdiv (chunkBytes hkv 1) slotBytes

/-- The index chunk at the head of the fetches arrives, and takes as many slots of the cache as it has parts (R239). One with an
error stays in tier 0 alone; nothing happens while slots are missing. -/
def State.indexArrives (s : State) (f : Fetch) (rest : List Fetch) (bad : Bool) : State :=
  let d := (s.stream f.id.stream).kvDir
  let a := s.chunkAddr d f.id.layer (f.id.page / 1024) 1
  let n := chunkBytes (s.dirHkv d) 1
  let done := { s with fetches := rest }
  if d = 0 ∨ a = 0 ∨ s.anyMarked a n = true then done
  else if bad then done.markFound a 0 (some (s.stream f.id.stream).context)
  else
    ((List.range (indexParts (s.dirHkv d))).foldl (fun (acc : Option State) j => acc.bind (fun t =>
      if (t.indexPart f.id (slotBytes * j)).isSome then some t
      else (t.cachePut { id := f.id, part := some j, lastRead := t.now, held := !f.demand,
                         copy := s.bytes (a + slotBytes * j) (min slotBytes (n - slotBytes * j)) }).map Prod.snd)) (some done)).getD s

/-- R239, R240, R242: the page or index chunk at the head of the fetches arrives; `bad` says that its read found an error. -/
def pageFetchDone (bad : Bool) (s : State) : State :=
  match s.fetches with
  | [] => s
  | f :: rest =>
    if f.index then s.indexArrives f rest bad
    else
      let e := s.pte f.id
      if !e.valid || e.cached then { s with fetches := rest }
      else match s.cacheVictim with
        | none => s
        | some c =>
          let s := ({ s.evict c with fetches := rest }).arriving f.id bad
          let s := s.setPte f.id { s.pte f.id with moving := false, cached := true, cslot := c }
          let s := { s with kvCache := Tab.put s.kvCache c { id := f.id, part := none, lastRead := s.now, held := !f.demand,
                                                             copy := s.slotRead e.tier e.slot 0 slotBytes } }
          if decide (1 ≤ e.tier) && s.promotes then
            (match s.movePage f.id 0 with
             | some s => s.bump 0x98424 1
             | none => s)
          else s

/-- PAGE_FETCH_DONE (R238 to R242). -/
def execPageFetchDone (bad : Bool) (s : State) : Host.Outcome State Fault Refusal := next (pageFetchDone bad s)

/-! ### Spill (R241) -/

/-- Layers, heads and newest page position of a stream's store. -/
def State.kvShape (s : State) (stream : Nat) : Nat × Nat × Nat :=
  let d := (s.stream stream).kvDir
  if d = 0 then (0, 0, 0)
  else
    let ls := s.dirLayers d
    (ls, s.dirHkv d, ((List.range ls).map (fun l => cdiv (s.dirTokens d l) 16)).foldl max 0)

/-- Pages of a stream in the order of R241: position, layer, head. -/
def State.pagesOf (s : State) (stream : Nat) : List PageId :=
  let (ls, hs, ps) := s.kvShape stream
  (List.range ps).flatMap (fun p => (List.range ls).flatMap (fun l => (List.range hs).map (fun h =>
    { stream := stream, layer := l, head := h, page := p })))

/-- Streams whose tables are in tier 0, by the time of their last step. -/
def State.spillStreams (s : State) : List Nat :=
  (sortBy (fun x y => decide (x.2.lastStep.toNat ≤ y.2.lastStep.toNat)) (s.streams.filter (fun x => decide (x.2.kvDir ≠ 0)))).map Prod.fst

def State.spillable (s : State) (tier : Nat) (i : PageId) : Bool :=
  let e := s.pte i
  e.valid && decide (e.tier = tier) && !e.pinned && !e.moving && !(s.pageNeeded i)

/-- Spill pages of a tier in order until its free slots reach `high` %. -/
def State.spillFrom (s : State) (tier high : Nat) : State :=
  (s.spillStreams.flatMap s.pagesOf).foldl (fun s i =>
    if !(s.freeBelow tier 0 high) || !(s.spillable tier i) then s
    else match s.movePage i (tier + 1) with
      | some s => s.bump 0x98420 1
      | none => s) s

/-- Could any page leave tier 0 (R237)? -/
def State.canSpill (s : State) : Bool :=
  (s.spillStreams.flatMap s.pagesOf).any (fun i =>
    (s.spillable 0 i && decide (0 < s.kvFree 1)) || (s.spillable 1 i && decide (0 < s.kvFree 2)))

def pageSpill (s : State) : State :=
  let s := if s.freeBelow 1 0 (s.rfld 0x98404 23 16) then s.spillFrom 1 (s.rfld 0x98404 31 24) else s
  if s.freeBelow 0 0 (s.rfld 0x98404 7 0) then s.spillFrom 0 (s.rfld 0x98404 15 8) else s

/-- PAGE_SPILL (R241). -/
def execPageSpill (s : State) : Host.Outcome State Fault Refusal := next (pageSpill s)

/-! ### Parking (R243 to R245) -/

def State.park (s : State) (st : Nat) : Option Park := Tab.find s.parks st
def State.setPark (s : State) (st : Nat) (p : Park) : State := { s with parks := Tab.put s.parks st p }

/-- Does an attention job touch a stream? -/
def AttJob.touches (s : State) (j : AttJob) (st : Nat) : Bool :=
  let d := j.desc
  if dnum d 0 0 = 1 then decide (dnum d 12 13 = st)
  else if dnum d 0 0 = 2 then (List.range (dnum d 14 15)).any (fun i => decide (s.readLE (64 * dnum d 56 59 + 16 * i) 2 = st))
  else false

def AttRun.unfinished (now : Nat) (r : AttRun) : Bool := match r.ended with | none => true | some t => decide (now < t)

/-- Jobs of a stream that are queued or running. -/
def State.jobsOf (s : State) (st : Nat) : Bool :=
  s.attQueue.any (fun j => j.touches s st) || s.attRuns.any (fun r => r.unfinished s.now && r.job.touches s st)

/-- Is a job of a stream's layer queued or running? -/
def State.layerBusy (s : State) (st l : Nat) : Bool :=
  let mine := fun (j : AttJob) => decide (dnum j.desc 10 10 = l) && j.touches s st
  s.attQueue.any mine || s.attRuns.any (fun r => r.unfinished s.now && mine r.job)

/-- R258: is a stream within a decode step: has a layer's DECODE job ended since its latest token? -/
def State.inStep (s : State) (st : Nat) : Bool := let x := s.stream st
  decide (x.state = .decode) && decide (x.work.layer ≠ 0)

/-- The instant from which no job of a stream is unfinished; none while one is queued or has no end yet. -/
def State.jobsClear (s : State) (st : Nat) : Option Nat :=
  if s.attQueue.any (fun j => j.touches s st) then none
  else (s.attRuns.filter (fun r => r.job.touches s st)).foldl (fun acc r => acc.bind (fun t => r.ended.map (max t))) (some s.now)

/-- Chunks of a stream, page tables first: address and bytes. -/
def State.chunksOf (s : State) (st : Nat) : List (Nat × Nat × Nat × Nat) :=
  let d := (s.stream st).kvDir
  [0, 1].flatMap (fun ix => (List.range (s.dirLayers d)).flatMap (fun l => (List.range 64).filterMap (fun k =>
    if s.chunkAddr d l k ix = 0 then none else some (l, k, ix, s.chunkAddr d l k ix))))

/-- The park record after its header: directory, page-table chunks, index chunks (R243). -/
def State.parkRecord (s : State) (st : Nat) : List Byte :=
  let d := (s.stream st).kvDir
  s.bytes d (dirBytes (s.dirLayers d)) ++
  (s.chunksOf st).flatMap (fun (_, _, ix, a) => s.bytes a (chunkBytes (s.dirHkv d) ix))

/-- Bytes over consecutive slots of a tier. -/
def State.runWrite (s : State) (tier slot : Nat) (bs : List Byte) : State := s.slotWrite tier slot 0 bs

/-- Free the tier-0 slots of a range of bytes of the pool. -/
def State.releaseRange (s : State) (a n : Nat) : State :=
  (List.range (cdiv n slotBytes)).foldl (fun s i => s.kvRelease 0 ((a - tier0Base) / slotBytes + i)) s

/-- Free a stream's tier-0 tables. -/
def State.releaseTables (s : State) (st : Nat) : State :=
  let d := (s.stream st).kvDir
  let hkv := s.dirHkv d
  let cs := s.chunksOf st
  let n := dirBytes (s.dirLayers d)
  let s := cs.foldl (fun s (_, _, ix, a) => s.releaseRange a (chunkBytes hkv ix)) s
  (s.releaseRange d n).modStream st (fun x => { x with kvDir := 0 })

/-- Evict every page of a stream from the cache. -/
def State.evictStream (s : State) (st : Nat) : State :=
  ((s.kvCache.filter (fun c => decide (c.2.id.stream = st))).map Prod.fst).foldl State.evict
    (s.dropFetches (fun f => decide (f.id.stream = st)))

/-- R243: move pages down to the target, write the record, free the tables; none while the target has no room. -/
def State.parkStream (s : State) (st : Nat) (p : Park) : Option State :=
  let s := s.evictStream st
  let moved := (s.pagesOf st).foldl (fun (acc : Option State) i => acc.bind (fun s =>
    let e := s.pte i
    if e.valid && decide (e.tier < p.tier) then s.movePage i p.tier else some s)) (some s)
  moved.bind (fun s =>
    let rec_ := s.parkRecord st
    (s.kvAlloc p.tier (cdiv (64 + rec_.length) slotBytes) st).map (fun (slot, s) =>
      let exp := s.time.toNat + p.ttl * 10 ^ 9
      let head := natLE 2 st ++ [BitVec.ofNat 8 (s.stream st).context, BitVec.ofNat 8 p.tier] ++ natLE 4 p.ttl ++ natLE 8 exp ++
        natLE 8 rec_.length ++ List.replicate 40 0#8
      let s := (s.runWrite p.tier slot (head ++ rec_)).releaseTables st
      let s := s.modStream st (fun x => { x with parkedFrom := x.state, state := .parked })
      (s.setPark st { p with cmd := none, expires := exp, slot := slot, bytes := rec_.length, parked := true }).bump 0x98428 1))

def parkComplete (st : Nat) (s : State) : State :=
  match s.park st with
  | none => s
  | some p =>
    match (if p.parked || s.inStep st then none else s.jobsClear st) with
    | none => s
    | some t => match (s.at t).parkStream st p with
      | none => s
      | some s => match p.cmd with
        | some e => s.complete e stOk 0
        | none => s

/-- PARK_COMPLETE (R243, R252): the jobs of the stream are done, and its step with them; it is PARKED, the command completes. -/
def execParkComplete (st : Nat) (s : State) : Host.Outcome State Fault Refusal := next (parkComplete st s)

/-- Sink, window and newest pages under the context's settings (R229): `c` is the newest page. -/
def State.isPinned (s : State) (ctx c p : Nat) : Bool :=
  let ks := min (s.rfld (0x98000 + 16 * ctx) 15 13) 4
  let w := min 2048 (s.rfld (0x98004 + 16 * ctx) 27 16) / 16
  decide (p < ks) || (decide (max ks (c - w) ≤ p) && decide (p ≤ c)) || decide (p = c)

/-- Newest page position of a layer, none when the layer is empty. -/
def State.newestPage (s : State) (st l : Nat) : Option Nat :=
  let n := s.dirTokens (s.stream st).kvDir l
  if n = 0 then none else some ((n - 1) / 16)

/-- Recompute PINNED over a layer's pages (R229, R248). -/
def State.repin (s : State) (st l : Nat) : State :=
  match s.newestPage st l with
  | none => s
  | some c =>
    let ctx := (s.stream st).context
    (List.range (s.dirHkv (s.stream st).kvDir)).foldl (fun s h => (List.range (c + 1)).foldl (fun s p =>
      let i : PageId := { stream := st, layer := l, head := h, page := p }
      let e := s.pte i
      let b := s.isPinned ctx c p
      if e.valid && e.pinned != b then s.setPte i { e with pinned := b } else s) s) s

/-- R245: restore a parked stream's tables and pinned pages to tier 0; none when slots are short. -/
def State.resumeStream (s : State) (st : Nat) (p : Park) : Option State :=
  let all := s.slotRead p.tier p.slot 64 p.bytes
  let layers := leNat (all.take 2)
  let hkv := leNat ((all.drop 2).take 1)
  let dn := dirBytes layers
  (s.kvAlloc 0 (cdiv dn slotBytes) st).bind (fun (i, s) =>
    let d := kvAddr 0 i
    let s := (s.writeBytes d (all.take dn)).modStream st (fun x => { x with kvDir := d })
    let step := fun (acc : Option (Nat × State)) (c : Nat × Nat × Nat × Nat) => acc.bind (fun (off, s) =>
      let (l, k, ix, _) := c
      let n := chunkBytes hkv ix
      (s.kvAlloc 0 (cdiv n slotBytes) st).map (fun (j, s) =>
        (off + n, (s.writeBytes (kvAddr 0 j) ((all.drop off).take n)).writeLE (s.chunkWord d l k ix) 8 (kvAddr 0 j))))
    ((s.chunksOf st).foldl step (some (dn, s))).bind (fun (_, s) =>
      let s := (List.range (cdiv (64 + p.bytes) slotBytes)).foldl (fun s j => s.kvRelease p.tier (p.slot + j)) s
      let s := (List.range layers).foldl (fun s l => s.repin st l) s
      (s.pagesOf st).foldl (fun (acc : Option State) i => acc.bind (fun s =>
        let e := s.pte i
        if e.valid && e.pinned && decide (e.tier ≠ 0) then s.movePage i 0 else some s)) (some s)))

def resumeComplete (st : Nat) (s : State) : State :=
  match s.park st with
  | none => s
  | some p => match (if p.parked then p.resume else none) with
    | none => s
    | some e => match s.resumeStream st p with
      | some s =>
        let s := s.modStream st (fun x => { x with state := x.parkedFrom, parkedFrom := .free })
        { s with parks := Tab.del s.parks st }.complete e stOk 0
      | none => if s.canSpill then s else (s.setPark st { p with resume := none }).complete e stNoCapacity 0

/-- RESUME_COMPLETE (R245): tables and pinned pages are in tier 0; the stream returns to the state it parked from. -/
def execResumeComplete (st : Nat) (s : State) : Host.Outcome State Fault Refusal := next (resumeComplete st s)

def parkExpiry (st : Nat) (s : State) : State :=
  match s.park st with
  | none => s
  | some p =>
    if !p.parked || p.resume.isSome then s
    else
      let tb := s.tbStart.getD 0
      let s := s.at (tb + 12 * p.expires)
      let s := (s.kvReleaseAll st).setStream st Stream.reset
      { s with parks := Tab.del s.parks st }.bump 0x9842C 1

/-- PARK_EXPIRY (R244, R252): the park's slots and record are freed, and its stream is FREE. -/
def execParkExpiry (st : Nat) (s : State) : Host.Outcome State Fault Refusal := next (parkExpiry st s)

end Sys2Proof.Machine
end

