-- ==== Sys2Proof/Machine/Attention.lean ====
section
/-! DEFINITION. Attention jobs: descriptors, units, score and softmax arithmetic, the gazetteer, prefill and the backward pass (R219 to
R234, R239, R240, R246, R247). The model's own choices: log 20 full queues (DEDUCED); log 33 attention and the key-value store (DEDUCED,
DESIGN CHOICE). -/

namespace Sys2Proof.Machine

/-! ### Descriptors (R221) -/

structure AttDesc where
  op : Nat
  stats : Bool
  mask : Bool
  nokv : Bool
  flagRest : Nat
  tag : Nat
  ctx : Nat
  hkv : Nat
  group : Nat
  bucket : Nat
  outFmt : Nat
  rank : Nat
  layer : Nat
  stream : Nat
  count : Nat
  qkv : Nat
  out : Nat
  halls : Nat
  outCounter : Nat
  inCounter : Nat
  inWait : Bool
  inValue : Nat
  maskAddr : Nat
  statsAddr : Nat
  aux : Nat
  comp : Nat
  deriving DecidableEq, Repr

def AttDesc.of (d : BitVec 512) : AttDesc where
  op := dnum d 0 0
  stats := (dnum d 1 1).testBit 0
  mask := (dnum d 1 1).testBit 1
  nokv := (dnum d 1 1).testBit 2
  flagRest := dnum d 1 1 / 8
  tag := dnum d 2 3
  ctx := dnum d 4 4 % 64
  hkv := dnum d 5 5
  group := dnum d 6 6
  bucket := dnum d 7 7
  outFmt := dnum d 8 8
  rank := dnum d 9 9
  layer := dnum d 10 10
  stream := dnum d 12 13
  count := dnum d 14 15
  qkv := dnum d 16 23
  out := dnum d 24 31
  halls := dnum d 32 32
  outCounter := dnum d 34 35 % 4096
  inCounter := dnum d 36 37 % 4096
  inWait := (dnum d 36 37).testBit 15
  inValue := dnum d 38 39
  maskAddr := dnum d 40 47
  statsAddr := dnum d 48 55
  aux := dnum d 56 59
  comp := dnum d 60 63

/-- Query heads of a token. -/
def AttDesc.heads (d : AttDesc) : Nat := d.hkv * d.group
/-- Elements of a QKV row. -/
def AttDesc.rowElems (d : AttDesc) : Nat := (d.heads + 2 * d.hkv) * 128

/-- An entry of a job: stream, first position, tokens, first QKV row (R233). -/
structure AttEntry where
  stream : Nat
  first : Nat
  len : Nat
  row : Nat
  deriving DecidableEq, Repr

/-- Line addresses of a BACKWARD block: byte address in word `i` (R247). -/
def State.auxLine (s : State) (d : AttDesc) (i : Nat) : Nat := 64 * s.readLE (64 * d.aux + 8 * i) 8

/-- The entries of a job. -/
def State.attEntries (s : State) (d : AttDesc) : List AttEntry :=
  if d.op = 1 then [{ stream := d.stream, first := s.dirTokens (s.stream d.stream).kvDir d.layer, len := 1, row := 0 }]
  else if d.op = 2 then tabulate d.count (fun i =>
    let a := 64 * d.aux + 16 * i
    { stream := s.readLE a 2, first := s.readLE (a + 4) 4, len := s.readLE (a + 8) 4, row := s.readLE (a + 12) 4 })
  else [{ stream := 0, first := 0, len := s.readLE (64 * d.aux + 32) 8, row := 0 }]

/-- First query index of an entry. -/
def firstIndex (es : List AttEntry) (e : Nat) : Nat := ((es.take e).map AttEntry.len).foldl (· + ·) 0

/-- QKV rows the job reads. -/
def attRows (es : List AttEntry) : Nat := (es.map (fun e => e.row + e.len)).foldl max 0

/-- Output rows. -/
def attTokens (es : List AttEntry) : Nat := (es.map AttEntry.len).foldl (· + ·) 0

/-- Destinations of the output (R221). -/
def AttDesc.dests (d : AttDesc) : List Nat :=
  if d.halls = 0 then [centralBase + d.out] else (List.range 8).filterMap (fun h => if d.halls.testBit h then some (hallBase h + d.out) else none)

/-- A mask map's tile counts (R232). -/
def maskShape (e : AttEntry) : Nat × Nat := (cdiv (e.first + e.len) 16 - e.first / 16, cdiv (e.first + e.len) 16)

def State.maskAt (s : State) (d : AttDesc) (e : Nat) : Nat := s.readLE (d.maskAddr + 8 * e) 8

/-- R221, R232, R233: may the job run? -/
def State.attOk (s : State) (j : AttJob) : Bool :=
  let d := AttDesc.of j.desc
  let es := s.attEntries d
  let rd := fun (a n : Nat) => s.allowed j.task false a n
  let wr := fun (a n : Nat) => s.allowed j.task true a n
  decide (1 ≤ d.op ∧ d.op ≤ 3) && decide (d.flagRest = 0) && decide (1 ≤ d.hkv ∧ d.hkv ≤ 32) && decide (1 ≤ d.group ∧ d.group ≤ 16) &&
  decide (d.heads ≤ 128) && decide (d.outFmt ≤ 5) && decide (d.rank ≤ 7) &&
  (if d.op = 2 then decide (7 ≤ d.bucket ∧ d.bucket ≤ 15) && decide (1 ≤ d.count ∧ d.count ≤ 64) && rd (64 * d.aux) (16 * d.count)
   else decide (d.bucket = 0) && (decide (d.op = 1) || rd (64 * d.aux) 40)) &&
  (!d.mask || decide (d.op ≠ 1)) && (decide (d.op = 2) || (d.nokv == decide (d.op = 3))) &&
  rd d.qkv (4 * d.rowElems * attRows es) &&
  (decide (d.op = 3) || d.dests.all (fun a => wr a (attTokens es * outStride d.outFmt d.rank (128 * d.heads)))) &&
  (!d.stats || wr d.statsAddr (8 * attTokens es * d.heads)) && (decide (d.comp = 0) || decide (64 * d.comp + 16 ≤ centralSize)) &&
  es.zipIdx.all (fun (e, i) =>
    decide (1 ≤ e.len) &&
    (decide (d.op ≠ 3) || (decide (e.len ≤ 32768) && rd (s.auxLine d 0) (512 * d.heads * e.len) && rd (s.auxLine d 1) (512 * d.heads * e.len) &&
      wr (s.auxLine d 2) (4 * d.rowElems * e.len) && rd (s.auxLine d 3) (8 * d.heads * e.len))) &&
    (decide (d.op ≠ 2) || (decide (e.len ≤ 2 ^ d.bucket) && (decide (d.bucket = 7) || decide (2 ^ (d.bucket - 1) < e.len)) &&
      decide (d.count * 2 ^ d.bucket ≤ 65536) &&
      decide (e.first = if d.nokv then 0 else s.dirTokens (s.stream e.stream).kvDir d.layer))) &&
    (d.nokv || (let dir := (s.stream e.stream).kvDir
      decide (dir ≠ 0) && decide (d.layer < s.dirLayers dir) && (decide (s.dirHkv dir = 0) || decide (s.dirHkv dir = d.hkv)))) &&
    (!d.mask || (let m := s.maskAt d i
      let (qt, kt) := maskShape e
      rd (d.maskAddr + 8 * i) 8 && rd m 64 && decide (s.readLE m 4 = qt) && decide (s.readLE (m + 4) 4 = kt))))

/-! ### The queue (R220) -/

def attDepth : Nat := 1024

/-- A posted PREFILL job is one the scheduler formed: the first of its context, layer and bucket with as many entries (R257). -/
def State.prefillPosted (s : State) (d : AttDesc) : List PrefillJob :=
  if d.op ≠ 2 then s.prefillJobs
  else s.prefillJobs.eraseP (fun p => decide (p.ctx = d.ctx ∧ p.layer = d.layer ∧ p.bucket = d.bucket ∧ p.entries.length = d.count))

/-- ATTENTION_JOB_POST (R220): a poster that finds the queue full waits. -/
def execAttentionJobPost (desc : BitVec 512) (task : Nat) (s : State) : Host.Outcome State Fault Refusal :=
  if s.attQueue.length < attDepth ∧ s.mayPost .sp then
    next { s with attQueue := s.attQueue ++ [{ id := s.nextId, desc := desc, task := task }], nextId := s.nextId + 1
                  prefillJobs := s.prefillPosted (AttDesc.of desc) }
  else next s

/-- Streams whose layer a job touches. -/
def State.attStreams (s : State) (j : AttJob) : List Nat :=
  let d := AttDesc.of j.desc
  if d.nokv then [] else (s.attEntries d).map AttEntry.stream

/-- Do two jobs touch the same stream and layer? -/
def State.conflict (s : State) (i j : AttJob) : Bool :=
  decide ((AttDesc.of i.desc).layer = (AttDesc.of j.desc).layer) && (s.attStreams i).any (fun x => (s.attStreams j).contains x)

/-- Instant from which the conflicts of a job with ended jobs are over; none while an unfinished job conflicts. -/
def State.clearAt (s : State) (j : AttJob) : Option Nat :=
  (s.attRuns.filter (fun r => s.conflict r.job j)).foldl (fun acc r => acc.bind (fun t => r.ended.map (max t))) (some s.now)

def State.inputReady (s : State) (d : AttDesc) : Bool := !d.inWait || decide (d.inValue ≤ s.counter (cntKey 8 d.inCounter))

/-- The first queued job that may start: its place and the instant. -/
def State.nextAttJob (s : State) : Option (AttJob × Nat) :=
  s.attQueue.zipIdx.findSome? (fun (j, i) =>
    if s.inputReady (AttDesc.of j.desc) && !((s.attQueue.take i).any (fun x => s.conflict x j)) then (s.clearAt j).map (fun t => (j, t)) else none)

/-- Completion record of a job that ends at `at_` (R76, R221), after the writes named. -/
def State.attRecord (s : State) (d : AttDesc) (status reads : Nat) (after : List Nat) (at_ : Nat) : State :=
  let s := s.bump 0x98414 1
  if d.comp = 0 ∨ centralSize < 64 * d.comp + 16 then s
  else s.send { mkWrite s .attention (centralBase + 64 * d.comp)
      (completion16 d.tag status false false reads ({ s with now := at_ } : State).time) (at_ + coreWriteLatency 8) [] with after := after }

/-- Pages a prefetch brought for a job of a stream and layer are free to leave once it starts (R238). -/
def State.unhold (s : State) (stream layer : Nat) : State :=
  { s with kvCache := s.kvCache.map (fun (i, c) => if c.id.stream = stream ∧ c.id.layer = layer then (i, { c with held := false }) else (i, c)) }

def attStart (s : State) : State :=
  match s.nextAttJob with
  | none => s
  | some (j, t) =>
    let d := AttDesc.of j.desc
    let s := { s.at t with attQueue := s.attQueue.erase j, attRuns := s.attRuns.filter (AttRun.unfinished t) }
    let s := if d.inWait then s.setCounter (cntKey 8 d.inCounter) (s.counter (cntKey 8 d.inCounter) - d.inValue) else s
    if !(s.attOk j) then s.attRecord d stAccessFault 0 [] s.now
    else if !d.nokv && (s.attStreams j).any (fun x => s.kvControlMarked x d.layer) then s.attRecord d stDeviceFault 0 [] s.now
    else
      let s := (s.attStreams j).foldl (fun s x => s.unhold x d.layer) s
      { s with attRuns := s.attRuns ++ [{ job := j, startAt := s.now, built := false, units := [], fitted := 0, reads := 0, lastEnd := s.now, standIns := [], ended := none }] }

/-- ATTENTION_JOB_START (R220, R221). -/
def execAttentionJobStart (s : State) : Host.Outcome State Fault Refusal := if s.newWork then next (attStart s) else next s

/-! ### Heads and scores (R223 to R225) -/

/-- `n` binary32 elements from an address. -/
def State.f32s (s : State) (a n : Nat) : List F32 := tabulate n (fun i => s.f32At (a + 4 * i))

def State.ropeOn (s : State) (ctx : Nat) : Bool := bit (s.reg (0x98000 + 16 * ctx)) 17
def State.ropeTable (s : State) (ctx : Nat) : List F32 := s.f32s (64 * s.rfld (0x9800C + 16 * ctx) 24 0) 64

/-- Cosine and sine of position × θ (R223). -/
def ropePair (pos : Nat) (theta : F32) : F32 × F32 :=
  let a := F32.mul (F32.ofInt pos) theta
  if F32.isFinite a then (F32.cosRat (F32.toRat a), F32.sinRat (F32.toRat a)) else (nan32, nan32)

/-- R223: rotate a head at a position. -/
def rotateHead (table : List F32) (pos : Nat) (xs : List F32) : List F32 :=
  let cs := table.map (ropePair pos)
  let x := fun (i : Nat) => xs.getD i 0#32
  tabulate 128 (fun i =>
    let d := i % 64
    let (c, sn) := cs.getD d (one32, 0#32)
    if i < 64 then F32.sub (F32.mul (x d) c) (F32.mul (x (d + 64)) sn) else F32.add (F32.mul (x d) sn) (F32.mul (x (d + 64)) c))

/-- R247: the inverse rotation. -/
def unrotateHead (table : List F32) (pos : Nat) (xs : List F32) : List F32 :=
  let cs := table.map (ropePair pos)
  let x := fun (i : Nat) => xs.getD i 0#32
  tabulate 128 (fun i =>
    let d := i % 64
    let (c, sn) := cs.getD d (one32, 0#32)
    if i < 64 then F32.add (F32.mul (x d) c) (F32.mul (x (d + 64)) sn) else F32.sub (F32.mul (x (d + 64)) c) (F32.mul (x d) sn))

def State.rotated (s : State) (ctx pos : Nat) (xs : List F32) : List F32 :=
  if s.ropeOn ctx then rotateHead (s.ropeTable ctx) pos xs else xs

/-- A quantised query head: main and carry blocks (R224). -/
structure QHead where
  main : List QBlock
  carry : List QBlock
  deriving DecidableEq, Repr

def quantQuery (rank : Nat) (xs : List F32) : QHead :=
  let one := fun (b : List F32) =>
    let clip := if rank = 0 then none else kthLargest rank b
    let q := quantBlock .a4 b clip
    (q, carryBlock .a4 b clip q)
  let bs := (chunks 32 4 xs).map one
  { main := bs.map Prod.fst, carry := bs.map Prod.snd }

def quantKv (xs : List F32) : List QBlock := (chunks 32 4 xs).map (fun b => quantBlock .a4 b none)

/-- Exact product sum of two blocks times the product of their scales (R225). -/
def blockDot (a b : QBlock) : F32 :=
  if S8.isPoison a.scale || S8.isPoison b.scale then nan32
  else F32.mul (F32.ofInt (isum (a.codes.zipWith (· * ·) b.codes))) (F32.mul (S8.toF32 a.scale) (S8.toF32 b.scale))

/-- R225 and R230 before the final multiplication. -/
def rawScore (q : QHead) (k : List QBlock) : F32 :=
  let terms := (List.range 4).flatMap (fun b =>
    let z : QBlock := { scale := 0#8, codes := [] }
    [blockDot (q.main.getD b z) (k.getD b z), blockDot (q.carry.getD b z) (k.getD b z)])
  match terms with
  | [] => 0#32
  | t :: ts => F32.sumFrom t ts

def score (scale : F32) (q : QHead) (k : List QBlock) : F32 := F32.mul (rawScore q k) scale

/-! ### Softmax (R226, R227) -/

def negInf32 : F32 := 0xFF800000#32
def Softmax.start : Softmax := { m := negInf32, l := 0#32, o := List.replicate 128 0#32 }

/-- Value code and scale of dimension `d`. -/
def valueAt (v : List QBlock) (d : Nat) : F32 × F32 :=
  let b := v.getD (d / 32) { scale := 0#8, codes := [] }
  (if S8.isPoison b.scale then nan32 else S8.toF32 b.scale, F32.ofInt (b.codes.getD (d % 32) 0))

/-- R226: one page's visible tokens for one query head. -/
def Softmax.page (st : Softmax) (scale : F32) (q : QHead) (ks : List KvTok) : Softmax :=
  match ks.map (fun k => score scale q k.k) with
  | [] => st
  | x :: xs =>
    let mNew := F32.max st.m (xs.foldl F32.max x)
    let c := F32.expo (F32.sub st.m mNew)
    let st1 : Softmax := { m := mNew, l := F32.mul st.l c, o := st.o.map (fun o => F32.mul o c) }
    (ks.zip (x :: xs)).foldl (fun st (k, sc) =>
      let p := F32.expo (F32.sub sc mNew)
      { st with l := F32.add st.l p
                o := st.o.zipIdx.map (fun (o, d) => let (vs, vc) := valueAt k.v d
                  F32.add o (F32.mul (F32.mul p vs) vc)) }) st1

/-- R227: merge splits in ascending order. -/
def Softmax.merge (xs : List Softmax) : Softmax :=
  match xs with
  | [] => Softmax.start
  | [x] => x
  | x :: rest =>
    let m := rest.foldl (fun m y => F32.max m y.m) x.m
    (x :: rest).foldl (fun acc y =>
      let c := if y.m = negInf32 then 0#32 else F32.expo (F32.sub y.m m)
      { acc with l := F32.add acc.l (F32.mul y.l c), o := acc.o.zipWith (fun a b => F32.add a (F32.mul b c)) y.o })
      { m := m, l := 0#32, o := List.replicate 128 0#32 }

/-- R227: the head's 128 outputs. -/
def Softmax.out (x : Softmax) : List F32 :=
  if F32.isZero x.l then List.replicate 128 0#32 else x.o.map (fun o => F32.div o x.l)

/-! ### QKV rows -/

/-- Head `i` of a QKV row: query heads, then keys, then values. -/
def State.qkvHead (s : State) (d : AttDesc) (row i : Nat) : List F32 := s.f32s (d.qkv + 4 * (row * d.rowElems + 128 * i)) 128

def State.queryHead (s : State) (d : AttDesc) (row pos i : Nat) : QHead :=
  quantQuery (s.rfld (0x98000 + 16 * d.ctx) 20 18) (s.rotated d.ctx pos (s.qkvHead d row i))

def State.newTok (s : State) (d : AttDesc) (row pos h : Nat) : KvTok :=
  { k := quantKv (s.rotated d.ctx pos (s.qkvHead d row (d.heads + h))), v := quantKv (s.qkvHead d row (d.heads + d.hkv + h)) }

def State.attScale (s : State) (ctx : Nat) : F32 := s.reg (0x98008 + 16 * ctx)

/-! ### Appending (R213, R234, R237) -/

/-- Append an entry's tokens for every head; none when a slot is missing. -/
def State.appendEntry (s : State) (d : AttDesc) (e : AttEntry) : Option State :=
  let s0 := s.writeLE ((s.stream e.stream).kvDir + 2) 1 d.hkv
  ((List.range e.len).foldl (fun (acc : Option State) t => acc.bind (fun s1 =>
    (List.range d.hkv).foldl (fun (acc : Option State) h => acc.bind (fun s1 =>
      s1.appendTok e.stream d.layer h d.hkv d.ctx (e.first + t) (s.newTok d (e.row + t) (e.first + t) h))) (some s1))) (some s0)).map
    (fun s => ((s.setTokens (s.stream e.stream).kvDir d.layer (e.first + e.len)).repin e.stream d.layer).mirrorSealed e.stream d.layer e.first
      (e.first + e.len))

/-- Append entries in order until one does not fit: how many fitted. -/
def State.appendEntries (s : State) (d : AttDesc) : List AttEntry → Nat → Nat × State
  | [], n => (n, s)
  | e :: es, n =>
    match s.appendEntry d e with
    | some s => s.appendEntries d es (n + 1)
    | none => (n, s)

/-! ### Units of a DECODE (R222, R229, R230) -/

/-- Cut a list of pages into `k` splits, the first `n mod k` one page longer. -/
def splitPages (ps : List Nat) (k : Nat) : List (List Nat) :=
  let n := ps.length
  tabulate k (fun i => (ps.drop (i * (n / k) + min i (n % k))).take (n / k + b2n (decide (i < n % k))))

/-- `n` bytes of a page's index chunk, and whether their line is marked: from the page cache where they are cached there, and from
tier 0 otherwise (R230). -/
def State.indexRead (s : State) (i : PageId) (off n : Nat) : List Byte × Bool :=
  match s.indexPart i off with
  | some (_, c) => ((c.copy.drop (off % slotBytes)).take n, false)
  | none =>
    let a := s.chunkAddr (s.stream i.stream).kvDir i.layer (i.page / 1024) 1 + off
    (s.bytes a n, s.marked a)

/-- Summary key of a page (R217); poison where its line is marked. -/
def State.summary (s : State) (i : PageId) : List QBlock :=
  let a := s.indexRead i (i.head * 69632 + 64 * (i.page % 1024)) 64
  let b := s.indexRead i (i.head * 69632 + 65536 + 4 * (i.page % 1024)) 4
  halfOf (a.2 || b.2) a.1 b.1

/-- R230: candidates of a KV head, best first. -/
def State.rankPages (s : State) (d : AttDesc) (qs : List QHead) (h : Nat) (cands : List Nat) : List Nat :=
  let g := fun (p : Nat) =>
    let sum := s.summary { stream := d.stream, layer := d.layer, head := h, page := p }
    match qs.map (fun q => rawScore q sum) with
    | [] => 0#32
    | x :: xs => xs.foldl F32.max x
  (topK false cands.length (cands.map g)).map (fun x => cands.getD x.2 0)

/-- Pages a KV head attends, its ranked candidates and how many are selected (R229). -/
def State.attended (s : State) (d : AttDesc) (n h : Nat) : List Nat × List Nat × Nat :=
  let c := (n - 1) / 16
  if n ≤ 256 * s.rfld (0x98000 + 16 * d.ctx) 12 0 then (List.range (c + 1), [], 0)
  else
    let ks := min (s.rfld (0x98000 + 16 * d.ctx) 15 13) 4
    let w := min 2048 (s.rfld (0x98004 + 16 * d.ctx) 27 16) / 16
    let cands := (List.range (c - w)).filter (fun p => decide (ks ≤ p))
    let qs := tabulate d.group (fun i => s.queryHead d 0 (n - 1) (h * d.group + i))
    let ranked := s.rankPages d qs h cands
    let k := min (min (s.rfld (0x98004 + 16 * d.ctx) 8 0) 256) ranked.length
    let sel := ranked.take k
    ((List.range (c + 1)).filter (fun p => s.isPinned d.ctx c p || sel.contains p), ranked, k)

def State.decodeUnits (s : State) (d : AttDesc) (n : Nat) : List AttUnit :=
  (List.range d.hkv).flatMap (fun h =>
    let (ps, ranked, k) := s.attended d n h
    let sp := min (cdiv 32 d.hkv) (cdiv ps.length 16)
    (splitPages ps sp).zipIdx.map (fun (pages, i) =>
      { entry := 0, head := h, idx := i, pages := pages, ranked := ranked, selected := k, done := false, res := [] }))

/-- Demand fetches of the pages a job's units miss, ahead of every prefetch (R240). -/
def State.demand (s : State) (ids : List PageId) : State :=
  let miss := ids.filter (fun i => !(s.pte i).cached && !(s.fetches.any (fun f => !f.index && decide (f.id = i) && f.demand)))
  let old := s.fetches.filter (fun f => f.index || !(miss.contains f.id))
  let new : List Fetch := miss.map (fun i => { id := i, index := false, demand := true })
  let s := miss.foldl (State.setMoving · true) s
  ({ s with fetches := old.filter Fetch.demand ++ new ++ old.filter (fun f : Fetch => !f.demand) }).bump 0x9841C miss.length

/-- A DECODE that ranks candidates reads the cached parts of its layer's index (R230, R238). -/
def State.touchIndex (s : State) (stream layer : Nat) : State :=
  { s with kvCache := s.kvCache.map (fun (i, c) =>
      if c.part.isSome ∧ c.id.stream = stream ∧ c.id.layer = layer then (i, { c with lastRead := s.now }) else (i, c)) }

/-- R239: prefetch the next layer of a stream; in retrieval mode with its index chunk, while the stream has at most 16,384 tokens. -/
def State.prefetch (s : State) (d : AttDesc) (us : List AttUnit) : State :=
  if !(bit (s.reg 0x98400) 18) then s
  else
    let dir := (s.stream d.stream).kvDir
    let l := if d.layer + 1 < s.dirLayers dir then d.layer + 1 else 0
    match s.newestPage d.stream l with
    | none => s
    | some c =>
      let full := decide (s.dirTokens dir d.layer ≤ 256 * s.rfld (0x98000 + 16 * d.ctx) 12 0)
      let ids : List PageId := (List.range d.hkv).flatMap (fun h =>
        let sel := match us.find? (fun u => decide (u.head = h)) with | some u => u.ranked.take u.selected | none => []
        ((List.range (c + 1)).filter (fun p => full || s.isPinned d.ctx c p || sel.contains p)).map (fun p =>
          { stream := d.stream, layer := l, head := h, page := p }))
      let new := ids.filter (fun i => (s.pte i).valid && !(s.pte i).cached && !(s.fetches.any (fun f => !f.index && decide (f.id = i))))
      let ix : PageId := { stream := d.stream, layer := l, head := 0, page := 0 }
      let index := !full && decide (s.dirTokens dir d.layer ≤ 16384) && (s.indexPart ix 0).isNone &&
        !(s.fetches.any (fun f => f.index && decide (f.id = ix)))
      let s := new.foldl (State.setMoving · true) s
      { s with fetches := s.fetches ++ new.map (fun i => { id := i, index := false, demand := false }) ++
                            (if index then [{ id := ix, index := true, demand := false }] else []) }

/-! ### Building the units of a started job -/

def State.modRun (s : State) (id : Nat) (f : AttRun → AttRun) : State :=
  { s with attRuns := s.attRuns.map (fun r => if r.job.id = id then f r else r) }

/-- The oldest started job of an operation whose units are not formed. -/
def State.toBuild (s : State) (op : Nat) : Option AttRun :=
  s.attRuns.find? (fun r => !r.built && r.ended.isNone && decide ((AttDesc.of r.job.desc).op = op))

/-- End a job without output. -/
def State.attEnd (s : State) (r : AttRun) (status : Nat) : State :=
  (s.modRun r.job.id (fun r => { r with built := true, ended := some s.now })).attRecord (AttDesc.of r.job.desc) status r.reads [] s.now

def decodeBuild (s : State) : State :=
  match s.toBuild 1 with
  | none => s
  | some r =>
    let d := AttDesc.of r.job.desc
    match s.attEntries d with
    | [] => s
    | e :: _ =>
      if maxPositions ≤ e.first then s.attEnd r stNoCapacity
      else match s.appendEntry d e with
        | none => if s.canSpill then s else s.attEnd r stNoCapacity
        | some s =>
          let us := s.decodeUnits d (e.first + 1)
          let s := s.modRun r.job.id (fun r => { r with built := true, units := us, fitted := 1 })
          let s := if us.any (fun u => !u.ranked.isEmpty) then s.touchIndex d.stream d.layer else s
          let s := s.demand (us.flatMap (fun u => u.pages.map (fun p => { stream := d.stream, layer := d.layer, head := u.head, page := p })))
          s.prefetch d us

/-- DECODE (R213, R222, R229, R237, R239, R240): append the token, form the units, fetch what they miss. -/
def execDecode (s : State) : Host.Outcome State Fault Refusal := next (decodeBuild s)

/-- Does query position `i` see key position `j` of entry `e` (R231, R232)? -/
def State.visible (s : State) (d : AttDesc) (e : AttEntry) (ei i j : Nat) : Bool :=
  if !d.mask then decide (j ≤ i)
  else
    let m := s.maskAt d ei
    let (qt, kt) := maskShape e
    let a := i / 16 - e.first / 16
    let b := j / 16
    let k := a * kt + b
    let code := fun (x : Nat) => (s.byte (m + 64 + x / 4)).toNat / 4 ^ (x % 4) % 4
    decide (j < e.first + e.len) &&
    (if code k = 0 then false
     else if code k = 1 then true
     else if code k = 3 then decide (j % 16 ≤ i % 16)
     else
       let at0 := m + roundLine (64 + cdiv (qt * kt) 4)
       let n := ((List.range k).filter (fun x => decide (code x = 2))).length
       let x := 16 * (i % 16) + j % 16
       (s.byte (at0 + 32 * n + x / 8)).toNat.testBit (x % 8))

/-- Query positions of tile `a` of an entry. -/
def tilePositions (e : AttEntry) (a : Nat) : List Nat :=
  (tabulate 16 (fun r => 16 * (e.first / 16 + a) + r)).filter (fun i => decide (e.first ≤ i ∧ i < e.first + e.len))

/-- Key pages some query of the tile sees. -/
def State.tilePages (s : State) (d : AttDesc) (e : AttEntry) (ei a : Nat) : List Nat :=
  (List.range (cdiv (e.first + e.len) 16)).filter (fun p => (tilePositions e a).any (fun i => (List.range 16).any (fun t =>
    decide (16 * p + t < e.first + e.len) && s.visible d e ei i (16 * p + t))))

def State.prefillUnits (s : State) (d : AttDesc) (es : List AttEntry) : List AttUnit :=
  (List.range d.hkv).flatMap (fun h => es.zipIdx.flatMap (fun (e, ei) =>
    (List.range (maskShape e).1).map (fun a =>
      { entry := ei, head := h, idx := a, pages := s.tilePages d e ei a, ranked := [], selected := 0, done := false, res := [] })))

def prefillBuild (s : State) : State :=
  match s.toBuild 2 with
  | none => s
  | some r =>
    let d := AttDesc.of r.job.desc
    let es := s.attEntries d
    let (n, s1) := if d.nokv then (es.length, s) else s.appendEntries d es r.fitted
    if !d.nokv && es.any (fun e => decide (maxPositions < e.first + e.len)) then s.attEnd r stNoCapacity
    else if n < es.length ∧ s.canSpill then s
    else if n = 0 then s.attEnd r stNoCapacity
    else
      let us := s1.prefillUnits d (es.take n)
      let s := s1.modRun r.job.id (fun r => { r with built := true, units := us, fitted := n })
      if d.nokv then s
      else s.demand (us.flatMap (fun u => u.pages.map (fun p =>
        { stream := ((es[u.entry]?).map AttEntry.stream).getD 0, layer := d.layer, head := u.head, page := p }))).eraseDups

/-- PREFILL (R222, R231 to R234, R237). -/
def execPrefill (s : State) : Host.Outcome State Fault Refusal := next (prefillBuild s)

/-- Tiles that a unit of a BACKWARD job works through: of query unit `a` the key tiles it sees, of key unit `a` the query tiles that
see it (R222, R247). Query units come first. -/
def State.backTiles (s : State) (d : AttDesc) (e : AttEntry) (tiles a : Nat) : List Nat :=
  if a < tiles then s.tilePages d e 0 a
  else (List.range tiles).filter (fun q => (s.tilePages d e 0 q).contains (a - tiles))

def backwardBuild (s : State) : State :=
  match s.toBuild 3 with
  | none => s
  | some r =>
    let d := AttDesc.of r.job.desc
    match s.attEntries d with
    | [] => s
    | e :: _ =>
    let tiles := cdiv e.len 16
    let us : List AttUnit := (List.range d.hkv).flatMap (fun h => (List.range (2 * tiles)).map (fun a =>
      { entry := 0, head := h, idx := a, pages := s.backTiles d e tiles a, ranked := [], selected := 0, done := false, res := [] }))
    s.modRun r.job.id (fun r => { r with built := true, units := us, fitted := 1 })

/-- BACKWARD (R222, R247): query units, then key units, of one sequence. -/
def execBackward (s : State) : Host.Outcome State Fault Refusal := next (backwardBuild s)

/-! ### Running units (R219, R222, R226, R240) -/

/-- Key tokens of a page as a unit reads them: their positions and contents. -/
def State.unitToks (s : State) (d : AttDesc) (e : AttEntry) (h p : Nat) : List (Nat × KvTok) :=
  let n := e.first + e.len
  (List.range 16).filterMap (fun t =>
    let j := 16 * p + t
    if n ≤ j then none
    else if d.nokv then some (j, s.newTok d (e.row + j) j h)
    else some (j, s.engineTok (s.pte { stream := e.stream, layer := d.layer, head := h, page := p }) t))

/-- R226 over a unit's pages for every query head it covers. -/
def State.unitResult (s : State) (d : AttDesc) (es : List AttEntry) (u : AttUnit) : List (Nat × Nat × Softmax) :=
  match es[u.entry]? with
  | none => []
  | some e =>
    let toks := u.pages.map (s.unitToks d e u.head)
    let qs := if d.op = 1 then [e.first] else tilePositions e u.idx
    let sc := s.attScale d.ctx
    qs.flatMap (fun i => (List.range d.group).map (fun g =>
      let hd := u.head * d.group + g
      let q := s.queryHead d (e.row + (i - e.first)) i hd
      (firstIndex es u.entry + (i - e.first), hd,
        toks.foldl (fun st page => st.page sc q ((page.filter (fun x => decide (d.op = 1) || s.visible d e u.entry i x.1)).map Prod.snd)) Softmax.start)))

/-- Sums of 128 products with a 4-bit code that the value unit forms for a query and a key: o in a forward job; dP and dQ in a query
unit of a BACKWARD job, dP, dK and dV in a key unit (log 33). -/
def valueSums (d : AttDesc) (queryUnit : Bool) : Nat := if d.op ≠ 3 then 1 else if queryUnit then 2 else 3

/-- Bytes that the read port brings for a tile of a unit: a page's parcels; without pages the tile's own key and value rows; in a key
unit of a BACKWARD job the query and gradient rows of its heads. -/
def tileBytes (d : AttDesc) (queryUnit : Bool) : Nat := if !d.nokv then 2176 else if queryUnit then 16 * 1024 else 16 * 1024 * d.group

/-- Time of a unit: the slowest of the score, value and exponential units and the read port, then the drain (R219). -/
def unitTime (d : AttDesc) (u : AttUnit) (queries : Nat) (queryUnit : Bool) : Nat :=
  let pairs := 16 * u.pages.length * queries * d.group
  max (cdiv (12 * 128 * pairs * valueSums d queryUnit) 6250) (max (cdiv (12 * pairs) 64) (cdiv (12 * tileBytes d queryUnit * u.pages.length) 1500)) +
    ns 16

/-- R240: pages a unit reads under SKIP: a missing selected page gives way to the best-ranked unselected cached candidate. -/
def State.skipPages (s : State) (d : AttDesc) (u : AttUnit) (taken : List (Nat × Nat)) : List Nat × List (Nat × Nat) :=
  let cached := fun (p : Nat) => (s.pte { stream := d.stream, layer := d.layer, head := u.head, page := p }).cached
  let sel := u.ranked.take u.selected
  let rest := u.ranked.drop u.selected
  let (ps, tk) := u.pages.foldl (fun (acc : List Nat × List (Nat × Nat)) p =>
    if cached p || !(sel.contains p) then (acc.1 ++ [p], acc.2)
    else match rest.find? (fun x => cached x && !(acc.2.contains (u.head, x))) with
      | some x => (acc.1 ++ [x], acc.2 ++ [(u.head, x)])
      | none => acc) ([], taken)
  (sortBy (fun x y => decide (x ≤ y)) ps, tk)

/-- Every page of a unit is cached. -/
def State.unitReady (s : State) (d : AttDesc) (e : AttEntry) (u : AttUnit) : Bool :=
  d.nokv || u.pages.all (fun p => (s.pte { stream := e.stream, layer := d.layer, head := u.head, page := p }).cached)

/-- Note that a unit read its pages: hits and recency (R238, R240). -/
def State.noteReads (s : State) (e : AttEntry) (layer : Nat) (u : AttUnit) : State :=
  let s := u.pages.foldl (fun s p =>
    let en := s.pte { stream := e.stream, layer := layer, head := u.head, page := p }
    match Tab.find s.kvCache en.cslot with
    | some c => if en.cached then { s with kvCache := Tab.put s.kvCache en.cslot { c with lastRead := s.now } } else s
    | none => s) s
  s.bump 0x98418 u.pages.length

/-- Pages a unit reads: none without pages (R221). -/
def AttDesc.pageReads (d : AttDesc) (u : AttUnit) : Nat := if d.nokv then 0 else u.pages.length

/-! ### Output (R221, R227, R246, R247) -/

/-- Parts of an output of `n` rows of `w` elements at an address. -/
def rowsParts (a fmt rank w : Nat) (rows : List (List F32)) : List (Nat × List Byte) :=
  let st := outStride fmt rank w
  rows.zipIdx.flatMap (fun (xs, m) =>
    if 2 ≤ fmt ∧ fmt ≠ 5 ∧ 1024 < w then rowParcels (a + m * st) fmt rank xs else groupParts (a + m * st) fmt 0 rank xs)

/-- Final value of a query head: its splits merged. -/
def headOf (us : List AttUnit) (r i : Nat) : Softmax :=
  Softmax.merge (us.flatMap (fun u => (u.res.filter (fun x => decide (x.1 = r ∧ x.2.1 = i))).map (fun x => x.2.2)))

/-- Send a job's writes; answers their numbers. -/
def State.sendParts (s : State) (a : Nat) (parts : List (Nat × List Byte)) (due : Nat) (incs : List Inc) : List Nat × State :=
  ([s.nextId], s.send { mkWrite s .attention a [] due incs with parts := parts })

/-- R258: the DECODE job of a layer has ended; the step moves on when it is the layer whose turn it is. -/
def State.layerDone (s : State) (d : AttDesc) : State :=
  if d.op = 1 then s.modStream d.stream (fun x => if x.work.layer = d.layer then { x with work := { x.work with layer := d.layer + 1 } } else x)
  else s

def State.attOutput (s : State) (r : AttRun) (d : AttDesc) (es : List AttEntry) (us : List AttUnit) : State :=
  let n := attTokens es
  let heads := tabulate n (fun q => tabulate d.heads (fun i => headOf us q i))
  let rows := heads.map (fun hs => hs.flatMap Softmax.out)
  let splits := ((us.filter (fun u => decide (u.head = 0 ∧ u.entry = 0))).length)
  let done := r.lastEnd + (if d.op = 1 then ns 4 * (splits - 1) else 0) + ns 4 + (if 2 ≤ d.outFmt then ns 8 else 0)
  let (ids, s) := d.dests.foldl (fun (acc : List Nat × State) a =>
    let m := (acc.2.memOf a).getD 8
    let (i, s) := acc.2.sendParts a (rowsParts a d.outFmt d.rank (128 * d.heads) rows) (done + coreWriteLatency m)
      [{ key := cntKey m d.outCounter, amount := 1 }]
    (acc.1 ++ i, s)) ([], s)
  let (ids, s) := if d.stats then
      (let (i, s) := s.sendParts d.statsAddr (heads.zipIdx.flatMap (fun (hs, q) => hs.zipIdx.map (fun (x, i) =>
        (d.statsAddr + 8 * (q * d.heads + i), natLE 4 x.m.toNat ++ natLE 4 x.l.toNat)))) (done + coreWriteLatency 8) []
       (ids ++ i, s))
    else (ids, s)
  let status := if r.fitted < (s.attEntries d).length then stPartial else stOk
  ((s.modRun r.job.id (fun r => { r with ended := some done })).layerDone d).attRecord d status r.reads ids done

/-- Decoded values of a head. -/
def decoded (bs : List QBlock) : List F32 := bs.flatMap (fun b => b.codes.map (fun c => dequant c b.scale))

def dotF (xs ys : List F32) : F32 :=
  match xs.zipWith F32.mul ys with
  | [] => 0#32
  | p :: ps => F32.sumFrom p ps

/-- Sum of scaled vectors in order: Σ aᵢ × xᵢ per element. -/
def sumVec (terms : List (F32 × List F32)) : List F32 :=
  match terms.map (fun (a, xs) => xs.map (F32.mul a)) with
  | [] => List.replicate 128 0#32
  | t :: ts => ts.foldl (fun acc v => acc.zipWith F32.add v) t

def addVecs (vs : List (List F32)) : List F32 :=
  match vs with
  | [] => List.replicate 128 0#32
  | t :: ts => ts.foldl (fun acc v => acc.zipWith F32.add v) t

/-- What the backward pass needs of one query head at one position. -/
structure BackRow where
  /-- per visible key: position, P, dS -/
  keys : List (Nat × F32 × F32)
  deriving DecidableEq, Repr

/-- R247: the gradients in the QKV row layout, row by row. -/
def State.backward (s : State) (d : AttDesc) (e : AttEntry) : List (List F32) :=
  let sc := s.attScale d.ctx
  let toks := tabulate d.hkv (fun h => tabulate e.len (fun j => s.newTok d (e.row + j) j h))
  let key := fun (h j : Nat) => (toks.getD h []).getD j { k := [], v := [] }
  let q := fun (i hd : Nat) => s.queryHead d (e.row + i) i hd
  let grad := fun (i hd : Nat) => s.f32s (s.auxLine d 1 + 4 * (128 * (i * d.heads + hd))) 128
  let rows := tabulate e.len (fun i => tabulate d.heads (fun hd =>
    let h := hd / d.group
    let st := s.auxLine d 3 + 8 * (i * d.heads + hd)
    let m := s.f32At st
    let l := s.f32At (st + 4)
    let do_ := grad i hd
    let di := dotF do_ (s.f32s (s.auxLine d 0 + 4 * (128 * (i * d.heads + hd))) 128)
    let qh := q i hd
    ({ keys := (List.range e.len).filterMap (fun j =>
        if s.visible d e 0 i j then
          let p := if F32.isZero l then 0#32 else F32.div (F32.expo (F32.sub (score sc qh (key h j).k) m)) l
          some (j, p, F32.mul p (F32.sub (dotF do_ (decoded (key h j).v)) di))
        else none) } : BackRow)))
  let back := fun (i hd : Nat) => (rows.getD i []).getD hd { keys := [] }
  let qDec := fun (i hd : Nat) => (decoded (q i hd).main).zipWith F32.add (decoded (q i hd).carry)
  let unrot := fun (pos : Nat) (xs : List F32) => if s.ropeOn d.ctx then unrotateHead (s.ropeTable d.ctx) pos xs else xs
  let perKey := fun (h j : Nat) (f : Nat → Nat → F32 × F32 → F32 × List F32) =>
    addVecs (tabulate d.group (fun g => sumVec ((List.range e.len).filterMap (fun i =>
      ((back i (h * d.group + g)).keys.find? (fun x => decide (x.1 = j))).map (fun x => f i (h * d.group + g) x.2)))))
  tabulate e.len (fun t =>
    (List.range d.heads).flatMap (fun hd =>
      unrot t ((sumVec ((back t hd).keys.map (fun (j, _, ds) => (ds, decoded (key (hd / d.group) j).k)))).map (F32.mul sc))) ++
    (List.range d.hkv).flatMap (fun h => unrot t ((perKey h t (fun i hd x => (x.2, qDec i hd))).map (F32.mul sc))) ++
    (List.range d.hkv).flatMap (fun h => perKey h t (fun i hd x => (x.1, grad i hd))))

/-- R246, R247: the gradients, and with STATS the m and l of the statistics that the job works with. -/
def State.backwardOutput (s : State) (r : AttRun) (d : AttDesc) (es : List AttEntry) : State :=
  match es with
  | [] => s
  | e :: _ =>
    let a := s.auxLine d 2
    let bytes := (s.backward d e).flatMap (fun row => row.flatMap (fun x => natLE 4 x.toNat))
    let m := s.counterMem a
    let due := r.lastEnd + coreWriteLatency ((s.memOf a).getD 8)
    let (ids, s) := s.sendParts a [(a, bytes)] due [{ key := cntKey m d.outCounter, amount := 1 }]
    let stats := (s.bytes (s.auxLine d 3) (8 * d.heads * e.len))
    let (ids, s) := if d.stats then
        (let (i, s) := s.sendParts d.statsAddr [(d.statsAddr, stats)] (r.lastEnd + coreWriteLatency 8) []
         (ids ++ i, s))
      else (ids, s)
    (s.modRun r.job.id (fun r => { r with ended := some r.lastEnd })).attRecord d stOk 0 ids r.lastEnd

/-- The entries of a started job as its units see them: a DECODE has appended its token. -/
def State.runEntries (s : State) (r : AttRun) : List AttEntry :=
  let d := AttDesc.of r.job.desc
  let es := (s.attEntries d).take r.fitted
  if d.op = 1 then es.map (fun e => { e with first := e.first - 1 }) else es

/-- A unit with the pages it reads, and the stand-ins taken with it (R240). -/
def State.unitPages (s : State) (r : AttRun) (u : AttUnit) : AttUnit × List (Nat × Nat) :=
  let d := AttDesc.of r.job.desc
  if decide (d.op = 1) && bit (s.reg (0x98000 + 16 * d.ctx)) 16 then
    (let (ps, tk) := s.skipPages d u r.standIns
     ({ u with pages := ps }, tk))
  else (u, r.standIns)

/-- May a unit of a started job begin: are its pages cached (R240)? -/
def State.mayBegin (s : State) (r : AttRun) (u : AttUnit) : Bool :=
  match (s.runEntries r)[u.entry]? with
  | none => false
  | some e => s.unitReady (AttDesc.of r.job.desc) e (s.unitPages r u).1

/-- The units that no engine has finished, of the oldest started job first (R220). -/
def State.openUnits (s : State) : List (AttRun × AttUnit × Nat) :=
  (s.attRuns.filter (fun r => r.built && r.ended.isNone)).flatMap (fun r =>
    (r.units.zipIdx.filter (fun x => !x.1.done)).map (fun x => (r, x.1, x.2)))

/-- R220, R240: the first unit in order that may begin, with how many units before it hold an engine while they wait for a page.
None while 32 wait. -/
def State.nextUnitOf (s : State) : Option (AttRun × AttUnit × Nat × Nat) :=
  ((s.openUnits.take 32).zipIdx.find? (fun x => s.mayBegin x.1.1 x.1.2.1)).map (fun x => (x.1.1, x.1.2.1, x.1.2.2, x.2))

/-- The engine that is free first once `n` engines that are free sooner are taken. -/
def firstEngine (bs : List Nat) (n : Nat) : Nat :=
  ((sortBy (fun (x y : Nat × Nat) => decide (x.1 ≤ y.1)) bs.zipIdx)[n]?).map Prod.snd |>.getD 0

def attentionUnit (s : State) : State :=
  match s.nextUnitOf with
  | none => s
  | some (r, u, k, waiting) =>
    let d := AttDesc.of r.job.desc
    let es := s.runEntries r
    match es[u.entry]? with
    | none => s
    | some e =>
      let (u1, tk) := s.unitPages r u
      let g := firstEngine s.attBusy waiting
      let s := s.at (max (s.attBusy.getD g 0) (r.startAt + ns 24))
      let s := if d.nokv then s else s.noteReads e d.layer u1
      let u2 := { u1 with done := true, res := if d.op = 3 then [] else s.unitResult d es u1 }
      let endAt := s.now + unitTime d u1 (if d.op = 1 then 1 else 16) (d.op ≠ 3 || decide (u.idx < cdiv e.len 16))
      let us := r.units.set k u2
      let r1 := { r with units := us, standIns := tk, reads := r.reads + d.pageReads u1, lastEnd := max r.lastEnd endAt }
      let s := { s with attBusy := s.attBusy.set g endAt }
      let s := s.modRun r.job.id (fun _ => r1)
      if us.all AttUnit.done then (if d.op = 3 then s.backwardOutput r1 d es else s.attOutput r1 d es us) else s

/-- ATTENTION_UNIT (R219, R220, R222, R226, R240): a free engine runs the next unit whose pages are cached, while a unit before it that
waits for a page holds an engine of its own; the last unit ends the job. -/
def execAttentionUnit (s : State) : Host.Outcome State Fault Refusal := next (attentionUnit s)

end Sys2Proof.Machine
end

