-- ==== Sys2Proof/Machine/Links.lean ====
section
/-! DEFINITION. The Zemlink fabric below its commands: links, flits, the link-state graph, routes and sending (R347 to R358). The model's
own choices: log 35 fabric (DEDUCED, DESIGN CHOICE); log 44 arbitration within a cycle (DEDUCED, DESIGN CHOICE). -/

namespace Sys2Proof.Machine

def State.lnk (s : State) (l : Nat) : Link := Tab.get Link.reset s.links l
def State.setLnk (s : State) (l : Nat) (k : Link) : State := { s with links := Tab.set Link.reset s.links l k }
def State.modLnk (s : State) (l : Nat) (f : Link → Link) : State := s.setLnk l (f (s.lnk l))

/-- This package's number (FAB_ID.PKG_ID) and incarnation. -/
def State.pkgId (s : State) : Nat := s.rfld 0x80000 11 0
def State.incarnation (s : State) : Nat := s.rfld 0x80000 31 16

def linkCount : Nat := 96

/-- Is border die `b` left out of service since READY (R380)? -/
def State.borderOut (s : State) (b : Nat) : Bool := s.power.ready.isSome && !(s.power.found.borders.contains b)

/-- Does the link carry data: up, on two lanes or one, and not isolated? -/
def Link.up (k : Link) : Bool := decide (k.state = 2 ∨ k.state = 3)

/-- Does the link exchange flits at all? -/
def Link.alive (k : Link) : Bool := k.up || decide (k.state = 4)

/-- R353: must the link stay isolated? -/
def State.isolates (s : State) (k : Link) : Bool :=
  decide (s.pkgId = 0xFFF) || !k.greeted || decide (k.peer = 0xFFF) || decide (k.peerDomain ≠ (s.reg 0x80004).toNat) ||
  decide (k.peer = s.pkgId) || k.clash

/-- Settle a live link between up and isolated. -/
def State.settleLink (s : State) (l : Nat) : State :=
  let k := s.lnk l
  if !k.alive then s
  else s.setLnk l { k with state := if s.isolates k then 4 else if k.oneLane then 3 else 2 }

/-- Links up to a package, ascending. -/
def State.upLinks (s : State) (pkg : Nat) : List Nat :=
  (s.links.filter (fun p => p.2.up && decide (p.2.peer = pkg))).map Prod.fst

/-! ### The link-state graph (R354, R356) -/

/-- Neighbour packages of a package in the graph. -/
def State.neighbours (s : State) (p : Nat) : List Nat :=
  if p = s.pkgId then ((s.links.filter (fun x => x.2.up)).map (fun x => x.2.peer)).eraseDups
  else match Tab.find s.adverts p with
    | some a => (a.links.map Prod.snd).eraseDups
    | none => []

/-- Packages reached level by level from a frontier. -/
def State.levels (s : State) : Nat → List Nat → List Nat → List (List Nat)
  | 0, _, _ => []
  | fuel + 1, seen, front =>
    if front.isEmpty then []
    else
      let nxt := ((front.flatMap s.neighbours).eraseDups).filter (fun p => !(seen.contains p))
      front :: s.levels fuel (seen ++ nxt) nxt

/-- Hops from one package to another. -/
def State.hops (s : State) (a b : Nat) : Option Nat := (s.levels 4096 [a] [a]).findIdx? (fun f => f.contains b)

/-- Packages this package reaches, itself first (FAB_STATUS.REACHABLE). -/
def State.reachable (s : State) : List Nat := (s.levels 4096 [s.pkgId] [s.pkgId]).flatten

/-- Incarnation of a package, from its advert or from a HELLO on a link to it. -/
def State.peerIncarnation (s : State) (p : Nat) : Option Nat :=
  match Tab.find s.adverts p, (s.links.find? (fun x => x.2.up && decide (x.2.peer = p))) with
  | some a, _ => some a.inc
  | none, some x => some x.2.peerInc
  | none, none => none

/-- Free tier-0 slots a live package last advertised (R259). -/
def State.peerSlots (s : State) (p : Nat) : Option Nat :=
  if (Tab.find s.members p).isSome then (Tab.find s.adverts p).map Advert.slots else none

/-- First links of the shortest paths to a package, ascending (R354). -/
def State.firstLinks (s : State) (dest : Nat) : List Nat :=
  let cand := (s.links.filter (fun x => x.2.up)).filterMap (fun x => (s.hops x.2.peer dest).map (fun d => (x.1, d)))
  match (cand.map Prod.snd).min? with
  | none => []
  | some d => (cand.filter (fun p => decide (p.2 = d))).map Prod.fst

/-- R354: the link a message takes. -/
def State.route (s : State) (src dest flow : Nat) : Option Nat :=
  let ls := s.firstLinks dest
  ls[((src ^^^ dest) ^^^ flow) % ls.length]?

/-! ### Sending (R348, R350, R351) -/

/-- Payload bytes of a flit. -/
def flitBytes : Nat := 496

/-- Virtual channel of a message type (R355): 0 MSG, 1 BULK, 2 BCAST. -/
def vcOf (kind : Nat) : Nat := if kind = 1 then 1 else if kind = 4 then 2 else 0

def FabMsg.flits (m : FabMsg) : Nat := cdiv (24 + m.body.length) flitBytes

/-- Buffers of a virtual channel left at the receiver (R351). -/
def Link.credit (k : Link) (vc : Nat) : Nat := 64 - ((k.sent.getD vc 0 + 65536 - k.freed.getD vc 0) % 65536)

/-- Role of a link in a tree (R358). -/
def State.treeRole (s : State) (tree l : Nat) : Nat := fld (Tab.get 0#32 s.treeMap (16 * tree + l / 8)) (4 * (l % 8) + 3) (4 * (l % 8))

/-- Links of a child edge of a tree. -/
def State.edgeLinks (s : State) (tree edge : Nat) : List Nat := (List.range linkCount).filter (fun l => decide (s.treeRole tree l = edge + 2))

def TreeRun.reset : TreeRun := { next := 0, turns := List.replicate 14 0, dropped := [] }
def State.tree (s : State) (t : Nat) : TreeRun := Tab.get TreeRun.reset s.trees t
def State.setTree (s : State) (t : Nat) (r : TreeRun) : State := { s with trees := Tab.set TreeRun.reset s.trees t r }

/-- The links each child edge of a tree sends its next message on, edges whose links are all down left out; an edge's links take
turns. -/
def State.treeLinks (s : State) (t : Nat) : List (Nat × Nat) :=
  let r := s.tree t
  (List.range 14).filterMap (fun e =>
    if r.dropped.contains e then none
    else
      let ls := (s.edgeLinks t e).filter (fun l => (s.lnk l).up)
      (ls[r.turns.getD e 0 % ls.length]?).map (fun l => (e, l)))

/-- Send a broadcast message down every child edge (R358); edges whose links are all down drop out for the rest of it. -/
def State.sendTree (s : State) (m : FabMsg) : State :=
  let t := m.dest
  let out := s.treeLinks t
  let r := s.tree t
  let dead := (List.range 14).filter (fun e => !(s.edgeLinks t e).isEmpty && !(out.any (fun p => decide (p.1 = e))))
  let s := s.setTree t { r with turns := tabulate 14 (fun e => if out.any (fun p => decide (p.1 = e)) then r.turns.getD e 0 + 1 else r.turns.getD e 0)
                                dropped := (r.dropped ++ dead).eraseDups }
  out.foldl (fun s p => { s with fabOut := s.fabOut ++ [{ m with uid := s.nextId, link := some p.2, sent := 0 }], nextId := s.nextId + 1 }) s

/-- Give every message without a link its link: broadcasts of this package go down their tree, others by the route in force. -/
def State.assignLinks (s : State) : State :=
  let (trees, rest) := s.fabOut.partition (fun m => decide (m.kind = 4) && m.link.isNone)
  let s := trees.foldl State.sendTree { s with fabOut := rest }
  { s with fabOut := s.fabOut.map (fun m => if m.link.isNone then { m with link := s.route m.src m.dest m.flow } else m) }

/-- The message that sends next on a virtual channel of a link: one partly sent, else the oldest. -/
def State.nextOn (s : State) (l vc : Nat) : Option FabMsg :=
  let ms := s.fabOut.filter (fun m => decide (m.link = some l) && decide (vcOf m.kind = vc) && decide (m.sent < m.flits))
  match ms.find? (fun m => decide (0 < m.sent)) with
  | some m => some m
  | none => ms.head?

/-- Virtual channel whose flit goes next (R351). -/
def State.nextVc (s : State) (l : Nat) : Option Nat :=
  let k := s.lnk l
  let ready := fun (vc : Nat) => decide (0 < k.credit vc) && (s.nextOn l vc).isSome
  if ready 0 then some 0
  else if ready 1 && (k.bcastTurn || !(ready 2)) then some 1
  else if ready 2 then some 2
  else none

/-- Send data flits of a link while replay buffer and credit allow. -/
def State.pumpLink (s : State) (l : Nat) : Nat → State
  | 0 => s
  | fuel + 1 =>
    let k := s.lnk l
    if !k.up || decide (256 ≤ k.replay.length) then s
    else match s.nextVc l with
      | none => s
      | some vc => match s.nextOn l vc with
        | none => s
        | some m =>
          let f : SentFlit := { seq := k.nextSeq, uid := m.uid, vc := vc, last := decide (m.sent + 1 = m.flits) }
          let s := s.setLnk l { k with
            nextSeq := (k.nextSeq + 1) % 4096, replay := k.replay ++ [f], sent := k.sent.set vc ((k.sent.getD vc 0 + 1) % 65536)
            bcastTurn := if vc = 0 then k.bcastTurn else decide (vc = 2), tx := k.tx + 1#32 }
          { s with fabOut := s.fabOut.map (fun (x : FabMsg) => if x.uid = m.uid then { x with sent := x.sent + 1 } else x) }.pumpLink l fuel

/-- Send what may be sent on every link. -/
def State.pump (s : State) : State :=
  let s := s.assignLinks
  (s.links.map Prod.fst).foldl (fun s l => s.pumpLink l 256) s

/-- One message of a link that has left service: to be sent again whole by the route in force; a broadcast copy goes to another
link of its child edge, or the edge is dropped (R352, R358). -/
def State.resendMsg (s : State) (l : Nat) (m : FabMsg) : State :=
  if m.link ≠ some l then { s with fabOut := s.fabOut ++ [m] }
  else if m.kind ≠ 4 then { s with fabOut := s.fabOut ++ [{ m with link := none, sent := 0 }] }
  else
    let e := s.treeRole m.dest l - 2
    match ((s.edgeLinks m.dest e).filter (fun x => (s.lnk x).up)).head? with
    | some x => { s with fabOut := s.fabOut ++ [{ m with link := some x, sent := 0 }] }
    | none => let r := s.tree m.dest
      s.setTree m.dest { r with dropped := (r.dropped ++ [e]).eraseDups }

/-- Take a link out of service into a state (0 down, 1 training, 5 retired). -/
def State.dropLink (s : State) (l state : Nat) : State :=
  let s := s.modLnk l (fun k => { k with state := state, greeted := false, clash := false, resends := 0, replay := []
                                         partials := [none, none, none] })
  s.fabOut.foldl (fun s m => s.resendMsg l m) { s with fabOut := [] }

/-- R352: retire a link and raise LINK_RETIRED. -/
def State.retireLink (s : State) (l cause : Nat) : State :=
  let peer := (s.lnk l).peer
  let s := (s.dropLink l 5).modLnk l (fun k => { k with cause := cause })
  s.raise evLinkRetired (if l < 48 then 9 else 10) none (l + cause * 2 ^ 7 + peer * 2 ^ 10 + (s.upLinks peer).length * 2 ^ 22)

/-- A link comes up or trains anew: sequence numbers, credits and buffers start over. -/
def Link.fresh (k : Link) (now : Nat) (oneLane : Bool) : Link :=
  { k with state := 4, oneLane := oneLane, greeted := false, clash := false, nextSeq := 0, expected := 0, naked := false, replay := []
           resends := 0, sent := [0, 0, 0], freed := [0, 0, 0], rxFreed := [0, 0, 0], bcastTurn := true, partials := [none, none, none]
           sinceAck := 0, ackAt := now, lastFlit := now, lastHello := now, trainFails := 0 }

end Sys2Proof.Machine
end

