-- ==== Sys2Proof/Machine/Tokens.lean ====
section
/-! DEFINITION. Tokeniser images, tokenising and detokenising (R267 to R269), stop sequences (R270), and the sampler's arithmetic (R262 to
R266). The model's own choices: log 34 serving (DEDUCED, DESIGN CHOICE). -/

namespace Sys2Proof.Machine

/-! ### Tokeniser images (R267) -/

abbrev TokImage := List Byte

def TokImage.num (t : TokImage) (o n : Nat) : Nat := tblNum t o n
def TokImage.vocab (t : TokImage) : Nat := t.num 8 4
def TokImage.merges (t : TokImage) : Nat := t.num 12 4
def TokImage.specials (t : TokImage) : Nat := t.num 16 2

/-- Identifier of a single byte value. -/
def TokImage.byteId (t : TokImage) (b : Byte) : Nat := t.num (t.num 20 4 + 4 * b.toNat) 4

/-- String of a token. -/
def TokImage.string (t : TokImage) (id : Nat) : List Byte :=
  let o := t.num 24 4 + 8 * id
  (t.drop (t.num 36 4 + t.num o 4)).take (t.num (o + 4) 4)

/-- Merge rule of a rank: left, right, result. -/
def TokImage.merge (t : TokImage) (r : Nat) : Nat × Nat × Nat :=
  let o := t.num 28 4 + 12 * r
  (t.num o 4, t.num (o + 4) 4, t.num (o + 8) 4)

def TokImage.special (t : TokImage) (i : Nat) : Nat := t.num (t.num 32 4 + 4 * i) 4
def TokImage.specialIds (t : TokImage) : List Nat := tabulate t.specials t.special

/-- One past the last byte the image reaches, from its tables' headers and its strings. -/
def TokImage.extent (t : TokImage) : Nat :=
  let tables := [64, t.num 20 4 + 1024, t.num 24 4 + 8 * t.vocab, t.num 28 4 + 12 * t.merges, t.num 32 4 + 4 * t.specials, t.num 36 4]
  let strings := (List.range t.vocab).map (fun i => let o := t.num 24 4 + 8 * i
    t.num 36 4 + t.num o 4 + t.num (o + 4) 4)
  (tables ++ strings).foldl max 0

/-- R267: is the image acceptable? Its CRC takes bytes 60 to 63 as zero. -/
def TokImage.ok (t : TokImage) : Bool :=
  decide (t.num 0 8 = 0x314E454B4F545A4E) && decide (256 ≤ t.vocab ∧ t.vocab ≤ 262144) && decide (t.merges ≤ 262144) &&
  decide (t.specials ≤ 256) && decide (t.extent ≤ t.length) &&
  (List.range t.vocab).all (fun i => let n := t.num (t.num 24 4 + 8 * i + 4) 4
    decide (1 ≤ n ∧ n ≤ 256)) &&
  (List.range 256).all (fun b => decide (t.byteId (BitVec.ofNat 8 b) < t.vocab)) &&
  (List.range t.merges).all (fun r => let (a, b, c) := t.merge r
    decide (a < t.vocab ∧ b < t.vocab ∧ c < t.vocab)) &&
  t.specialIds.all (fun i => decide (i < t.vocab)) &&
  decide ((crc32c (t.take 60 ++ List.replicate 4 0#8 ++ t.drop 64)).toNat = t.num 60 4)

/-! ### Tokenising (R268) -/

/-- Byte classes. -/
inductive ByteClass where
  | letter | digit | space | other
  deriving DecidableEq, Repr

def byteClass (b : Byte) : ByteClass :=
  let n := b.toNat
  if (65 ≤ n ∧ n ≤ 90) ∨ (97 ≤ n ∧ n ≤ 122) ∨ 128 ≤ n then .letter
  else if 48 ≤ n ∧ n ≤ 57 then .digit
  else if n = 32 then .space
  else .other

def startsWith (xs pre : List Byte) : Bool := xs.take pre.length == pre

/-- The special token that starts the bytes: longest string, then lowest identifier. -/
def TokImage.specialAt (t : TokImage) (bs : List Byte) : Option Nat :=
  t.specialIds.foldl (fun best i =>
    let st := t.string i
    if st.isEmpty || !(startsWith bs st) then best
    else match best with
      | none => some i
      | some j =>
        let n := (t.string j).length
        if n < st.length ∨ (st.length = n ∧ i < j) then some i else best) none

/-- Runs of one byte class. -/
def classRuns : List Byte → List (List Byte)
  | [] => []
  | b :: bs =>
    match classRuns bs with
    | [] => [[b]]
    | r :: rs => if r.head?.map byteClass = some (byteClass b) then (b :: r) :: rs else [b] :: r :: rs

/-- The space directly before a chunk of another class joins its start; `lead` says that a space waits to join. -/
def joinSpaces : Bool → List (List Byte) → List (List Byte)
  | _, [] => []
  | lead, r :: rest =>
    let pre : List Byte := if lead then [32#8] else []
    if r.head?.map byteClass = some .space ∧ rest ≠ [] then
      (if r.length ≤ 1 then [] else [r.take (r.length - 1)]) ++ joinSpaces true rest
    else (pre ++ r) :: joinSpaces false rest

/-- A digit chunk is cut every 3 digits from its start; a joined space stays with the first piece. -/
def cutDigits (r : List Byte) : List (List Byte) :=
  let lead := r.takeWhile (fun b => byteClass b = .space)
  let digits := r.drop lead.length
  if digits.head?.map byteClass = some .digit then
    (match chunks 3 digits.length digits with
     | [] => [r]
     | c :: cs => (lead ++ c) :: cs)
  else [r]

/-- The merge of lowest rank among adjacent pairs, and the leftmost place it occurs. -/
def TokImage.bestMerge (t : TokImage) (ids : List Nat) : Option (Nat × Nat) :=
  let pairs := ids.zip (ids.drop 1)
  (List.range t.merges).findSome? (fun r =>
    let (a, b, c) := t.merge r
    (pairs.findIdx? (fun p => decide (p = (a, b)))).map (fun i => (i, c)))

def TokImage.mergeAll (t : TokImage) : Nat → List Nat → List Nat
  | 0, ids => ids
  | fuel + 1, ids =>
    match t.bestMerge ids with
    | none => ids
    | some (i, c) => t.mergeAll fuel (ids.take i ++ c :: ids.drop (i + 2))

/-- Identifiers of bytes that hold no special token. -/
def TokImage.plain (t : TokImage) (bs : List Byte) : List Nat :=
  ((joinSpaces false (classRuns bs)).flatMap cutDigits).flatMap (fun c => t.mergeAll c.length (c.map t.byteId))

/-- R268: tokenise; `acc` holds plain bytes read so far, newest first. -/
def TokImage.tokenise (t : TokImage) : Nat → List Byte → List Byte → List Nat
  | 0, acc, _ => t.plain acc.reverse
  | fuel + 1, acc, bs =>
    match bs with
    | [] => t.plain acc.reverse
    | b :: rest =>
      match t.specialAt (b :: rest) with
      | some i => t.plain acc.reverse ++ i :: t.tokenise fuel [] ((b :: rest).drop (t.string i).length)
      | none => t.tokenise fuel (b :: acc) rest

/-! ### Detokenising (R269) -/

/-- Length of the UTF-8 sequence a byte begins; 1 for bytes that begin none. -/
def utf8Len (b : Byte) : Nat :=
  let n := b.toNat
  if 0xC0 ≤ n ∧ n < 0xE0 then 2 else if 0xE0 ≤ n ∧ n < 0xF0 then 3 else if 0xF0 ≤ n ∧ n < 0xF8 then 4 else 1

def isCont (b : Byte) : Bool := decide (0x80 ≤ b.toNat ∧ b.toNat < 0xC0)

/-- Bytes at the end that begin a UTF-8 sequence and do not complete it: 0 to 3. -/
def utf8Tail (bs : List Byte) : Nat :=
  let n := bs.length
  ((List.range 3).findSome? (fun i =>
    let k := i + 1
    if k ≤ n ∧ ((bs.drop (n - k)).drop 1).all isCont then
      (match bs[n - k]? with
       | some b => if isCont b then none else some (if k < utf8Len b then k else 0)
       | none => none)
    else none)).getD 0

/-! ### Stop sequences (R270) -/

/-- Occurrences of a sequence in a list: the start of the first. -/
def findSeq (xs pat : List Nat) : Option Nat :=
  if pat.isEmpty then none
  else (List.range (xs.length + 1 - pat.length)).find? (fun i => decide ((xs.drop i).take pat.length = pat))

/-- The stop sequence that completes: earliest start, then lowest record; its start and length. -/
def stopMatch (stops : List (List Nat)) (xs : List Nat) : Option (Nat × Nat) :=
  stops.foldl (fun best p => match findSeq xs p with
    | none => best
    | some i => match best with
      | some (j, n) => if i < j then some (i, p.length) else some (j, n)
      | none => some (i, p.length)) none

/-- Length of the longest end of the list that begins a stop sequence. -/
def stopTail (stops : List (List Nat)) (xs : List Nat) : Nat :=
  ((List.range (xs.length + 1)).filter (fun k => stops.any (fun p => decide (k < p.length) && decide (p.take k = xs.drop (xs.length - k))))).foldl max 0

/-! ### The sampler (R262 to R266) -/

/-- R264. -/
def drawBits (seed : DWord) (k : Nat) : DWord :=
  let x := seed ^^^ (BitVec.ofNat 64 k * 0x9E3779B97F4A7C15#64)
  let x := (x ^^^ (x >>> 30)) * 0xBF58476D1CE4E5B9#64
  let x := (x ^^^ (x >>> 27)) * 0x94D049BB133111EB#64
  x ^^^ (x >>> 31)

def drawUnit (seed : DWord) (k : Nat) : F32 := F32.mul (F32.ofInt ((drawBits seed k >>> 40).toNat : Int)) 0x33800000#32

/-- R262 step 1 for one logit. -/
def penalise (x : Stream) (l : F32) (c : Nat) : F32 :=
  if c = 0 then l
  else
    let l := if F32.lt 0#32 l then F32.div l x.repPenalty else F32.mul l x.repPenalty
    F32.sub (F32.sub l (F32.mul (F32.ofInt c) x.freqPenalty)) x.presPenalty

/-- Running sums, ascending; a NaN weight counts as 0 (R266). -/
def runningSums (ws : List F32) : List F32 :=
  (ws.foldl (fun (acc : List F32 × F32) w => let t := F32.add acc.2 (if F32.isNaN w then 0#32 else w)
    (acc.1 ++ [t], t)) ([], 0#32)).1

/-- R262 from step 2 on: the token; none when every logit is NaN (R266). `stray` picks where rounding leaves no running sum
above the draw, a case the spec gives no result for. -/
def sampleToken (x : Stream) (ls : List F32) (ordinal stray : Nat) : Option Nat :=
  if ls.all F32.isNaN then none
  else if F32.isZero x.temperature then ((topK false 1 ls).head?).map Prod.snd
  else
    let ls := ls.map (fun l => F32.div l x.temperature)
    let cand := topK false (if x.topK = 0 then 1024 else x.topK) ls
    let l0 := (cand.headD (0#32, 0)).1
    let ws := cand.zipIdx.map (fun (c, i) => if i = 0 then one32 else F32.expo (F32.sub c.1 l0))
    let kept := (ws.zipIdx.takeWhile (fun (w, i) => decide (i = 0) || F32.le x.minP w)).map Prod.fst
    let sums := runningSums kept
    let topP := if F32.lt one32 x.topP then one32 else x.topP
    let t := F32.mul topP (sums.getLastD 0#32)
    let n := match sums.findIdx? (fun r => F32.le t r) with | some i => i + 1 | none => kept.length
    let sums := sums.take n
    let s := F32.mul (drawUnit x.seed ordinal) (sums.getLastD 0#32)
    match sums.findIdx? (fun r => F32.lt s r) with
    | some i => (cand[i]?).map Prod.snd
    | none => (cand[stray % max 1 n]?).map Prod.snd

/-- R263: are the sampling parameters acceptable? -/
def samplingOk (x : Stream) : Bool :=
  F32.isFinite x.temperature && !(F32.lt x.temperature 0#32) && F32.isFinite x.repPenalty && F32.lt 0#32 x.repPenalty &&
  F32.isFinite x.freqPenalty && F32.isFinite x.presPenalty && F32.lt 0#32 x.topP && F32.le 0#32 x.minP && F32.le x.minP one32 &&
  decide (x.topK ≤ 1024) && decide (x.stopCount ≤ 8) && decide (x.endCount ≤ 4)

end Sys2Proof.Machine
end

