-- ==== Sys2Proof/Machine/Streams.lean ====
section
/-! DEFINITION. Streams: the stream entry, token history, count table, delivery of token records, and undoing what an input or a step
added to the key-value store (R250 to R253, R265, R269, R270, R295, R422). The model's own choices: log 34 serving (DEDUCED, DESIGN
CHOICE). -/

namespace Sys2Proof.Machine

/-! ### The stream entry (R250) -/

def StreamState.code : StreamState → Nat
  | .free => 0 | .admitted => 1 | .prefill => 2 | .decode => 3 | .shipping => 4 | .parked => 5 | .mirroring => 6 | .done => 7

def Stream.text (x : Stream) : Bool := x.flags.testBit 0
def Stream.penalisePrompt (x : Stream) : Bool := x.flags.testBit 1
def Stream.includeStop (x : Stream) : Bool := x.flags.testBit 2
def Stream.skipSpecial (x : Stream) : Bool := x.flags.testBit 3

/-- Bytes 0 to 135 of a stream's entry. -/
def Stream.entryBytes (x : Stream) : List Byte :=
  [BitVec.ofNat 8 x.state.code, BitVec.ofNat 8 (x.context % 64 + 64 * b2n x.remote + 128 * b2n x.mirrored),
   BitVec.ofNat 8 x.flags, BitVec.ofNat 8 x.endReason] ++
  natLE 2 x.tokenRing ++ natLE 2 x.peer ++ natLE 8 x.seed.toNat ++ natLE 8 x.admitTime.toNat ++ natLE 8 x.lastStep.toNat ++
  natLE 4 x.promptLen ++ natLE 4 x.generated ++ natLE 4 x.maxNew ++ natLE 4 x.delivered ++ natLE 8 x.kvDir ++
  natLE 8 x.countsAddr ++ natLE 8 x.historyAddr ++
  [x.temperature, x.topP, x.minP, x.repPenalty, x.freqPenalty, x.presPenalty].flatMap (fun f => natLE 4 f.toNat) ++
  natLE 2 x.topK ++ [BitVec.ofNat 8 x.stopCount, BitVec.ofNat 8 x.endCount] ++ x.endTokens.flatMap (natLE 4) ++
  natLE 8 x.stopAddr ++ natLE 8 x.tag.toNat ++ [BitVec.ofNat 8 x.parkedFrom.code, 0#8, 0#8, 0#8]

/-- Take TEMPERATURE to TAG from entry bytes 72 to 131. -/
def Stream.withParams (x : Stream) (b : List Byte) : Stream :=
  let num := fun (lo n : Nat) => tblNum b lo n
  let flt := fun (lo : Nat) => (BitVec.ofNat 32 (num lo 4) : F32)
  { x with
    temperature := flt 72, topP := flt 76, minP := flt 80, repPenalty := flt 84, freqPenalty := flt 88, presPenalty := flt 92
    topK := num 96 2, stopCount := num 98 1, endCount := num 99 1, endTokens := tabulate 4 (fun i => num (100 + 4 * i) 4)
    stopAddr := num 116 8, tag := BitVec.ofNat 64 (num 124 8) }

/-- The entry a standby keeps of the bytes it is sent: all but the state, the addresses and the ring. -/
def Stream.ofEntry (b : List Byte) : Stream :=
  let num := fun (lo n : Nat) => tblNum b lo n
  { Stream.reset.withParams b with
    context := num 1 1 % 64, flags := num 2 1, seed := BitVec.ofNat 64 (num 8 8), admitTime := BitVec.ofNat 64 (num 16 8)
    lastStep := BitVec.ofNat 64 (num 24 8), promptLen := num 32 4, generated := num 36 4, maxNew := num 40 4, delivered := num 44 4 }

/-! ### Token history and positions (R251) -/

def Stream.history (st : Nat) : Nat := tier0Base + 64 * Config.historyLine st
def Stream.counts (st : Nat) : Nat := tier0Base + 64 * Config.countsLine st

/-- Positions of a stream: its input and its generated tokens. -/
def Stream.positions (x : Stream) : Nat := x.promptLen + x.generated

/-- Position of the token of an ordinal. -/
def Stream.posOf (x : Stream) (k : Nat) : Nat :=
  match (x.work.spans.filter (fun p => decide (p.1 ≤ k))).getLast? with
  | some (k0, p0) => p0 + (k - k0)
  | none => x.promptLen + k

def State.historyAt (s : State) (st p : Nat) : Nat := s.readLE (Stream.history st + 4 * p) 4

/-- Write token identifiers from a position on. -/
def State.writeHistory (s : State) (st p : Nat) (ids : List Nat) : State :=
  s.writeBytes (Stream.history st + 4 * p) ((ids.take (maxPositions - p)).flatMap (natLE 4))

/-! ### The count table (R265): 4,096 records of 8 bytes, in use while their count is not 0 -/

def countRecords : Nat := 4096
def State.countTok (s : State) (st i : Nat) : Nat := s.readLE (Stream.counts st + 8 * i) 4
def State.countNum (s : State) (st i : Nat) : Nat := s.readLE (Stream.counts st + 8 * i + 4) 2

/-- Record of a token. -/
def State.countOf (s : State) (st tok : Nat) : Option Nat :=
  (List.range countRecords).find? (fun i => decide (s.countTok st i = tok) && decide (s.countNum st i ≠ 0))

/-- Count of a token. -/
def State.countFor (s : State) (st tok : Nat) : Nat := match s.countOf st tok with | some i => s.countNum st i | none => 0

/-- Add 1 to a token's count: saturates at 65,535; a full table leaves the token out. -/
def State.countAdd (s : State) (st tok : Nat) : State :=
  match s.countOf st tok with
  | some i => s.writeLE (Stream.counts st + 8 * i + 4) 2 (min 65535 (s.countNum st i + 1))
  | none =>
    match (List.range countRecords).find? (fun i => decide (s.countNum st i = 0)) with
    | some i => s.writeBytes (Stream.counts st + 8 * i) (natLE 4 tok ++ natLE 2 1 ++ [0#8, 0#8])
    | none => s

/-- Take 1 from a token's count (R253). -/
def State.countSub (s : State) (st tok : Nat) : State :=
  match s.countOf st tok with
  | some i => s.writeLE (Stream.counts st + 8 * i + 4) 2 (s.countNum st i - 1)
  | none => s

/-- Is a line of the count table marked (R343)? -/
def State.countsMarked (s : State) (st : Nat) : Bool := s.anyMarked (Stream.counts st) (8 * countRecords)

/-! ### Tokenisers (R267 to R270) -/

def State.tokeniser (s : State) (c : Nat) : Option TokImage := Tab.find s.tokenisers c

/-- String of a token in a context's tokeniser; empty where it has none. -/
def State.tokString (s : State) (c id : Nat) : List Byte :=
  match s.tokeniser c with
  | some t => if id < t.vocab then t.string id else []
  | none => []

def State.isSpecial (s : State) (c id : Nat) : Bool :=
  match s.tokeniser c with | some t => t.specialIds.contains id | none => false

/-- Length byte of a stop record (R270). -/
def State.stopLen (s : State) (x : Stream) (i : Nat) : Nat := s.readLE (x.stopAddr + 72 * i) 1

/-- R270: every stop record has a length in range. -/
def State.stopsOk (s : State) (x : Stream) : Bool :=
  (List.range x.stopCount).all (fun i => let n := s.stopLen x i
    decide (1 ≤ n) && decide (n ≤ if x.text then 64 else 16))

/-- Stop sequences as bytes or identifiers. -/
def State.stops (s : State) (x : Stream) : List (List Nat) :=
  tabulate x.stopCount (fun i => tabulate (s.stopLen x i) (fun j =>
    if x.text then s.readLE (x.stopAddr + 72 * i + 8 + j) 1 else s.readLE (x.stopAddr + 72 * i + 8 + 4 * j) 4))

/-- A tokeniser that waits takes over once no stream of its context is in ADMITTED or PREFILL (R267). -/
def State.applyTokeniser (s : State) (c : Nat) : State :=
  match Tab.find s.tokWait c with
  | none => s
  | some ws =>
    if !(s.streamsIn c (fun t => decide (t = .admitted ∨ t = .prefill))).isEmpty then s
    else ws.foldl (fun s w => { s with tokenisers := Tab.put s.tokenisers c w.image }.complete w.cmd stOk 0)
      { s with tokWait := Tab.del s.tokWait c }

/-! ### Delivery (R269, R270, R295) -/

/-- Items that a stream draws from a token: its identifier, or in text mode its bytes (R269). -/
def State.itemsOf (s : State) (x : Stream) (k id : Nat) : List (Nat × Nat) :=
  if !x.text then [(k, id)]
  else if x.skipSpecial && s.isSpecial x.context id then []
  else (s.tokString x.context id).map (fun b => (k, b.toNat))

def asBytes (xs : List (Nat × Nat)) : List Byte := xs.map (fun p => BitVec.ofNat 8 p.2)

/-- How many of the items may be delivered: all but an end that may begin a stop sequence, or in text mode a UTF-8 sequence. -/
def releasable (text : Bool) (stops : List (List Nat)) (xs : List (Nat × Nat)) : Nat :=
  let n := xs.length - stopTail stops (xs.map Prod.snd)
  if text then n - utf8Tail (asBytes (xs.take n)) else n

/-- Items move to the ready list; ordinals already delivered are not delivered again (R273). -/
def Stream.release (x : Stream) (go keep : List (Nat × Nat)) : Stream :=
  { x with work := { x.work with ready := x.work.ready ++ go.filter (fun p => decide (x.delivered ≤ p.1)), heldBack := keep } }

/-- The stream ends: what is held back goes out, and a record with END is due. -/
def Stream.finish (x : Stream) (reason : Nat) (pending : List (Nat × Nat)) : Stream :=
  let y := x.release pending []
  { y with state := .done, endReason := reason, work := { y.work with endDue := true } }

/-- Items that may go to the host now: while mirrored, those the standby has acknowledged (R271). -/
def Stream.deliverable (x : Stream) : List (Nat × Nat) :=
  if x.mirrored then x.work.ready.takeWhile (fun p => decide (p.1 < x.work.acked)) else x.work.ready

/-- Items of the next record: 10 identifiers, or whole tokens up to 40 bytes; a longer token is cut (R295). -/
def Stream.nextItems (x : Stream) : List (Nat × Nat) :=
  let xs := x.deliverable
  if !x.text then xs.take 10
  else match xs with
    | [] => []
    | (k, _) :: _ =>
      let one := xs.takeWhile (fun p => decide (p.1 = k))
      if 40 ≤ one.length then one.take 40
      else
        let n := ((List.range 41).filter (fun n => decide (n ≤ xs.length) &&
          (decide (n = xs.length) || decide ((xs[n]?).map Prod.fst ≠ (xs[n - 1]?).map Prod.fst)))).foldl max 0
        xs.take (max n one.length)

/-- Sampled tokens that a stream may have beyond its written records (R295). -/
def tokenLimit : Nat := 64

/-- A text stream has reached the limit of R295 with tokens that give no bytes, and nothing is held back: a record of no bytes takes them
(log 34). -/
def Stream.silent (x : Stream) : Bool :=
  x.text && x.work.ready.isEmpty && x.work.heldBack.isEmpty && decide (x.delivered + tokenLimit ≤ x.generated)

/-- The next token record of a stream, if one is due, and the machine with it taken from the stream (R295). -/
def State.nextRecord (s : State) (st : Nat) : Option (List Byte × State) :=
  let x := s.stream st
  let items := x.nextItems
  let rest := x.work.ready.drop items.length
  let last := x.work.endDue && rest.isEmpty
  if items.isEmpty && !last && !x.silent then none
  else
    let (fill, s) := s.draw
    let more := fun (k : Nat) => (rest ++ x.work.heldBack).any (fun p => decide (p.1 = k))
    let first := match items with | p :: _ => p.1 | [] => fill % 2 ^ 32
    let delivered := match items.getLast? with
      | some p => max x.delivered (if more p.1 then p.1 else p.1 + 1)
      | none => if x.silent then x.generated else x.delivered
    let flags := 2 * b2n last + 4 * b2n x.text + 8 * b2n (x.text && more first && !items.isEmpty)
    let body := if x.text then asBytes items else items.flatMap (fun p => natLE 4 p.2)
    let bs := [0x03#8, BitVec.ofNat 8 flags, BitVec.ofNat 8 x.endReason, BitVec.ofNat 8 items.length] ++ natLE 2 st ++ [0#8, 0#8] ++
      natLE 8 x.tag.toNat ++ natLE 4 first ++ natLE 4 delivered ++ body ++ natLE (40 - body.length) fill
    some (bs, s.setStream st { x with delivered := delivered, work := { x.work with ready := rest, endDue := x.work.endDue && !last } })

/-- One token record, if one is due and the ring takes it (R295, R302). -/
def State.deliverOne (s : State) (st : Nat) : Option State :=
  let r := s.ring (s.stream st).tokenRing
  if !r.enabled || decide (r.kind ≠ 3) || r.full || !r.waiting.isEmpty then none
  else (s.nextRecord st).map (fun (bs, t) => t.writeToken (s.stream st).tokenRing bs)

/-- Write every record that is due while the ring takes them. -/
def State.deliver (s : State) (st : Nat) : Nat → State
  | 0 => s
  | fuel + 1 => match s.deliverOne st with
    | none => s
    | some s => s.deliver st fuel

/-- Enough for the 4 KiB of text and 64 tokens a stream may have beyond its records. -/
def deliverFuel : Nat := 8192

def State.deliverAll (s : State) (st : Nat) : State := s.deliver st deliverFuel

/-- Streams of a token ring write what waits (R295, R302). -/
def State.deliverRing (s : State) (n : Nat) : State :=
  ((s.streams.filter (fun p => decide (p.2.tokenRing = n))).map Prod.fst).foldl State.deliverAll s

/-- Every record that is due goes to the stream's ring, and waits there while the ring does not take it: a record is never dropped
(R293). -/
def State.flushTokens (s : State) (st : Nat) : Nat → State
  | 0 => s
  | fuel + 1 =>
    let n := (s.stream st).tokenRing
    if (s.ring n).kind ≠ 3 then s
    else match s.nextRecord st with
      | none => s
      | some (bs, t) => (t.putToken n bs).flushTokens st fuel

/-- R295: may the stream sample one token more? A token's string has at most 256 bytes (R267). -/
def Stream.mayDraw (x : Stream) : Bool :=
  let xs := x.work.ready ++ x.work.heldBack
  decide (x.generated < x.delivered + tokenLimit) && (!x.text || decide (xs.length + 256 ≤ 4096))

/-! ### Undoing an input or a step (R253, R422) -/

/-- Set a layer page's FILL back and reopen it: the tokens from FILL on have codes 0 and scale 0 again, as in a page that was never
sealed (R212, R213). -/
def State.reopenPage (s : State) (i : PageId) (fill : Nat) : State :=
  let e := s.pte i
  if !e.valid || decide (leNat (s.slotRead e.tier e.slot 0x885 1) ≤ fill) then s
  else
    let zeros := fun (n : Nat) => List.replicate n 0#8
    let clear := fun (s : State) (base : Nat) =>
      (s.pageWrite e (base + 64 * fill) (zeros (64 * (16 - fill)))).pageWrite e (base + 0x400 + 4 * fill) (zeros (4 * (16 - fill)))
    let s := clear (clear s 0) 0x440
    ((s.pageWrite e 0x885 [BitVec.ofNat 8 fill, 0#8]).pageWrite e 0x88C (zeros 12)).pageWrite e 0x8BC (zeros 68)

/-- Free one page. -/
def State.freePage (s : State) (i : PageId) : State :=
  let e := s.pte i
  if !e.valid then s
  else
    let s := if e.cached then s.evict e.cslot else s
    (s.kvRelease e.tier e.slot).setPte i (PtEntry.of 0)

/-- Set TOKENS of every layer back to `base`, free the pages above it and reopen the page it falls in. -/
def State.rollbackKv (s : State) (st base : Nat) : State :=
  let d := (s.stream st).kvDir
  if d = 0 then s
  else
    let s := s.dropFetches (fun f => decide (f.id.stream = st) && decide (base ≤ 16 * f.id.page))
    let s := (s.pagesOf st).foldl (fun s i =>
      if base ≤ 16 * i.page then s.freePage i
      else if i.page = base / 16 then s.reopenPage i (base % 16)
      else s) s
    (List.range (s.dirLayers d)).foldl (fun s l =>
      (s.setTokens d l (min base (s.dirTokens d l))).repin st l) s

/-- R253: discard what the cancelled input added. -/
def State.discardInput (s : State) (st : Nat) : State :=
  let x := s.stream st
  let s := s.rollbackKv st x.work.basePos
  let added := x.promptLen - x.work.basePrompt
  let first := x.work.basePrompt + x.generated
  let s := if x.penalisePrompt && !x.work.queued then
      (List.range added).foldl (fun t i => t.countSub st (s.historyAt st (first + i))) s
    else s
  s.modStream st (fun x => { x with promptLen := x.work.basePrompt, remote := false
                                    work := { x.work with spans := x.work.spans.dropLast, queued := false } })

/-! ### Messages to other packages (R259, R271, R355) -/

/-- Hand a MAIL message to the fabric; the firmware's layout of its body is open. -/
def State.mailTo (s : State) (pkg : Nat) : State :=
  { s.handFab 2 1 pkg 0 0 (Config.mailBody s.free) with free := s.free + 1 }

/-! ### Ends of streams -/

/-- PREFILL jobs that the scheduler has formed leave a stream out (R253). -/
def State.dropPrefill (s : State) (st : Nat) : State :=
  let without := s.prefillJobs.map (fun p => { p with entries := p.entries.filter (fun e => decide (e.1 ≠ st)) })
  { s with prefillJobs := without.filter (fun p => !p.entries.isEmpty) }

/-- R253: the cancel of a stream that may end now: DONE with reason 5, the input discarded. -/
def State.endInput (s : State) (st : Nat) (e : SubEntry) : State :=
  let x := s.stream st
  let s := if x.remote then s.mailTo x.peer else s
  let s := (s.dropPrefill st).discardInput st
  let s := s.modStream st (fun x => { (x.finish 5 x.work.heldBack) with work := { (x.finish 5 x.work.heldBack).work with cancel := none } })
  ((s.deliverAll st).complete e stOk 0).applyTokeniser x.context

/-- Cancelled inputs whose posted jobs are done (R253). -/
def State.settleCancels (s : State) : State :=
  (s.streams.filterMap (fun p => match p.2.work.cancel with
    | some e => if p.2.state = .prefill then some (p.1, e) else none
    | none => none)).foldl (fun s (st, e) => if s.jobsOf st then s else s.endInput st e) s

/-- The stream's entry becomes FREE, its slots and jobs of the page mover with it; a standby is told; a tokeniser that waited for the
stream takes over (R252, R267, R271). -/
def State.freeStream (s : State) (st : Nat) : State :=
  let x := s.stream st
  let s := if x.mirrored then s.mailTo x.peer else s
  let s := ((s.dropPrefill st).kvReleaseAll st).setStream st Stream.reset
  { s with parks := Tab.del s.parks st }.applyTokeniser x.context

/-- TOKENS of every layer equals the stream's positions: every page of its input is present (R252). -/
def State.pagesPresent (s : State) (st : Nat) : Bool :=
  let x := s.stream st
  decide (x.kvDir ≠ 0) && (List.range (s.dirLayers x.kvDir)).all (fun l => decide (s.dirTokens x.kvDir l = x.positions))

/-- Does the live set of a saturated context let a stream run (R144)? -/
def State.mayRun (s : State) (st : Nat) : Bool :=
  let x := s.stream st
  let c := s.ctx x.context
  !c.saturated || (decide (x.state = .decode) && c.liveSet.contains st)

end Sys2Proof.Machine
end

