-- ==== Sys2Proof/Machine/Serving.lean ====
section
/-! DEFINITION. Serving: the stream commands, the prefill scheduler, the sampler's step, mirroring and takeover, profiles, tokenisers and
the end of a context (R180, R253 to R277). The model's own choices: log 34 serving (DEDUCED, DESIGN CHOICE). -/

namespace Sys2Proof.Machine

/-! ### STREAM_OPEN and STREAM_CONTINUE (R254 to R257, R263) -/

/-- R256: may records of a context go to this ring? `sub` is the submission ring whose port and function it must share; none
for a mirror. -/
def State.tokenRingOk (s : State) (n ctx : Nat) (sub : Option Ring) : Bool :=
  let r := s.ring n
  decide (n < 8192) && r.enabled && decide (r.kind = 3) && r.binds ctx &&
  (match sub with | some q => decide (r.fn = q.fn) | none => true)

/-- Token identifiers of an input: as given, or tokenised (R254, R268); none for text without a tokeniser. -/
def State.inputTokens (s : State) (ctx : Nat) (text : Bool) (len : Nat) (input : List Byte) : Option (List Nat) :=
  if text then (s.tokeniser ctx).map (fun t => let bs := input.take len
    t.tokenise bs.length [] bs)
  else some (tabulate len (fun i => tblNum input (4 * i) 4))

/-- Streams of a context outside FREE. -/
def State.streamsOf (s : State) (c : Nat) : Nat := (s.streamsIn c (fun t => decide (t ≠ .free))).length

/-- Lowest FREE entry of the stream table (R250). -/
def State.freeEntry (s : State) : Option Nat := searchFrom (fun i => decide ((s.stream i).state = .free)) 65536 0

/-- R251: is a context below its quota of streams? -/
def State.quotaRoom (s : State) (c : Nat) : Bool :=
  let q := s.rfld (0xA6100 + 4 * c) 19 4
  decide (s.streamsOf c < if q = 0 then 65536 else q)

/-- R255: may a context take one stream more? -/
def State.admits (s : State) (c : Nat) : Bool :=
  let x := s.ctx c
  s.quotaRoom c && x.live && !x.saturated && decide (s.rfld 0xA6000 1 0 ≠ 1)

/-- Clear a stream's count table and write its first input. -/
def State.enterStream (s : State) (st : Nat) (x : Stream) (ids : List Nat) : State :=
  let s := s.zeroBytes (Stream.counts st) (8 * countRecords)
  (s.writeHistory st 0 ids).setStream st { x with
    state := .admitted, promptLen := ids.length, countsAddr := Stream.counts st, historyAddr := Stream.history st, admitTime := s.time
    work := { StreamWork.reset with queued := true, spans := [(0, ids.length)] } }

/-- With no stream processor in service, commands that need one complete with DEVICE_FAULT (R423). -/
def State.noProcessor (s : State) : Bool := s.power.ready.isSome && decide (s.reg 0xA0004 = 0#32)

def streamOpen (e : SubEntry) (params : BitVec 512) (input : List Byte) (s : State) : State :=
  let c := e.byte 16
  let r := s.ring e.sq
  let x := Stream.reset.withParams (List.replicate 72 0#8 ++ natLE 64 params.toNat)
  let x := { x with context := c, flags := e.byte 17, tokenRing := e.num 18 19, maxNew := e.num 20 23 }
  let len := e.num 24 27
  if s.noProcessor then s.complete e stDeviceFault 0
  else match s.inputTokens c x.text len input with
  | none => s.complete e stAccessFault 0
  | some ids =>
    if !(s.tokenRingOk x.tokenRing c (some r)) || decide (32 ≤ x.flags) || !(samplingOk x) || !(s.stopsOk x) ||
        decide (fld params 511 480 ≠ 0) || decide (len = 0) || decide (maxPositions < ids.length) then s.complete e stAccessFault 0
    else match s.freeEntry with
      | none => s.complete e stNoCapacity 0
      | some st =>
        if !(s.admits c) then s.complete e stNoCapacity 0
        else
          let seed := if x.flags.testBit 4 then s.time else BitVec.ofNat 64 (e.num 32 39)
          ((s.enterStream st { x with seed := seed } ids).bump 0xA605C 1).complete e stOk st

/-- STREAM_OPEN (R254 to R256, R263, R267): `params` and `input` are what the host's memory holds at PARAMS and INPUT. -/
def execStreamOpen (e : SubEntry) (params : BitVec 512) (input : List Byte) (s : State) : Host.Outcome State Fault Refusal :=
  next (s.command e cmdStreamOpen (streamOpen e params input))

/-- State a command finds its stream in: commands of a stream take effect in order (R288), so one behind a park finds PARKED. -/
def State.cmdState (s : State) (st : Nat) : StreamState :=
  match s.park st with | some p => if p.parked then (s.stream st).state else .parked | none => (s.stream st).state

def streamContinue (e : SubEntry) (input : List Byte) (s : State) : State :=
  let st := e.num 16 17
  let x := s.stream st
  let len := e.num 24 27
  if s.cmdState st ≠ .done then s.complete e stAccessFault 0
  else if s.noProcessor then s.complete e stDeviceFault 0
  else match s.inputTokens x.context x.text len input with
    | none => s.complete e stAccessFault 0
    | some ids =>
      if !(samplingOk x) || !(s.stopsOk x) || decide (len = 0) || decide (maxPositions < x.positions + ids.length) then
        s.complete e stAccessFault 0
      else if (s.ctx x.context).saturated || !(s.ctx x.context).live then s.complete e stNoCapacity 0
      else
        let base := if x.kvDir = 0 then 0 else s.dirTokens x.kvDir 0
        let s := s.writeHistory st x.positions ids
        let n := x.positions + ids.length
        (s.setStream st { x with
          state := .prefill, promptLen := x.promptLen + ids.length, maxNew := e.num 20 23, endReason := 0
          work := { x.work with basePos := base, basePrompt := x.promptLen, baseGen := x.generated
                                spans := x.work.spans ++ [(x.generated, n)], queued := true } }).complete e stOk 0

/-- STREAM_CONTINUE (R254): a DONE stream takes new input and is in PREFILL. -/
def execStreamContinue (e : SubEntry) (input : List Byte) (s : State) : Host.Outcome State Fault Refusal :=
  next (s.command e cmdStreamContinue (streamContinue e input))

/-! ### STREAM_CANCEL, STREAM_CLOSE (R252 to R254) -/

def streamCancel (e : SubEntry) (s : State) : State :=
  let st := e.num 16 17
  let x := s.stream st
  if x.work.cancel.isSome then s.complete e stAccessFault 0
  else match s.cmdState st with
    | .admitted => s.endInput st e
    | .prefill =>
      if s.jobsOf st then (s.dropPrefill st).modStream st (fun x => { x with work := { x.work with cancel := some e } }) else s.endInput st e
    | .decode =>
      if s.mayRun st then s.modStream st (fun x => { x with work := { x.work with cancel := some e } })
      else ((s.setStream st (x.finish 5 x.work.heldBack)).deliverAll st).complete e stOk 0
    | _ => s.complete e stAccessFault 0

/-- STREAM_CANCEL (R253, R277): at once in ADMITTED, once its posted jobs are done in PREFILL, after the step in DECODE. -/
def execStreamCancel (e : SubEntry) (s : State) : Host.Outcome State Fault Refusal := next (s.command e cmdStreamCancel (streamCancel e))

/-- Drop a stream's standby (R271, R277). -/
def State.dropMirror (s : State) (st : Nat) : State :=
  let x := s.stream st
  if x.mirrored then
    let s := (s.mailTo x.peer).setStream st { x with mirrored := false, work := { x.work with mirrorCmd := none } }
    let s := match x.work.mirrorCmd with | some e => s.complete e stAborted 0 | none => s
    s.deliverAll st
  else s

def streamClose (e : SubEntry) (s : State) : State :=
  let st := e.num 16 17
  if s.cmdState st = .done then (((s.dropMirror st).flushTokens st deliverFuel).freeStream st).complete e stOk 0
  else s.complete e stAccessFault 0

/-- STREAM_CLOSE (R252, R254, R293): records that wait for a full ring are left to the ring. -/
def execStreamClose (e : SubEntry) (s : State) : Host.Outcome State Fault Refusal := next (s.command e cmdStreamClose (streamClose e))

/-! ### STREAM_PARK, STREAM_RESUME (R243 to R245) -/

def streamPark (e : SubEntry) (s : State) : State :=
  let st := e.num 16 17
  let x := s.stream st
  let tier := e.byte 18
  let ttl := e.num 20 23
  if (x.state ≠ .decode ∧ x.state ≠ .done) ∨ (s.park st).isSome ∨ tier < 1 ∨ 2 < tier ∨ ttl < 1 ∨ 604800 < ttl then
    s.complete e stAccessFault 0
  else
    (s.dropMirror st).setPark st { cmd := some e, tier := tier, ttl := ttl, expires := 0, slot := 0, bytes := 0, parked := false, resume := none }

/-- STREAM_PARK (R243): the park waits for the stream's jobs; PARK_COMPLETE ends it. -/
def execStreamPark (e : SubEntry) (s : State) : Host.Outcome State Fault Refusal := next (s.command e cmdStreamPark (streamPark e))

def streamResume (e : SubEntry) (s : State) : State :=
  let st := e.num 16 17
  let x := s.stream st
  match s.park st with
  | some p =>
    if (x.state ≠ .parked ∧ p.parked) ∨ p.resume.isSome ∨ (p.parked ∧ p.expires ≤ s.time.toNat) then s.complete e stAccessFault 0
    else if (s.ctx x.context).saturated then s.complete e stNoCapacity 0
    else s.setPark st { p with resume := some e }
  | none => s.complete e stAccessFault 0

/-- STREAM_RESUME (R144, R244, R245): accepted before EXPIRES; RESUME_COMPLETE ends it. -/
def execStreamResume (e : SubEntry) (s : State) : Host.Outcome State Fault Refusal := next (s.command e cmdStreamResume (streamResume e))

/-! ### STREAM_QUERY, STREAM_READ_TOKENS (R250, R254) -/

/-- Write what a command returns to host memory; nothing goes through a function that was reset meanwhile (R300). -/
def State.commandWrite (s : State) (e : SubEntry) (a : Nat) (bs : List Byte) : State :=
  if s.orphans.contains e then s else s.hostWrite (s.ring e.sq).port a bs

/-- `n` bytes whose values the spec leaves open. -/
def State.openBytes (s : State) : Nat → List Byte × State
  | 0 => ([], s)
  | n + 1 => let (x, s) := s.draw
    let (bs, s) := s.openBytes n
    (BitVec.ofNat 8 x :: bs, s)

def streamQuery (e : SubEntry) (s : State) : State :=
  let st := e.num 16 17
  let (rest, s) := s.openBytes 120
  (s.commandWrite e (e.num 40 47) ((s.stream st).entryBytes ++ rest)).complete e stOk 0

/-- STREAM_QUERY (R250, R254): the 256 bytes of the entry; bytes 136 to 255 are open. -/
def execStreamQuery (e : SubEntry) (s : State) : Host.Outcome State Fault Refusal := next (s.command e cmdStreamQuery (streamQuery e))

def streamReadTokens (e : SubEntry) (s : State) : State :=
  let st := e.num 16 17
  let x := s.stream st
  let text := (e.byte 18).testBit 0
  let first := e.num 20 23
  let count := e.num 24 27
  let now := s.cmdState st
  if now ≠ .decode ∧ now ≠ .done ∧ now ≠ .mirroring then s.complete e stAccessFault 0
  else if text && (s.tokeniser x.context).isNone then s.complete e stAccessFault 0
  else
    let n := min count (x.generated - first)
    let ids := tabulate n (fun i => s.historyAt st (x.posOf (first + i)))
    let bs := if text then ids.flatMap (s.tokString x.context) else ids.flatMap (natLE 4)
    (s.commandWrite e (e.num 40 47) bs).complete e (if n = count then stOk else stPartial) (if text then bs.length else n)

/-- STREAM_READ_TOKENS (R254, R291): PARTIAL where fewer tokens than COUNT have been sampled. -/
def execStreamReadTokens (e : SubEntry) (s : State) : Host.Outcome State Fault Refusal :=
  next (s.command e cmdStreamReadTokens (streamReadTokens e))

/-! ### Mirroring (R271 to R274) -/

def streamMirror (e : SubEntry) (answer : Nat) (s : State) : State :=
  let st := e.num 16 17
  if s.cmdState st ≠ .decode ∧ s.cmdState st ≠ .done then s.complete e stAccessFault 0
  else if e.byte 18 = 0 then (s.dropMirror st).complete e stOk 0
  else if e.byte 18 ≠ 1 then s.complete e stAccessFault 0
  else if answer ≠ 0 then s.complete e (if answer = 1 then stAccessFault else stNoCapacity) 0
  else
    let s := (s.dropMirror st).modStream st (fun x => { x with
      mirrored := true, peer := e.num 20 21 % 4096
      work := { x.work with mirrorCmd := some e, acked := x.generated } })
    let s := s.mailTo (e.num 20 21 % 4096)
    let x := s.stream st
    let d := x.kvDir
    if d = 0 then s
    else (List.range (s.dirLayers d)).foldl (fun s l => s.mirrorSealed st l 0 (s.dirTokens d l)) s

/-- STREAM_MIRROR (R256, R271, R272): `answer` is what PEER replies to a set-up: 0 it has an entry, 1 its ring fails the test of
R256, 2 the context is not loaded there. A set-up completes with the first checkpoint. -/
def execStreamMirror (e : SubEntry) (answer : Nat) (s : State) : Host.Outcome State Fault Refusal :=
  next (s.command e cmdStreamMirror (streamMirror e answer))

/-- Checkpoint interval in positions (R272). -/
def State.ckptEvery (s : State) : Nat := 16 * max 1 (s.rfld 0xA6004 7 0)

/-- R272: a checkpoint is taken where a mirrored stream's position calls for one. -/
def State.mirrorStep (s : State) (st : Nat) : State :=
  let x := s.stream st
  if x.mirrored && decide (x.positions % s.ckptEvery = 0) then s.mailTo x.peer else s

/-- TOKEN_LOG_ACK (R271): the standby has the log of every ordinal up to this one; the records that waited for it go out. -/
def execTokenLogAck (st ordinal : Nat) (s : State) : Host.Outcome State Fault Refusal :=
  let x := s.stream st
  if x.mirrored && decide (ordinal < x.generated) then
    next ((s.setStream st { x with work := { x.work with acked := max x.work.acked (ordinal + 1) } }).deliverAll st)
  else next s

/-- Heartbeat period (R271). -/
def beatPeriod : Nat := us 100

/-- MIRROR_HEARTBEAT (R271): every 100 µs, to each standby package. -/
def execMirrorHeartbeat (s : State) : Host.Outcome State Fault Refusal :=
  let s := s.at (s.lastBeat + beatPeriod)
  let peers := ((s.streams.filter (fun p => p.2.mirrored)).map (fun p => p.2.peer)).eraseDups
  next (peers.foldl State.mailTo { s with lastBeat := s.now })

/-- The standby takes a checkpoint as current: with it come the history and the runs of generated tokens up to its position. -/
def State.takeCheckpoint (s : State) (st j : Nat) (cp : Checkpoint) (w : Standby) : State :=
  (s.writeHistory st 0 cp.tokens).modStream st (fun x => { x with work := { x.work with
    spans := cp.spans, standby := some { w with buffers := w.buffers.set (j % 2) (some cp), current := some (j % 2) } } })

/-- CHECKPOINT_COMPLETE (R272): on the standby, checkpoint `j` is whole in its buffer, which becomes current once every page below its
position has arrived; on the active package the first one completes the set-up. -/
def execCheckpointComplete (st j : Nat) (cp : Checkpoint) (s : State) : Host.Outcome State Fault Refusal :=
  let x := s.stream st
  match x.work.mirrorCmd, x.work.standby with
  | some e, _ => next ((s.setStream st { x with work := { x.work with mirrorCmd := none } }).complete e stOk 0)
  | none, some w =>
    next (if decide (x.state = .mirroring) && (decide (cp.pos = 0) || s.allPages st cp.pos) then s.takeCheckpoint st j cp w else s)
  | none, none => next s

/-- Restore a checkpoint's entry, history and counts, then enter the logged tokens after it (R273). -/
def State.restore (s : State) (st : Nat) (w : Standby) (cp : Checkpoint) : State :=
  let x0 := Stream.ofEntry cp.entry
  let after := w.logged.filter (fun p => decide (x0.generated ≤ p.1))
  let first := after.foldl (fun n p => max n (p.1 + 1)) x0.generated
  let x := { x0 with
    state := .decode, tokenRing := w.ring, generated := first, delivered := first, kvDir := (s.stream st).kvDir
    countsAddr := Stream.counts st, historyAddr := Stream.history st
    work := { StreamWork.reset with spans := cp.spans, baseGen := cp.baseGen, heldBack := cp.held, standby := some w, acked := cp.pos } }
  let s := (s.writeHistory st 0 cp.tokens).writeBytes (Stream.counts st) cp.counts
  let s := after.foldl (fun s p => (s.writeHistory st (x.posOf p.1) [p.2]).countAdd st p.2) s
  let held := after.foldl (fun h p =>
    let xs := h ++ s.itemsOf x p.1 p.2
    xs.drop (releasable x.text (s.stops x) xs)) cp.held
  let s := s.setStream st { x with work := { x.work with heldBack := held } }
  let s := if x.kvDir = 0 then (s.newDirectory st x.context (s.ctx x.context).layers).getD s else s
  (s.rollbackKv st cp.pos).modStream st (fun x => { x with work := { x.work with layer := s.dirLayers x.kvDir } })

/-- R273, R274: take over a mirrored stream; without a complete checkpoint its entry is freed (R277). -/
def State.takeover (s : State) (st : Nat) : State :=
  match (s.stream st).work.standby with
  | none => s
  | some w =>
    if (s.stream st).state ≠ .mirroring then s
    else match w.current.bind (fun i => (w.buffers[i]?).bind id) with
      | none => s.freeStream st
      | some cp => s.restore st w cp

/-- MIRROR_TIMEOUT (R273): no heartbeat for MIRROR_TIMEOUT. -/
def execMirrorTimeout (st : Nat) (s : State) : Host.Outcome State Fault Refusal :=
  match (s.stream st).work.standby with
  | none => next s
  | some w =>
    if (s.stream st).state ≠ .mirroring then next s
    else next ((s.at (w.lastBeat + beatPeriod * s.rfld 0xA6004 15 8)).takeover st)

/-! ### CONTEXT_UNLOAD (R180, R244, R252) -/

/-- End a stream of a context that is unloaded: END_REASON 7 is reported, what waits on the stream ends ABORTED, the entry is
FREE. -/
def State.unloadStream (s : State) (st : Nat) : State :=
  let x := s.stream st
  let cmds := x.work.cancel.toList ++ x.work.mirrorCmd.toList ++
    (match s.park st with | some p => p.cmd.toList ++ p.resume.toList | none => [])
  let s := s.setStream st { x.finish 7 x.work.heldBack with mirrored := false }
  let s := if x.mirrored then s.mailTo x.peer else s
  let s := s.flushTokens st deliverFuel
  cmds.foldl (fun s e => s.complete e stAborted 0) (s.freeStream st)

/-- Release every resource of a context (R180). -/
def State.releaseContext (s : State) (c : Nat) : State :=
  let s := match s.load c with | some l => if l.done then s else s.endCmd l stAborted | none => s
  let waits := ((Tab.find s.profileCmd c).getD []) ++ (((Tab.find s.tokWait c).getD []).map TokWait.cmd)
  let s := waits.foldl (fun s e => s.complete e stAborted 0)
    { s with profileCmd := Tab.del s.profileCmd c, tokWait := Tab.del s.tokWait c, tokenisers := Tab.del s.tokenisers c }
  (s.releaseLoad c).writeWear

/-- R252: must a stream that is to end wait: for a job of its own, or for the step it is in? -/
def State.unloadWaits (s : State) (st : Nat) : Bool := s.jobsOf st || s.inStep st

/-- Forced unloads that wait for a step to end: streams between steps end; the last one's end releases the context (R180, R252). -/
def State.settleUnload (s : State) (c : Nat) : State :=
  match Tab.find s.unloads c with
  | none => s
  | some es =>
    let s := ((s.streamsIn c (fun t => decide (t ≠ .free))).filter (fun st => !(s.unloadWaits st))).foldl State.unloadStream s
    if !(s.streamsIn c (fun t => decide (t ≠ .free))).isEmpty then s
    else es.foldl (fun s e => s.complete e stOk 0) ({ s with unloads := Tab.del s.unloads c }.releaseContext c)

def contextUnload (e : SubEntry) (s : State) : State :=
  let c := e.byte 16
  let force := e.byte 17
  if 63 < c ∨ 1 < force then s.complete e stAccessFault 0
  else if force = 0 then
    (if (s.streamsIn c (fun t => decide (t ≠ .free ∧ t ≠ .done))).isEmpty then (s.releaseContext c).complete e stOk 0
     else s.complete e stNoCapacity 0)
  else { s with unloads := Tab.put s.unloads c (((Tab.find s.unloads c).getD []) ++ [e]) }.settleUnload c

/-- CONTEXT_UNLOAD (R180, R252): FORCE = 0 refuses while streams run; FORCE = 1 ends them, one in DECODE once its step has ended; then
every resource of the context is released. -/
def execContextUnload (e : SubEntry) (s : State) : Host.Outcome State Fault Refusal := next (s.command e cmdContextUnload (contextUnload e))

/-! ### The prefill scheduler and prefill peers (R257 to R260) -/

/-- R259: the live valid peer with the most free tier-0 slots, ties to the lowest entry. -/
def State.prefillPeer (s : State) : Option Nat :=
  ((List.range 16).foldl (fun (best : Option (Nat × Nat)) k =>
    let w := s.reg (0xA6010 + 4 * k)
    if !(bit w 12) then best
    else match s.peerSlots (fld w 11 0), best with
      | some n, some (_, m) => if m < n then some (fld w 11 0, n) else best
      | some n, none => some (fld w 11 0, n)
      | none, _ => best) none).map Prod.fst

/-- Ship the layers whose PREFILL job is complete on a prefill peer; after the last one the hidden state follows, and the stream is
SHIPPING (R252, R260). -/
def State.shipPrefill (s : State) (st : Nat) : State :=
  let x := s.stream st
  match x.work.origin with
  | none => s
  | some (pkg, _) =>
    if x.state ≠ .prefill ∨ x.work.queued ∨ x.kvDir = 0 then s
    else
      let layers := s.dirLayers x.kvDir
      let ready := ((List.range layers).takeWhile (fun l => decide (s.dirTokens x.kvDir l = x.positions) && !(s.layerBusy st l))).length
      let s := s.shipPages pkg ((s.pagesOf st).filter (fun i => decide (x.work.shipped ≤ i.layer ∧ i.layer < ready)))
      let s := s.modStream st (fun x => { x with work := { x.work with shipped := max x.work.shipped ready } })
      if ready = layers then
        ((({ s.handFab 1 1 pkg 0 0 (Config.hiddenState s.free) with free := s.free + 1 }).mailTo pkg).modStream st (fun x =>
          { x with state := .shipping })).applyTokeniser x.context
      else s

/-- Streams of a context the scheduler may take: ADMITTED, or PREFILL with input not yet taken (R252, R257, R144). -/
def State.takeable (s : State) (c : Nat) : List Nat :=
  if (s.ctx c).saturated || !(s.ctx c).live then []
  else (sortBy (fun a b => decide (a.2.admitTime.toNat ≤ b.2.admitTime.toNat)) (s.streams.filter (fun p => decide (p.2.context = c) && p.2.work.queued &&
    decide (p.2.state = .admitted ∨ p.2.state = .prefill)))).map Prod.fst

/-- Take one stream: to a peer under the DECODE role where it holds no pages yet, else to local prefill. -/
def State.takePrefill (s : State) (st : Nat) : State :=
  let x := s.stream st
  let remote := if s.rfld 0xA6000 1 0 = 2 ∧ x.work.basePos = 0 ∧ x.generated = 0 ∧ x.work.origin.isNone then s.prefillPeer else none
  let dir := if x.kvDir = 0 then s.newDirectory st x.context (s.ctx x.context).layers else some s
  match dir with
  | none => s
  | some s =>
    let first := x.work.basePrompt + x.generated
    let s := if x.penalisePrompt then
        (List.range (x.promptLen - x.work.basePrompt)).foldl (fun t i => t.countAdd st (s.historyAt st (first + i))) s
      else s
    let s := s.modStream st (fun x => { x with
      state := .prefill, remote := remote.isSome, peer := if x.mirrored then x.peer else remote.getD x.peer
      work := { x.work with queued := false, peerDone := false } })
    let s := { s with prefillTurn := x.context }
    match remote with | some p => s.mailTo p | none => s

/-- Longest input of one PREFILL entry (R234). -/
def prefillChunk : Nat := 32768

/-- Length bucket of an entry: log₂ of the least power of two from 2^7 that holds it (R233). -/
def bucketOf (n : Nat) : Nat := ((List.range 16).find? (fun b => decide (7 ≤ b ∧ n ≤ 2 ^ b))).getD 15

/-- The entry a stream is ready for at a layer: its next tokens, at most 32,768 of them, once the layer before has them and no job of the
layer is formed, queued or running (R234, R257). -/
def State.prefillEntry (s : State) (st l : Nat) : Option (Nat × Nat × Nat) :=
  let x := s.stream st
  let d := x.kvDir
  let first := s.dirTokens d l
  let len := min prefillChunk (x.positions - first)
  if x.state ≠ .prefill ∨ x.remote ∨ x.work.queued ∨ x.work.cancel.isSome ∨ d = 0 ∨ s.dirLayers d ≤ l ∨ len = 0 ∨ s.layerBusy st l then none
  else if s.prefillJobs.any (fun p => decide (p.layer = l) && p.entries.any (fun e => decide (e.1 = st))) then none
  else if 0 < l ∧ (s.dirTokens d (l - 1) < first + len ∨ s.layerBusy st (l - 1)) then none
  else some (st, first, len)

/-- R257: the PREFILL jobs of one layer of a context: entries in ascending ADMIT_TIME, by length bucket, up to 64 a job and up to 65,536
positions of buckets (R233). -/
def State.layerJobs (s : State) (c l : Nat) : List PrefillJob :=
  let sts := (sortBy (fun a b => decide (a.2.admitTime.toNat ≤ b.2.admitTime.toNat)) (s.streams.filter (fun p => decide (p.2.context = c)))).map Prod.fst
  let es := sts.filterMap (fun st => s.prefillEntry st l)
  (List.range 16).flatMap (fun b =>
    let mine := es.filter (fun e => decide (bucketOf e.2.2 = b))
    (chunks (min 64 (65536 / 2 ^ b)) mine.length mine).filterMap (fun g =>
      if g.isEmpty then none else some { ctx := c, layer := l, bucket := b, entries := g }))

/-- Form the PREFILL jobs that streams are ready for, on every layer of every context in service. -/
def State.formPrefill (s : State) : State :=
  let cs := s.contexts.filter (fun p => p.2.live && !p.2.saturated)
  { s with prefillJobs := s.prefillJobs ++ cs.flatMap (fun p => (List.range p.2.layers).flatMap (s.layerJobs p.1)) }


def prefillSchedule (s : State) : State :=
  let s := s.settleCancels
  let s := (s.unloads.map Prod.fst).foldl State.settleUnload s
  let s := (s.streams.map Prod.fst).foldl State.shipPrefill s
  let s := match (List.range 64).findSome? (fun i => (s.takeable ((s.prefillTurn + 1 + i) % 64)).head?) with
    | some st => s.takePrefill st
    | none => s
  s.formPrefill

/-- PREFILL_SCHEDULE (R253, R257, R259, R260): contexts in turn, oldest stream first; then the PREFILL jobs that are ready are formed.
Cancelled inputs, forced unloads and finished layers are settled on the way. -/
def execPrefillSchedule (s : State) : Host.Outcome State Fault Refusal := next (prefillSchedule s)

/-- SHIPMENT_ACK (R252, R260): the origin has everything; the peer frees slots and entry. -/
def execShipmentAck (st : Nat) (s : State) : Host.Outcome State Fault Refusal :=
  if (s.stream st).state = .shipping then next ((s.freeStream st).bump 0xA6060 1) else next s

/-! ### The sampler's step (R252, R262 to R270) -/

/-- Reason a stream ends with the token just drawn, and what becomes of the items that wait: delivered, or held back. The
sequence of R270 decides before an end token, MAX_NEW and the position limit (R277). -/
structure Settled where
  reason : Nat
  go : List (Nat × Nat)
  keep : List (Nat × Nat)
  deriving DecidableEq, Repr

def settleToken (x : Stream) (stops : List (List Nat)) (items : List (Nat × Nat)) (id pos : Nat) (cancel : Bool) : Settled :=
  let xs := x.work.heldBack ++ items
  let endTok := (x.endTokens.take x.endCount).contains id
  match stopMatch stops (xs.map Prod.snd) with
  | some (i, n) => { reason := 2, go := xs.take (if x.includeStop then i + n else i), keep := [] }
  | none =>
    if endTok then { reason := 3, go := if x.includeStop then xs else x.work.heldBack, keep := [] }
    else if x.maxNew ≤ x.generated + 1 - x.work.baseGen then { reason := 1, go := xs, keep := [] }
    else if maxPositions ≤ pos + 1 then { reason := 4, go := xs, keep := [] }
    else if cancel then { reason := 5, go := xs, keep := [] }
    else let n := releasable x.text stops xs
      { reason := 0, go := xs.take n, keep := xs.drop n }

/-- A takeover's first new ordinal is sampled (R273). -/
def State.noteTakeover (s : State) (st : Nat) : State :=
  let x := s.stream st
  match x.work.standby with
  | none => s
  | some _ =>
    let s := (s.setStream st { x with work := { x.work with standby := none } }).bump 0xA6064 1
    s.raise evMirrorTakeover 8 (some x.context) (st + x.generated * 2 ^ 16 + x.work.acked * 2 ^ 37)

/-- After the stream has changed: deliver, complete a cancel whose stream is DONE, let a tokeniser take over, and a forced unload go on. -/
def State.afterStep (s : State) (st : Nat) : State :=
  let s := s.deliverAll st
  let x := s.stream st
  let s : State := match x.work.cancel with
    | some e => if x.state = StreamState.done then (s.setStream st { x with work := { x.work with cancel := none } }).complete e stOk 0 else s
    | none => s
  (s.applyTokeniser x.context).settleUnload x.context

def samplerDraw (st addr v : Nat) (s : State) : State :=
  let s := (s.mirrorStep st).noteTakeover st
  let x := s.stream st
  let (stray, s) := s.draw
  let used := (List.range countRecords).filterMap (fun i => let n := s.countNum st i
    if n = 0 then none else some (s.countTok st i, n))
  let ls := tabulate v (fun i => penalise x (s.f32At (addr + 4 * i)) (match used.find? (fun p => decide (p.1 = i)) with | some p => p.2 | none => 0))
  match sampleToken x ls x.generated stray with
  | none => (s.setStream st { x.finish 6 x.work.heldBack with lastStep := s.time }).afterStep st
  | some id =>
    let pos := x.positions
    let s := ((s.writeHistory st pos [id]).countAdd st id).bump 0xA6054 1
    let r := settleToken x (s.stops x) (s.itemsOf x x.generated id) id pos x.work.cancel.isSome
    let y := { x with generated := x.generated + 1, lastStep := s.time, state := .decode, remote := false, work := { x.work with layer := 0 } }
    let y := if r.reason = 0 then y.release r.go r.keep else y.finish r.reason r.go
    let s := s.setStream st y
    let s := if x.mirrored then s.mailTo x.peer else s
    s.afterStep st

/-- Does the sampler take this stream now: in a decode step every layer's job has ended in turn (R258), every page present and no job open, room for its records (R295), its context free to run (R144), no
cancel of its input, its count table readable (R343), no hand-over (R382)? -/
def State.mayDraw (s : State) (st v : Nat) : Bool :=
  let x := s.stream st
  decide (x.state = .decode ∨ (x.state = .prefill ∧ x.work.queued = false ∧ x.work.cancel = none ∧ x.work.origin = none)) &&
  decide (x.state = .decode → x.work.layer = s.dirLayers x.kvDir) && s.pagesPresent st && !(s.jobsOf st) && s.mayRun st && !s.stopped && x.mayDraw && !(s.countsMarked st) && decide (1 ≤ v ∧ v ≤ 262144)

/-- SAMPLER_DRAW (R252, R258, R262 to R270, R295): stream `st`'s `v` logits stand as binary32 at device address `addr`. -/
def execSamplerDraw (st addr v : Nat) (s : State) : Host.Outcome State Fault Refusal :=
  if s.mayDraw st v then next (samplerDraw st addr v s) else next s

/-! ### PROFILE_SET, TOKENISER_LOAD (R267, R275, R276) -/

def profileSet (e : SubEntry) (s : State) : State :=
  let c := e.byte 16
  let p := e.byte 17
  if 3 < p ∨ 63 < c then s.complete e stAccessFault 0
  else
    let s := s.setRfld (0xA6100 + 4 * c) 1 0 p
    let ks := (List.range 4096).filter (fun k => decide (s.owner k = some c))
    let s := ks.foldl (fun s k => s.modGal k (fun g => { g with newProfile := some p })) s
    let s := { s with profileCmd := Tab.put s.profileCmd c (((Tab.find s.profileCmd c).getD []) ++ [e]) }
    (ks.foldl State.takeProfile s).profileDone c

/-- PROFILE_SET (R275, R276): each gallery of the context takes the profile between flights. -/
def execProfileSet (e : SubEntry) (s : State) : Host.Outcome State Fault Refusal := next (s.command e cmdProfileSet (profileSet e))

/-- The tokeniser image at a tier-1 address: its header, then the tables the header places, then the strings they place. -/
def State.tokImage (s : State) (a : Nat) : TokImage :=
  let head := s.bytes a 64
  let lim := fun (n : Nat) => min n (tier1Base + 2 ^ 40 - a)
  let t := s.bytes a (lim ([64, tblNum head 20 4 + 1024, tblNum head 24 4 + 8 * tblNum head 8 4, tblNum head 28 4 + 12 * tblNum head 12 4,
    tblNum head 32 4 + 4 * tblNum head 16 2].foldl max 0))
  s.bytes a (lim (TokImage.extent t))

def tokeniserLoad (e : SubEntry) (s : State) : State :=
  let c := e.byte 16
  let a := e.num 40 47
  let t := if s.memOf a = some 10 ∧ s.mapped a 64 then s.tokImage a else []
  if 63 < c ∨ t = [] ∨ s.memOf a ≠ some 10 ∨ s.mapped a t.length = false ∨ s.anyMarked a t.length ∨ t.ok = false then
    s.complete e stAccessFault 0
  else
    { s with tokWait := Tab.put s.tokWait c (((Tab.find s.tokWait c).getD []) ++ [({ cmd := e, image := t } : TokWait)]) }.applyTokeniser c

/-- TOKENISER_LOAD (R267): a bad image is refused; a good one takes over once no stream of the context is in ADMITTED or
PREFILL. -/
def execTokeniserLoad (e : SubEntry) (s : State) : Host.Outcome State Fault Refusal := next (s.command e cmdTokeniserLoad (tokeniserLoad e))

end Sys2Proof.Machine
end

