-- ==== Sys2Proof/Machine/Fabric.lean ====
section
/-! DEFINITION. The Zemlink fabric: flits and control records, links, peers, messages and broadcasts (R347 to R358). The model's own
choices: log 35 fabric (DEDUCED, DESIGN CHOICE). -/

namespace Sys2Proof.Machine

/-! ### Peers (R356, R357) -/

/-- What serving does when a package is lost (R271, R274, R277): a lost standby, a lost active package, a lost prefill peer, a
lost origin. -/
def State.losePeerStream (s : State) (pkg st : Nat) : State :=
  let x := s.stream st
  if x.mirrored ∧ x.peer = pkg then
    let s := s.setStream st { x with mirrored := false, work := { x.work with mirrorCmd := none } }
    let s : State := match x.work.mirrorCmd with | some e => s.complete e stAborted 0 | none => s
    s.deliverAll st
  else if x.state = .mirroring ∧ x.work.standby.map Standby.active = some pkg then s.takeover st
  else if x.state = .prefill ∧ x.remote ∧ x.peer = pkg then
    let s := s.rollbackKv st x.work.basePos
    let first := x.work.basePrompt + x.generated
    let s := if x.penalisePrompt then
        (List.range (x.promptLen - x.work.basePrompt)).foldl (fun t i => t.countSub st (t.historyAt st (first + i))) s
      else s
    s.modStream st (fun x => { x with remote := false, work := { x.work with queued := true, peerDone := false } })
  else if x.work.origin.map Prod.fst = some pkg then s.freeStream st
  else s

/-- Source package of a message being received, once its header is in. -/
def partialFrom (p : Option (List Byte)) (pkg : Nat) : Bool :=
  match p with | some bs => decide (24 ≤ bs.length) && decide (tblNum bs 4 2 = pkg) | none => false

/-- R357: the peer's incarnation has ended: windows closed, partial messages discarded, transfers to it ended, the loss reported. -/
def State.losePeer (s : State) (pkg inc cause : Nat) : State :=
  let open_ := (s.flows.filter (fun p => decide (p.1 / 65536 = pkg) && p.2.begun)).map Prod.fst
  let s := { s with
    windows := s.windows.filter (fun p => decide (p.1 / 65536 ≠ pkg))
    flows := s.flows.filter (fun p => decide (p.1 / 65536 ≠ pkg))
    links := Tab.mapAll Link.reset (fun _ k => { k with partials := k.partials.map (fun p => if partialFrom p pkg then none else p) }) s.links
    fabOut := s.fabOut.filter (fun m => decide (m.kind = 4 ∨ m.dest ≠ pkg ∨ m.kind = 3))
    members := Tab.del s.members pkg, adverts := Tab.del s.adverts pkg }
  let s := match open_ with
    | [] => s.raise evPeerLeft 8 none (pkg + inc * 2 ^ 12 + cause * 2 ^ 28)
    | f :: _ => s.raise evPeerResetMidtransfer 8 none (pkg + inc * 2 ^ 12 + open_.length * 2 ^ 28 + (f % 65536) * 2 ^ 44)
  (s.streams.map Prod.fst).foldl (fun s st => s.losePeerStream pkg st) s

/-- A package becomes a member (R356). -/
def State.joinPeer (s : State) (pkg inc : Nat) : State :=
  { s with members := Tab.put s.members pkg inc }.raise evPeerJoined 8 none (pkg + inc * 2 ^ 12)

/-- Look at the graph again: members that no path reaches leave, a new incarnation ends the old one, reached packages join. The
spec gives no CAUSE for a loss seen as a new incarnation. -/
def State.refreshPeers (s : State) : State :=
  let reach := (s.reachable.drop 1).filterMap (fun p => (s.peerIncarnation p).map (fun i => (p, i)))
  let gone := s.members.filter (fun m => !(reach.any (fun r => decide (r.1 = m.1))))
  let s := gone.foldl (fun s m => s.losePeer m.1 m.2 0) s
  reach.foldl (fun s r => match Tab.find s.members r.1 with
    | none => s.joinPeer r.1 r.2
    | some i => if i = r.2 then s
      else
        let a := Tab.find s.adverts r.1
        let (c, s) := s.draw
        let s := s.losePeer r.1 i (c % 2)
        let s : State := match a with | some a => { s with adverts := Tab.put s.adverts r.1 a } | none => s
        s.joinPeer r.1 r.2) s

/-- Flood this package's advert on every up link (R354). -/
def State.floodAdvert (s : State) : State :=
  let s := { s with advertSeq := s.advertSeq + 1, advertAt := s.now }
  let ls := (s.links.filter (fun p => p.2.up)).map Prod.fst
  ls.foldl (fun s l => { s with
    fabOut := s.fabOut ++ [({ uid := s.nextId, kind := 3, flags := 1, dest := (s.lnk l).peer, src := s.pkgId, flow := 0, msgNo := s.advertSeq
                              offset := 0, body := Config.mailBody s.free, link := some l, sent := 0 } : FabMsg)]
    nextId := s.nextId + 1, free := s.free + 1 }) s

/-- The links have changed: members, an advert, and what may be sent now (R354, R356). -/
def State.linksChanged (s : State) : State := (s.refreshPeers.floodAdvert).pump

/-! ### Data flits (R348 to R351, R355) -/

/-- Key of a flow, or of a broadcast tree. -/
def flowKey (kind src flow dest : Nat) : Nat := if kind = 4 then 2 ^ 40 + dest else 65536 * src + flow

/-- R355: a message received whole: for this package it waits to be taken, unless it repeats one of its flow's last 64; else it
goes on by its route. A message whose header contradicts its bytes is dropped. -/
def State.rxMessage (s : State) (l : Nat) (bs : List Byte) : State :=
  let num := fun (o n : Nat) => tblNum bs o n
  let m : RxMsg := { link := l, kind := num 0 1, flags := num 1 1, dest := num 2 2, src := num 4 2, flow := num 6 2, msgNo := num 16 4
                     offset := num 12 4, body := bs.drop 24 }
  if m.kind = 0 ∨ 4 < m.kind ∨ m.body.length ≠ num 8 4 ∨ 65536 < m.body.length ∨ bs.length < 24 then s
  else if m.kind = 3 then { s with fabIn := s.fabIn ++ [m] }
  else if m.kind = 4 ∨ m.dest = s.pkgId then
    let key := flowKey m.kind m.src m.flow m.dest
    let f := Tab.get { last := [], begun := false } s.flows key
    if f.last.contains m.msgNo then s
    else
      { s with flows := Tab.set { last := [], begun := false } s.flows key { last := (m.msgNo :: f.last).take 64, begun := !(m.flags.testBit 0) }
               fabIn := s.fabIn ++ [m] }
  else
    { s with fabOut := s.fabOut ++ [({ uid := s.nextId, kind := m.kind, flags := m.flags, dest := m.dest, src := m.src, flow := m.flow, msgNo := m.msgNo
                                       offset := m.offset, body := m.body, link := none, sent := 0 } : FabMsg)], nextId := s.nextId + 1 }.pump

/-- CRC failures within 1 s that retire a link (R352). -/
def crcLimit : Nat := 1000

/-- A flit that failed its CRC: discarded, a NAK, and at more than 1,000 within 1 s the link is retired. -/
def State.badFlit (s : State) (l : Nat) : State :=
  let k := s.lnk l
  let times := s.now :: k.crcTimes.filter (fun t => decide (s.now ≤ t + sec 1))
  let s := s.setLnk l { k with crc := k.crc + 1#32, crcTimes := times, naked := true, lastFlit := s.now }
  if crcLimit < times.length then (s.retireLink l 1).linksChanged else s

/-- A data flit in sequence: counted, its buffer freed, an ACK at every 32, its bytes joined to its message. -/
def State.takeFlit (s : State) (l vc : Nat) (som eom : Bool) (payload : List Byte) : State :=
  let k := s.lnk l
  let have_ := if som then [] else ((k.partials.getD vc none).getD [])
  let started := som || (k.partials.getD vc none).isSome
  let bs := have_ ++ payload.take flitBytes
  let since := if 32 ≤ k.sinceAck + 1 then 0 else k.sinceAck + 1
  let s := s.setLnk l { k with
    expected := (k.expected + 1) % 4096, naked := false, rx := k.rx + 1#32, sinceAck := since, ackAt := if since = 0 then s.now else k.ackAt
    lastFlit := s.now, rxFreed := k.rxFreed.set vc ((k.rxFreed.getD vc 0 + 1) % 65536)
    partials := k.partials.set vc (if eom || !started then none else some bs) }
  if eom && started then s.rxMessage l bs else s

/-- DATA_FLIT (R348, R350, R355): `ok` says that its CRC holds. An isolated link carries no data (R353). -/
def execDataFlit (l : Nat) (ok : Bool) (vc : Nat) (som eom : Bool) (seq : Nat) (payload : List Byte) (s : State) : Host.Outcome State Fault Refusal :=
  let k := s.lnk l
  if !k.up then next s
  else if !ok then next (s.badFlit l)
  else if seq % 4096 ≠ k.expected then next (s.setLnk l { k with naked := true, lastFlit := s.now })
  else next (s.takeFlit l vc som eom payload)

/-! ### Control records (R349 to R353, R357) -/

/-- ACK (R349, R350): flits up to SEQ leave the replay buffer; messages whose last flit has left are done. -/
def execAck (l seq : Nat) (s : State) : Host.Outcome State Fault Refusal :=
  let k := s.lnk l
  match k.replay.findIdx? (fun f => decide (f.seq = seq % 4096)) with
  | none => next s
  | some i =>
    if !k.alive then next s
    else
      let done := ((k.replay.take (i + 1)).filter SentFlit.last).map SentFlit.uid
      let s := s.setLnk l { k with replay := k.replay.drop (i + 1), resends := 0, lastFlit := s.now }
      next { s with fabOut := s.fabOut.filter (fun m => !(done.contains m.uid)) }.pump

/-- Resends of one SEQ without an ACK that retire a link (R352). -/
def resendLimit : Nat := 8

/-- NAK (R349, R350, R352): resend from SEQ; a SEQ resent 8 times without an ACK retires the link. -/
def execNak (l seq : Nat) (s : State) : Host.Outcome State Fault Refusal :=
  let k := s.lnk l
  if !k.alive || !(k.replay.any (fun f => decide (f.seq = seq % 4096))) then next s
  else
    let n := if k.resendSeq = seq % 4096 then k.resends else 0
    if resendLimit ≤ n then next ((s.retireLink l 0).linksChanged)
    else next (s.setLnk l { k with resendSeq := seq % 4096, resends := n + 1, replays := k.replays + 1#32, lastFlit := s.now })

/-- CREDIT (R349, R351): buffers the peer has freed on a virtual channel since link-up. -/
def execCredit (l vc n : Nat) (s : State) : Host.Outcome State Fault Refusal :=
  let k := s.lnk l
  if !k.alive || decide (2 < vc) then next s
  else next ((s.setLnk l { k with freed := k.freed.set vc (n % 65536), lastFlit := s.now }).pump)

/-- What a HELLO says of the peer (R353). -/
def State.greet (s : State) (l pkg domain inc plink : Nat) : State :=
  let k := s.lnk l
  let s := (s.setLnk l { k with peer := pkg % 4096, peerDomain := domain % 2 ^ 32, peerInc := inc % 65536, peerLink := plink % 128
                                greeted := true, lastFlit := s.now }).settleLink l
  if (s.lnk l).up ≠ k.up ∨ ((s.lnk l).up ∧ ((s.lnk l).peer ≠ k.peer ∨ (s.lnk l).peerInc ≠ k.peerInc)) then s.linksChanged else s

/-- HELLO (R353). -/
def execHello (l pkg domain inc plink : Nat) (s : State) : Host.Outcome State Fault Refusal :=
  if (s.lnk l).alive then next (s.greet l pkg domain inc plink) else next s

/-- RESET (R357): the peer's incarnation has ended; its links wait for a new HELLO. -/
def execReset (l pkg inc : Nat) (s : State) : Host.Outcome State Fault Refusal :=
  if !(s.lnk l).alive then next s
  else
    let s := s.modLnk l (fun k => { k with lastFlit := s.now })
    if Tab.find s.members (pkg % 4096) ≠ some (inc % 65536) then next s
    else
      let s := s.losePeer (pkg % 4096) (inc % 65536) 1
      let ls := (s.links.filter (fun p => p.2.alive && decide (p.2.peer = pkg % 4096))).map Prod.fst
      next ((ls.foldl (fun s l => (s.modLnk l (fun k => { k with greeted := false })).settleLink l) s).linksChanged)

/-! ### Links over time (R350, R352, R353, R356, R373) -/

/-- ACK_TIMER (R350): 1 µs without an ACK sent, so one is sent. -/
def execAckTimer (l : Nat) (s : State) : Host.Outcome State Fault Refusal :=
  let k := s.lnk l
  if !k.alive then next s
  else
    let s := s.at (k.ackAt + us 1)
    next (s.setLnk l { k with sinceAck := 0, ackAt := s.now })

/-- HELLO_TIMER (R353): every 100 µs. -/
def execHelloTimer (l : Nat) (s : State) : Host.Outcome State Fault Refusal :=
  let k := s.lnk l
  if !k.alive then next s
  else
    let s := s.at (k.lastHello + us 100)
    next (s.setLnk l { k with lastHello := s.now })

/-- Retrainings within 60 s that a link may have (R352). -/
def retrainLimit : Nat := 4

/-- LINK_SILENCE_TIMEOUT (R352, R356): no flit for 2 µs, or lock lost: the link is down and trains again; a fifth time within
60 s retires it. -/
def execLinkSilenceTimeout (l : Nat) (s : State) : Host.Outcome State Fault Refusal :=
  let k := s.lnk l
  if !k.alive then next s
  else
    let s := s.at (k.lastFlit + us 2)
    let times := s.now :: k.retrainTimes.filter (fun t => decide (s.now ≤ t + sec 60))
    let s := s.modLnk l (fun k => { k with retrainTimes := times, trainAt := s.now })
    next (if retrainLimit < times.length then (s.retireLink l 2).linksChanged else (s.dropLink l 1).linksChanged)

/-- LINK_TRAINING_RETRY (R373): 1 s after a failed training. -/
def execLinkTrainingRetry (l : Nat) (s : State) : Host.Outcome State Fault Refusal :=
  let k := s.lnk l
  if k.state = 0 ∧ l < linkCount ∧ s.borderOut (l / 48) = false then
    let s := s.at (k.trainAt + sec 1)
    next (s.setLnk l { k with state := 1, trainAt := s.now })
  else next s

/-- LINK_TRAINING_END (R347, R352, R353): up on 2 lanes or 1, with the HELLO that follows; 0 lanes: the attempt failed, the third
in a row retires the link. -/
def execLinkTrainingEnd (l lanes pkg domain inc plink : Nat) (s : State) : Host.Outcome State Fault Refusal :=
  let k := s.lnk l
  if k.state ≠ 1 ∨ linkCount ≤ l then next s
  else if lanes = 1 ∨ lanes = 2 then
    next ((s.setLnk l (k.fresh s.now (decide (lanes = 1)))).greet l pkg domain inc plink)
  else if 3 ≤ k.trainFails + 1 then next ((s.setLnk l { k with trainFails := 0 }).retireLink l 3)
  else next (s.setLnk l { k with state := 0, trainFails := k.trainFails + 1, trainAt := s.now })

/-- LINK_REENABLE (R352): the management function writes REENABLE; the selected link, retired and not held, trains. -/
def execLinkReenable (fn : Nat) (s : State) : Host.Outcome State Fault Refusal :=
  let l := s.rfld 0x80010 6 0
  let k := s.lnk l
  if s.isMgmt fn && decide (k.state = 5) && !k.hold then next (s.setLnk l { k with state := 1, trainFails := 0, trainAt := s.now }) else next s

/-- LINK_HOLD (R352): the management function writes HOLD; the selected link is retired with cause 4 and held down. -/
def execLinkHold (fn : Nat) (s : State) : Host.Outcome State Fault Refusal :=
  let l := s.rfld 0x80010 6 0
  let k := s.lnk l
  if !(s.isMgmt fn) || decide (linkCount ≤ l) then next s
  else
    let s := s.setLnk l { k with hold := true }
    if k.state = 5 then next s else next ((s.retireLink l 4).linksChanged)

/-! ### Adverts (R354) -/

/-- ADVERT_TIMER (R354): every 1 ms. -/
def execAdvertTimer (s : State) : Host.Outcome State Fault Refusal :=
  next (((s.at (s.advertAt + us 1000)).floodAdvert).pump)

/-- Take the oldest received message of a type. -/
def State.takeMsg (s : State) (kind : Nat) : Option (RxMsg × State) :=
  (s.fabIn.find? (fun m => decide (m.kind = kind))).map (fun m => (m, { s with fabIn := s.fabIn.erase m }))

/-- ADVERT (R353, R354): the oldest advert received, with what it says; a newer one is kept and forwarded. -/
def execAdvert (pkg inc seq : Nat) (links : List (Nat × Nat)) (slots : Nat) (s : State) : Host.Outcome State Fault Refusal :=
  match s.takeMsg 3 with
  | none => next s
  | some (m, s) =>
    if pkg = s.pkgId then
      if inc = s.incarnation ∧ seq ≤ s.advertSeq then next s
      else next (((s.modLnk m.link (fun k => { k with clash := true })).settleLink m.link).linksChanged)
    else
      let newer := match Tab.find s.adverts pkg with
        | none => true
        | some a => decide (a.inc < inc) || (decide (a.inc = inc) && decide (a.seq < seq))
      if !newer then next s
      else
        let s := { s with adverts := Tab.put s.adverts pkg { inc := inc, seq := seq, links := links, slots := slots } }
        let ls := (s.links.filter (fun p => p.2.up && decide (p.1 ≠ m.link))).map Prod.fst
        let s := ls.foldl (fun s l => { s with
          fabOut := s.fabOut ++ [({ uid := s.nextId, kind := 3, flags := m.flags, dest := (s.lnk l).peer, src := m.src, flow := m.flow, msgNo := m.msgNo
                                    offset := m.offset, body := m.body, link := some l, sent := 0 } : FabMsg)]
          nextId := s.nextId + 1 }) s
        next s.refreshPeers.pump

/-! ### WRITE (R242, R355) -/

/-- The page a shipped slot's metadata names, for a local stream. -/
def slotPage (st : Nat) (body : List Byte) : PageId :=
  { stream := st, layer := tblNum body 0x883 1, head := tblNum body 0x884 1 % 32, page := tblNum body 0x888 2 }

def slotSealed (body : List Byte) : Bool := (tblNum body 0x886 1).testBit 0

/-- Does a sealed slot fail its CRC? -/
def slotBad (body : List Byte) : Bool :=
  slotSealed body &&
  decide ((crc32c (body.take 0x880 ++ (body.drop 0x8C0).take 64 ++ (body.drop 0x880).take 60)).toNat ≠ tblNum body 0x8BC 4)

/-- Fill a page's slot from a shipped one: CONTEXT and STREAM rewritten, poison on a bad CRC, the CRC of a sealed page anew. -/
def State.fillSlot (s : State) (i : PageId) (ctx : Nat) (body : List Byte) : State :=
  let e := s.pte i
  let s := s.pageWrite e 0 (body.take slotBytes)
  let s := s.pageWrite e 0x880 (natLE 2 i.stream ++ [BitVec.ofNat 8 ctx])
  let s := if slotBad body then (s.poisonSlot e).raiseSlotCrc i e else s
  if slotSealed body then (s.pageWrite e 0x8BC (natLE 4 (s.slotCrc e.tier e.slot))).putSummary i ((body.drop 0x8C0).take 64) ((body.drop 0x88C).take 4)
  else s

/-- R242: a shipped slot becomes a page of a local stream, in a slot of its own. None when no slot is free. -/
def State.installPage (s : State) (st hkv : Nat) (body : List Byte) : Option State :=
  let x := s.stream st
  let i := slotPage st body
  let room := if (s.pte i).valid then some s else s.newPage i hkv x.context
  match room with
  | none => none
  | some s =>
    let s := (s.writeLE (x.kvDir + 2) 1 hkv).fillSlot i x.context body
    some (s.setTokens x.kvDir i.layer (max (s.dirTokens x.kvDir i.layer) (16 * i.page + tblNum body 0x885 1)))

/-- R260: the origin acknowledges once the hidden state and every page of the input have arrived; the sampler may then take the stream. -/
def State.ackShipment (s : State) (st : Nat) : State :=
  let x := s.stream st
  if x.remote && x.work.peerDone && s.allPages st x.positions then
    (s.setStream st { x with remote := false, work := { x.work with peerDone := false } }).mailTo x.peer
  else s

/-- WRITE (R242, R260, R355): the oldest WRITE goes to its receive window, or is dropped and counted. `install` says that the bytes are
a slot shipped for a local stream, with the heads of its layers. -/
def execWrite (install : Option (Nat × Nat)) (s : State) : Host.Outcome State Fault Refusal :=
  match s.takeMsg 1 with
  | none => next s
  | some (m, s1) =>
    match Tab.find s1.windows (65536 * m.src + m.flow) with
    | none => next (s1.bump 0x8002C 1)
    | some w =>
      if w.len < m.offset + m.body.length then next (s1.bump 0x8002C 1)
      else
        let s2 := (s1.writeBytes (w.base + m.offset) m.body).addCounter w.counter 1
        match install with
        | none => next s2
        | some (st, hkv) => match s2.installPage st hkv m.body with
          | some s3 => next (s3.ackShipment st)
          | none => next s

/-! ### MAIL (R259, R260, R271, R355) -/

/-- Standby entries of a stream of another package. -/
def State.standbys (s : State) (pkg stream : Nat) : List Nat :=
  (s.streams.filter (fun p => decide (p.2.state = .mirroring) &&
    (match p.2.work.standby with | some w => decide (w.active = pkg ∧ w.origin = stream) | none => false))).map Prod.fst

/-- Entries that prefill a stream of another package. -/
def State.prefillsFor (s : State) (pkg stream : Nat) : List Nat :=
  (s.streams.filter (fun p => decide (p.2.work.origin = some (pkg, stream)))).map Prod.fst

/-- R251, R271: set up a standby entry, within its context's quota. -/
def State.setupStandby (s : State) (src stream ring : Nat) (entry : List Byte) (tokens : List Nat) (spans : List (Nat × Nat)) : State :=
  let x := Stream.ofEntry entry
  match s.freeEntry with
  | none => s
  | some st =>
    if !(s.tokenRingOk ring x.context none) || !(s.ctx x.context).live || !(s.quotaRoom x.context) then s
    else match s.newDirectory st x.context (s.ctx x.context).layers with
    | none => s
    | some s =>
      let s := s.zeroBytes (Stream.counts st) (8 * countRecords)
      let w : Standby := { ring := ring, active := src, origin := stream, buffers := [none, none], current := none, logged := [], lastBeat := s.now }
      (s.writeHistory st 0 tokens).setStream st { x with
        state := .mirroring, tokenRing := ring, kvDir := (s.stream st).kvDir, countsAddr := Stream.counts st, historyAddr := Stream.history st
        work := { StreamWork.reset with spans := spans, standby := some w } }

def mailTaken (src : Nat) (mail : Mail) (s : State) : State :=
  match mail with
  | .prefillRequest stream ctx tokens =>
    (match s.freeEntry with
     | some st => if s.rfld 0xA6000 1 0 = 1 ∧ (s.ctx ctx).live ∧ s.quotaRoom ctx then
         let s := s.enterStream st { Stream.reset with context := ctx % 64 } tokens
         s.modStream st (fun x => { x with work := { x.work with origin := some (src, stream) } })
       else s
     | none => s)
  | .prefillStop stream => (s.prefillsFor src stream).foldl State.freeStream s
  | .prefillEnd stream =>
    let x := s.stream stream
    if x.state = .prefill ∧ x.remote ∧ x.peer = src then
      (s.setStream stream { x with work := { x.work with peerDone := true } }).ackShipment stream
    else s
  | .mirrorSetup stream ring entry tokens spans => (s.setupStandby src stream ring entry tokens spans).mailTo src
  | .mirrorDrop stream => (s.standbys src stream).foldl State.freeStream s
  | .tokenLog stream ordinal token => (s.standbys src stream).foldl (fun s st =>
      let x := s.stream st
      let s := s.writeHistory st (x.posOf ordinal) [token]
      (s.setStream st { x with generated := max x.generated (ordinal + 1), work := { x.work with
        standby := x.work.standby.map (fun w => { w with logged := w.logged ++ [(ordinal, token)] }) } }).mailTo src) s
  | .heartbeat => (s.streams.map Prod.fst).foldl (fun s st => s.modStream st (fun x => { x with work := { x.work with
      standby := x.work.standby.map (fun w => if w.active = src then { w with lastBeat := s.now } else w) } })) s
  | .openWindow flow base len counter =>
    { s with windows := Tab.put s.windows (65536 * src + flow % 65536) { base := base, len := len, counter := counter } }
  | .closeWindow flow => { s with windows := Tab.del s.windows (65536 * src + flow % 65536) }
  | .other => s

/-- MAIL (R355): the oldest MAIL reaches the firmware; `mail` is what its body says. -/
def execMail (mail : Mail) (s : State) : Host.Outcome State Fault Refusal :=
  match s.takeMsg 2 with
  | none => next s
  | some (m, s) => next (mailTaken m.src mail s)

/-! ### Broadcasts (R178, R358) -/

/-- Loads that receive on a tree. -/
def State.treeLoads (s : State) (t : Nat) : List Nat :=
  (s.loads.filter (fun p => decide (p.2.source = 2 ∧ p.2.tree = t) && !p.2.done)).map Prod.fst

/-- BCAST (R358): the next message of a tree, from its parent, goes to the local receiver and down every child edge, once the
receiver has buffer and every edge's link has credit. -/
def execBcast (s : State) : Host.Outcome State Fault Refusal :=
  match s.fabIn.find? (fun m => decide (m.kind = 4) && decide (m.msgNo = (s.tree m.dest).next)) with
  | none => next s
  | some m =>
    let s1 := { s with fabIn := s.fabIn.erase m }
    if s.treeRole m.dest m.link ≠ 1 then next s1
    else if (s.treeLinks m.dest).any (fun p => decide ((s.lnk p.2).credit 2 = 0)) || (s.loads.any (fun p => decide (p.2.source = 2 ∧ p.2.tree = m.dest) && s.stagingFull p.2)) then
      next s
    else
      let s2 := (s1.treeLoads m.dest).foldl (fun s c => imageArrival c m.body s) s1
      let s3 := s2.sendTree { uid := 0, kind := 4, flags := m.flags, dest := m.dest, src := m.src, flow := m.flow, msgNo := m.msgNo
                              offset := m.offset, body := m.body, link := none, sent := 0 }
      let r := s3.tree m.dest
      next ((s3.setTree m.dest (if m.flags.testBit 0 then TreeRun.reset else { r with next := r.next + 1 })).pump)

end Sys2Proof.Machine
end

