-- ==== Sys2Proof/Machine/Tiers.lean ====
section
/-! DEFINITION. The memory tiers: patrol, retirement, temperature, the tier mover's NVMe commands, and CXL.mem (R286, R335, R337, R341 to
R346). The model's own choices: log 36 memory tiers (DEDUCED, DESIGN CHOICE); log 44 arbitration within a cycle (DEDUCED, DESIGN CHOICE).
-/

namespace Sys2Proof.Machine

/-! ### Patrol and training (R345, R346) -/

/-- PATROL_READ (R8, R342 to R345, R408): `result` 0 the line is sound, 1 corrected, 2 uncorrectable. Without `access` it is the patrol's read,
while the patrol is on, and skips a chunk under test (R416); with it an ordinary access, of a context or of none, finds the error first. -/
def execPatrolRead (a result : Nat) (s : State) (access : Option (Option Nat) := none) : Host.Outcome State Fault Refusal :=
  match s.memOf a with
  | none => next s
  | some m =>
    if (access.isNone && (!(bit (s.reg 0x9000C) 10) || s.underTest m (a - memBase m) 1)) || s.marked a then next s
    else if result = 1 then next (s.corrected m (s.eccUnit a) ((a - memBase m) / 64) access.join)
    else if result = 2 then next (s.markFound a (if access.isNone then 1 else 0) access.join)
    else next s

/-- MEMORY_TRAINING_LOST (R346): a tier-1 channel loses its training, or with `parity` a command/address parity error persists after 3
retries. -/
def execMemoryTrainingLost (c : Nat) (s : State) (parity : Bool := false) : Host.Outcome State Fault Refusal := next (s.retireChannel c (b2n parity))

/-- MEMORY_TEMPERATURE_REPORT (R335, R337): a stack (memory 9) or a channel's module (memory 10) passes 85 °C. -/
def execMemoryTemperatureReport (mem unit : Nat) (hot : Bool) (s : State) : Host.Outcome State Fault Refusal :=
  let u := 16 * mem + unit
  if (mem = 9 ∧ s.hbmStacks.contains unit) ∨ (mem = 10 ∧ s.t1Channels.contains unit) then
    next { s with hotUnits := if hot then (if s.hotUnits.contains u then s.hotUnits else s.hotUnits ++ [u]) else s.hotUnits.filter (fun x => decide (x ≠ u)) }
  else next s

/-! ### NVMe (R338 to R341) -/

/-- An operation of the tier mover ends with DEVICE_FAULT. -/
def State.failOwner (s : State) (o : NvmeOwner) : State :=
  match o with
  | .load key => s.endLoad key stDeviceFault
  | .park st => match s.park st with
    | some p => if p.parked then s
      else
        let s := { s with parks := Tab.del s.parks st }
        (match p.cmd with | some e => s.complete e stDeviceFault 0 | none => s)
    | none => s
  | .pages => s
  | .firmware => s

/-- The data of a command that succeeded, where the tier mover moves it for the firmware; the loader and the page mover take
theirs with their own commands. -/
def State.nvmeMove (s : State) (c : NvmeCmd) : State :=
  match c.owner with
  | .firmware =>
    let n := 4096 * c.blocks
    if c.write then s.t2Write c.vol (4096 * c.lba) (s.bytes c.addr n)
    else s.writeBytes c.addr (tabulate n (fun i => s.t2Byte c.vol (4096 * c.lba + i)))
  | _ => s

/-- Mark the lines a failed read was to fill. -/
def State.markLines (s : State) (a : Nat) : Nat → State
  | 0 => s
  | n + 1 => (s.markLine a).markLines (a + 64) n

/-- NVME_COMPLETION (R341, R360): the last command of an operation counts it; a first error issues the command once more; a second marks a read's lines with ECC_UNCORRECTED, KIND
2, or ends a write's operation with DEVICE_FAULT. -/
def execNvmeCompletion (cmd : NvmeCmd) (error : Bool) (s : State) : Host.Outcome State Fault Refusal :=
  let s := { s with driveReset := Tab.del s.driveReset cmd.port }
  let again := s.nvmeRetried.contains cmd
  if s.drivesRetired.contains cmd.port then next s
  else if !error then next (({ s with nvmeRetried := s.nvmeRetried.erase cmd }.nvmeMove cmd).bump 0x90218 (b2n cmd.last))
  else if !again then next { s with nvmeRetried := s.nvmeRetried ++ [cmd] }
  else
    let s := { s with nvmeRetried := s.nvmeRetried.erase cmd }
    if cmd.write then next (s.failOwner cmd.owner)
    else next ((s.markLines cmd.addr (64 * cmd.blocks)).raiseUe memTier2 cmd.port 2 cmd.lba none)

/-- NVME_COMMAND_TIMEOUT (R341): aborted after 2 s; when the abort does not complete, the drive's controller is reset and the
commands outstanding are issued again. -/
def execNvmeCommandTimeout (cmd : NvmeCmd) (abortDone : Bool) (s : State) : Host.Outcome State Fault Refusal :=
  if abortDone || s.drivesRetired.contains cmd.port then next s
  else next { s with driveReset := Tab.put s.driveReset cmd.port s.now }

/-- Retire a drive (R341, R346): every load that reads a volume with a member on it ends with DEVICE_FAULT. The spec gives no rule
for tier 2's CAPACITY_GIB. -/
def State.retireDrive (s : State) (port : Nat) : State :=
  if s.drivesRetired.contains port || !(s.drives.contains port) then s
  else
    let (cap, s) := s.draw
    let s := { s with drivesRetired := s.drivesRetired ++ [port], drives := s.drives.filter (fun p => decide (p ≠ port)), driveReset := Tab.del s.driveReset port
                      nvmeRetried := s.nvmeRetried.filter (fun c => decide (c.port ≠ port)) }
    let s := s.raise evMemoryChannelRetired (if port < 4 then 9 else 10) none (memTier2 + port * 2 ^ 4 + 4 * 2 ^ 9 + (cap % 2 ^ 24) * 2 ^ 16)
    ((s.loads.filter (fun p => decide (p.2.source = 1) && !p.2.done && s.volFailed p.2.nsid)).map Prod.fst).foldl
      (fun s c => s.endLoad c stDeviceFault) s

/-- DRIVE_READY_TIMEOUT (R341): the drive is not ready 10 s after its controller was reset. -/
def execDriveReadyTimeout (port : Nat) (s : State) : Host.Outcome State Fault Refusal :=
  match Tab.find s.driveReset port with
  | none => next s
  | some t => next ((s.at (t + sec 10)).retireDrive port)

/-- DRIVE_REMOVED (R341). -/
def execDriveRemoved (port : Nat) (s : State) : Host.Outcome State Fault Refusal := next (s.retireDrive port)

/-! ### CXL.mem (R286, R343) -/

/-- CXL_MEM_REQUEST (R286): the line at an offset of the exposed range is written, or read. A write stands for the host's store at the
instant it takes effect, in the host's cache or in memory: the device's own accesses of the range go through the host's coherence
engine, so they see it either way. -/
def execCxlMemRequest (off : Nat) (data : Option (List Byte)) (s : State) : Host.Outcome State Fault Refusal :=
  let off := off / 64 * 64
  let a := tier1Base + s.rfld 0x50104 10 0 * gib + off
  if !(bit (s.reg 0x50108) 8) || decide (s.rfld 0x50100 16 8 * gib ≤ off) || !(s.mapped a 64) then next s
  else match data with
    | some bs => next (s.writeBytes a (bs.take 64))
    | none => next { s with lastLine := if s.marked a then none else some (s.bytes a 64) }

end Sys2Proof.Machine
end

