-- ==== Sys2Proof/Machine/Rings.lean ====
section
/-! DEFINITION. Host rings: doorbells, fetching, set-up, interrupts, the host-line cache and the stream processors' directory (R279 to
R299). The model's own choices: log 5 host memory (DESIGN CHOICE); log 37 rings (DEDUCED, DESIGN CHOICE, PRESUMED). -/

namespace Sys2Proof.Machine

/-! ### Doorbells and fetches (R285, R287, R289) -/

/-- Does the function answer accesses: both service functions do, and the management function (R279); in D0 only (R280). -/
def State.fnPresent (s : State) (fn : Nat) : Bool := decide (fn < 4) && (decide (fn % 2 = 0) || s.isMgmt fn) && !(s.fn fn).d3hot

/-- A ring takes what waits for it: entries of a ring the device produces, token records of its streams. -/
def State.serveRing (s : State) (n : Nat) : State :=
  let r := s.ring n
  if !r.enabled then s
  else if r.kind = 3 then (s.drainRing n r.waiting.length).deliverRing n
  else s.drainRing n r.waiting.length

/-- DOORBELL (R285): from the bound function, to an enabled ring, with an index inside it; else ignored. -/
def execDoorbell (fn ring value : Nat) (s : State) : Host.Outcome State Fault Refusal :=
  let r := s.ring ring
  let db := value % 65536
  if ring < 8192 ∧ r.enabled ∧ r.fn = fn ∧ s.fnPresent fn ∧ db < r.size then
    next (((s.setRing ring { r with db := db }).bump 0x5010C 1).serveRing ring)
  else next s

/-- Does a submission ring fetch: enabled, not parked, entries pending, its completion ring not full (R285, R289)? -/
def State.fetches? (s : State) (n : Nat) : Bool :=
  let r := s.ring n
  let cq := s.ring r.cq
  r.enabled && decide (r.kind = 0) && !r.parked && decide (r.index ≠ r.db % r.size) &&
  !(cq.enabled && decide (cq.kind = 1) && (cq.full || !cq.waiting.isEmpty))

/-- Re-reads of one entry (R287). -/
def rereadLimit : Nat := 8

/-- Park a ring at its index. -/
def Ring.park (r : Ring) : Ring := { r with parked := true, firstBack := none, rereads := 0, returned := 0 }

/-- Lines the host-line cache holds (R280). -/
def hostCacheLines : Nat := 32768

/-- A fetch of a COHERENT ring on the B0 port as CXL leaves its line in the host-line cache (R286); whether the host grants it
shared or exclusive (R280) is the host's choice. -/
def State.holdHostLine (s : State) (r : Ring) : State :=
  if bit r.cfg 2 && decide (r.port = 0) && bit (s.reg 0x50108) 8 then
    let a := r.base + 64 * r.index
    let ls := s.hostLines.filter (fun x => decide (x.addr ≠ a))
    let (grant, s) := s.draw
    { s with hostLines := (if hostCacheLines ≤ ls.length then ls.drop 1 else ls) ++ [{ addr := a, exclusive := decide (grant % 2 = 1) }] }
  else s

/-- Submission rings that pend: entries to fetch, and none of them being read again. -/
def State.ringPends (s : State) (n : Nat) : Bool := s.fetches? n && (s.ring n).firstBack.isNone

/-- Entries a ring is served in one turn (R288). -/
def ringTurn : Nat := 4

/-- R288: the ring served next: up to 4 entries per turn, then the next one in ascending number. -/
def State.fetchTurn (s : State) : Option Nat :=
  if s.ringPends s.fetchRing && decide (s.fetchTaken < ringTurn) then some s.fetchRing
  else
    let ns := (s.rings.map Prod.fst).filter s.ringPends
    match ns.find? (fun n => decide (s.fetchRing < n)) with
    | some n => some n
    | none => ns.head?

/-- Count an entry toward its ring's turn. -/
def State.takeTurn (s : State) (n : Nat) : State :=
  { s with fetchRing := n, fetchTaken := if n = s.fetchRing ∧ s.fetchTaken < ringTurn then s.fetchTaken + 1 else 1 }

/-- The entry that returned is accepted: the ring moves on; an undefined opcode completes with ACCESS_FAULT at once (R290). -/
def State.acceptEntry (s : State) (n : Nat) (e : BitVec 512) : State :=
  let r := s.ring n
  let wraps := decide (r.index + 1 = r.size)
  let sub : SubEntry := { sq := n, index := r.index, bytes := e }
  let s := s.setRing n { r with index := if wraps then 0 else r.index + 1, phase := r.phase != wraps, firstBack := none, rereads := 0, returned := 0 }
  let s := { s with accepted := s.accepted ++ [sub] }
  if (cmdDef sub.opcode).isNone then s.complete sub stAccessFault 0 else s

/-- SUBMISSION_FETCH (R286 to R288, R304): a read of the entry at a ring's index returns, in the ring's turn; `entry` is what host memory
holds, none an error completion. -/
def execSubmissionFetch (ring : Nat) (entry : Option (BitVec 512)) (s : State) : Host.Outcome State Fault Refusal :=
  let r := s.ring ring
  if !(s.fetches? ring) || (r.firstBack.isSome && decide (r.rereads ≤ r.returned)) || (r.firstBack.isNone && decide (s.fetchTurn ≠ some ring)) then
    next s
  else
    let s := if r.firstBack.isNone then s.takeTurn ring else s
    match entry with
    | none => next (s.setRing ring { r.park with fetchError := true })
    | some e =>
      let s := s.holdHostLine r
      if bit e 8 = r.phase then next (s.acceptEntry ring e)
      else match r.firstBack with
        | none => next (s.setRing ring { r with firstBack := some s.now, rereads := 0, returned := 0 })
        | some _ =>
          if rereadLimit ≤ r.returned + 1 then
            next ((s.setRing ring r.park).raise evDoorbellAhead (9 + r.port) (if r.all then none else some r.ctx) (ring + r.index * 2 ^ 13 + r.port * 2 ^ 29 + r.func * 2 ^ 30))
          else next (s.setRing ring { r with returned := r.returned + 1 })

/-- SUBMISSION_REREAD (R287): the k-th re-read leaves k · 250 ns after the first read returned. -/
def execSubmissionReread (ring : Nat) (s : State) : Host.Outcome State Fault Refusal :=
  let r := s.ring ring
  match r.firstBack with
  | none => next s
  | some t =>
    if !(s.fetches? ring) || decide (rereadLimit ≤ r.rereads) then next s
    else next ((s.at (t + ns (250 * (r.rereads + 1)))).setRing ring { r with rereads := r.rereads + 1 })

/-- NOP (R290). -/
def execNop (e : SubEntry) (s : State) : Host.Outcome State Fault Refusal := next (s.command e cmdNop (fun s => s.complete e stOk 0))

/-! ### Set-up of a ring (R287, R294, R296, R302, R380) -/

/-- Ring selected by a function, when the function is the one bound to it. -/
def State.selected (s : State) (fn : Nat) : Option Nat :=
  let n := fld (s.fn fn).ringSel 12 0
  if s.fnPresent fn && decide ((s.ring n).fn = fn) then some n else none

/-- Enable a ring at index 0 with PHASE 1; held events, boot records and waiting records go out. -/
def State.enableRing (s : State) (n : Nat) : State :=
  let r := s.ring n
  let s := s.setRing n { r with
    enabled := true, parked := false, phase := true, index := 0, db := 0, firstBack := none, rereads := 0, returned := 0, unsignalled := 0, oldest := none }
  let s := s.serveRing n
  if r.kind ≠ 2 then s
  else
    let s := if r.all && !(s.bootGiven.contains n) then
        s.boot.foldl (fun s bs => s.putEvent n bs) { s with bootGiven := if s.boot.isEmpty then s.bootGiven else s.bootGiven ++ [n] }
      else s
    s.flushHeld n

/-- RING_ENABLE (R296): the bound function writes ENABLE of its selected ring. -/
def execRingEnable (fn : Nat) (on : Bool) (s : State) : Host.Outcome State Fault Refusal :=
  match s.selected fn with
  | none => next s
  | some n =>
    let r := s.ring n
    if on = r.enabled then next s
    else if on then next (s.enableRing n)
    else next (s.setRing n { r with enabled := false, parked := false, firstBack := none, rereads := 0, returned := 0 })

/-- RING_RESUME (R287): fetching starts again at the failing index. -/
def execRingResume (fn : Nat) (s : State) : Host.Outcome State Fault Refusal :=
  match s.selected fn with
  | none => next s
  | some n => let r := s.ring n
    if r.parked then next (s.setRing n { r with parked := false }) else next s

/-- INTERRUPT_TIMER (R296): the oldest unsignalled entry is INT_USEC old. -/
def execInterruptTimer (ring : Nat) (s : State) : Host.Outcome State Fault Refusal :=
  let r := s.ring ring
  match r.oldest with
  | none => next s
  | some t =>
    if fld r.int 31 20 = 0 ∨ bit r.int 11 = false then next s
    else
      let s := s.at (t + us (fld r.int 31 20))
      next ((s.setRing ring { r with unsignalled := 0, oldest := none }).sendMsix r.fn (fld r.int 10 0))

/-! ### Coherence (R286, R297 to R299) -/

/-- COHERENT_LINE_INVALIDATE (R286): a host store to a line the device holds. -/
def execCoherentLineInvalidate (addr : Nat) (s : State) : Host.Outcome State Fault Refusal :=
  next { s with hostLines := s.hostLines.filter (fun x => decide (x.addr ≠ addr / 64 * 64)) }

/-- Lines of the L2, and lines that a stream processor's L1s hold: 64 KiB of data and 32 KiB of instructions (R297). -/
def l2Lines : Nat := 131072
def l1Lines : Nat := 1536

/-- A line comes into the L2. The directory is inclusive: the line the L2 gives up, its oldest, leaves every L1 (R297). -/
def State.intoL2 (s : State) (line : Nat) : State :=
  let ls := s.l2.filter (fun x => decide (x ≠ line))
  match ls with
  | old :: rest => if l2Lines ≤ ls.length then { s with l2 := rest ++ [line], dir := Tab.del s.dir old } else { s with l2 := ls ++ [line] }
  | [] => { s with l2 := [line] }

/-- A stream processor whose L1s are full gives up its oldest other line. -/
def State.fitL1 (s : State) (line port : Nat) : State :=
  let holds := fun (x : Nat) => (Tab.get [] s.dir x).any (fun h => decide (h.port = port))
  if 32 ≤ port ∨ (s.dir.filter (fun p => p.2.any (fun h => decide (h.port = port)))).length ≤ l1Lines then s
  else match s.l2.find? (fun x => decide (x ≠ line) && holds x) with
    | none => s
    | some x => { s with dir := Tab.set [] s.dir x ((Tab.get [] s.dir x).filter (fun h => decide (h.port ≠ port))) }

/-- Holders of a line after one more request: an owner holds it alone, Modified once it stores; a reader shares it, or holds it
Exclusive where nobody else does (R297). -/
def holdersAfter (held : List DirHold) (r : LineReq) : List DirHold :=
  let others := held.filter (fun h => decide (h.port ≠ r.port))
  if r.own then [{ port := r.port, mesi := if r.stores.isEmpty then .exclusive else .modified }]
  else if others.isEmpty then (if held.isEmpty then [{ port := r.port, mesi := .exclusive }] else held)
  else others.map (fun h => { h with mesi := .shared }) ++ [{ port := r.port, mesi := .shared }]

/-- One port is granted a line, and its access completes: the stores of an owner take effect. -/
def State.grantLine (s : State) (line : Nat) (r : LineReq) : State :=
  let held := Tab.get [] s.dir line
  let s := if r.own then r.stores.foldl (fun (s : State) p => s.writeBytes (64 * line + p.1 % 64) [p.2]) s else s
  let s := s.intoL2 line
  { s with dir := Tab.set [] s.dir line (holdersAfter held r) }.fitL1 line r.port

/-- Directory ports (R299). -/
def dirPorts : Nat := 34

/-- DIRECTORY_REQUEST (R297, R299): ports request a central-store line in one cycle; a write-back in progress ends first, then they are
served in ascending port order. -/
def execDirectoryRequest (line : Nat) (reqs : List LineReq) (writeBack : Option Nat) (s : State) : Host.Outcome State Fault Refusal :=
  if centralSize ≤ 64 * line then next s
  else
    let held := Tab.get [] s.dir line
    let held := match writeBack with | some p => held.filter (fun h => decide (h.port ≠ p)) | none => held
    let s := { s with dir := Tab.set [] s.dir line held }
    let ps := sortBy (fun a b => decide (a.port ≤ b.port)) (reqs.filter (fun r => decide (r.port < dirPorts)))
    next (ps.foldl (fun s r => s.grantLine line r) s)

end Sys2Proof.Machine
end

