-- ==== Sys2Proof/Machine/Dma.lean ====
section
/-! DEFINITION. DMA engines, arrival of writes, arrival counters, the scratchpads' scoreboard, and host resets (R300 to R331). The model's
own choices: log 5 host memory (DESIGN CHOICE); log 15 datum of a transpose pass (DEDUCED); log 16 delivery times (DEDUCED); log 20 full
queues (DEDUCED); log 38 DMA (DEDUCED, DESIGN CHOICE); log 44 arbitration within a cycle (DEDUCED, DESIGN CHOICE). -/

namespace Sys2Proof.Machine

def engines : Nat := 96
def State.eng (s : State) (n : Nat) : DmaEngine := Tab.get DmaEngine.reset s.engines n
def State.setEng (s : State) (n : Nat) (e : DmaEngine) : State := { s with engines := Tab.set DmaEngine.reset s.engines n e }
def State.engOn (s : State) (n : Nat) : Bool := bit (s.reg (engReg n 0x00)) 0

/-- Write latency of an engine (R307, R449). -/
def engWriteLatency (n m : Nat) : Nat := if n < 64 then coreWriteLatency m else hallWriteLatency ((n - 64) / 4) m

/-- Response timeout and cap of an engine (DMA_ENG_CFG). -/
def State.engTimeout (s : State) (n : Nat) : Nat := us (max 1 (s.rfld (engReg n 0x04) 27 17))
def State.engCap (s : State) (n : Nat) : Nat := max 1 (s.rfld (engReg n 0x04) 16 0)

/-! ### Channel entries (R308 to R310) -/

/-- A channel entry of 32 bytes (R309). -/
def DmaChan.ofEntry (e : BitVec 256) : DmaChan where
  head := fld e 63 0
  headSpace := fld e 65 64
  task := fld e 79 72
  host := fld e 81 80
  tag := fld e 111 96
  cmd := none
  bad := decide (64 < fld e 79 72) || decide (1 < fld e 65 64) || decide (fld e 71 66 ≠ 0) || decide (fld e 87 82 ≠ 0) ||
    decide (fld e 95 88 ≠ 0) || decide (fld e 255 112 ≠ 0)

/-- A channel that is dropped: the DMA_START behind it completes with ABORTED (R310, R321). -/
def State.dropChan (s : State) (c : DmaChan) : State :=
  match c.cmd with | some e => s.complete e stAborted 0 | none => s

/-- Entries of an engine's queue (R308). -/
def dmaDepth : Nat := 64

/-- Post a channel: a disabled engine takes and discards it (R321); a full queue leaves the poster waiting (R308). -/
def State.postChan (s : State) (n : Nat) (c : DmaChan) : State :=
  let e := s.eng n
  if !(s.engOn n) then s.dropChan c
  else if e.queue.length < dmaDepth then s.setEng n { e with queue := e.queue ++ [c] }
  else s

/-- DMA_CHANNEL_POST (R308, R309). -/
def execDmaChannelPost (n : Nat) (entry : BitVec 256) (s : State) : Host.Outcome State Fault Refusal :=
  if n < engines then next (s.postChan n (DmaChan.ofEntry entry)) else next s

def dmaStart (e : SubEntry) (s : State) : State :=
  let n := e.byte 16
  let r := s.ring e.sq
  if engines ≤ n then s.complete e stAccessFault 0
  else s.postChan n {
    head := e.num 24 31, headSpace := e.byte 18 % 4, task := e.byte 17, host := r.port + 2 * r.func, tag := e.num 8 9, cmd := some e
    bad := decide (64 < e.byte 17) || decide (1 < e.byte 18) }

/-- DMA_START (R310): its completion waits for the channel's record. -/
def execDmaStart (e : SubEntry) (s : State) : Host.Outcome State Fault Refusal := next (s.command e cmdDmaStart (dmaStart e))

/-! ### Descriptors (R311 to R314) -/

abbrev DmaDesc := BitVec 512

def DmaDesc.op (d : DmaDesc) : Nat := fld d 7 0
def DmaDesc.last (d : DmaDesc) : Bool := bit d 8
def DmaDesc.wrap (d : DmaDesc) (dst : Bool) : Bool := bit d (if dst then 10 else 9)
def DmaDesc.space (d : DmaDesc) (dst : Bool) : Nat := if dst then fld d 19 18 else fld d 17 16
def DmaDesc.elem (d : DmaDesc) : Nat := 2 ^ fld d 26 24
def DmaDesc.incMode (d : DmaDesc) : Nat := fld d 29 28
def DmaDesc.wrapLog (d : DmaDesc) (dst : Bool) : Nat := if dst then fld d 47 40 else fld d 39 32
def DmaDesc.counter (d : DmaDesc) : Nat := fld d 59 48
def DmaDesc.counterMem (d : DmaDesc) : Nat := fld d 63 60
def DmaDesc.addr (d : DmaDesc) (dst : Bool) : Nat := if dst then fld d 191 128 else fld d 127 64
def DmaDesc.nextAddr (d : DmaDesc) : Nat := fld d 255 192
def DmaDesc.count (d : DmaDesc) (i : Nat) : Nat := fld d (271 + 16 * i) (256 + 16 * i)
def DmaDesc.stride (d : DmaDesc) (dst : Bool) (i : Nat) : Int :=
  let lo := (if dst then 416 else 320) + 32 * i
  signed 32 (fld d (lo + 31) lo)

/-- Defined values and zero reserved fields (R314). -/
def DmaDesc.formOk (d : DmaDesc) : Bool :=
  decide (1 ≤ d.op ∧ d.op ≤ 4) && decide (fld d 15 11 = 0) && decide (d.space false ≤ 1) && decide (d.space true ≤ 1) &&
  decide (fld d 23 20 = 0) && decide (fld d 26 24 ≤ 6) && !(bit d 27) && decide (d.incMode ≤ 2) && decide (fld d 31 30 = 0) &&
  decide (d.counterMem ≤ 8) && decide (fld d 319 304 = 0)

/-- Does the operation use a side? -/
def DmaDesc.uses (d : DmaDesc) (dst : Bool) : Bool := if dst then decide (d.op ≤ 2) else decide (d.op = 1)

/-- SRC, DST and the strides of the sides in use are multiples of the element; a wrap block is 2^6 to 2^40 bytes (R311, R314). -/
def DmaDesc.aligned (d : DmaDesc) (dst : Bool) : Bool :=
  !(d.uses dst) ||
  (decide (d.addr dst % d.elem = 0) && (List.range 3).all (fun i => decide (d.stride dst i % (d.elem : Int) = 0)) &&
   (!(d.wrap dst) || decide (6 ≤ d.wrapLog dst ∧ d.wrapLog dst ≤ 40)))

/-- Offset of an element by its loop indices (R313). -/
def DmaDesc.off (d : DmaDesc) (dst : Bool) (i0 i1 i2 : Nat) : Int :=
  (i2 : Int) * d.stride dst 2 + (i1 : Int) * d.stride dst 1 + (i0 : Int) * d.stride dst 0

/-- R313: address of an element. -/
def DmaDesc.at (d : DmaDesc) (dst : Bool) (i0 i1 i2 : Nat) : Nat :=
  let x := d.addr dst
  let o := d.off dst i0 i1 i2
  if d.wrap dst then
    let b : Nat := 2 ^ d.wrapLog dst
    x / b * b + (((x : Int) + o) % (b : Int)).toNat
  else (((x : Int) + o) % (2 ^ 64 : Int)).toNat

/-- R314: first byte and bytes of a side's extent; none when it leaves the 64-bit space. -/
def DmaDesc.extent (d : DmaDesc) (dst : Bool) : Option (Nat × Nat) :=
  if d.wrap dst then let b := 2 ^ d.wrapLog dst
    some (d.addr dst / b * b, b)
  else
    let ends := (List.range 3).map (fun i => (d.count i : Int) * d.stride dst i)
    let lo := (d.addr dst : Int) + isum (ends.map (fun x => min x 0))
    let hi := (d.addr dst : Int) + isum (ends.map (fun x => max x 0)) + (d.elem : Int)
    if lo < 0 ∨ (2 ^ 64 : Int) < hi then none else some (lo.toNat, (hi - lo).toNat)

/-- The extent of a device-space side lies in one window of the task. -/
def State.dmaExtentOk (s : State) (task : Nat) (d : DmaDesc) (dst : Bool) : Bool :=
  !(d.uses dst) || decide (d.space dst = 1) ||
  (match d.extent dst with | some (a, n) => s.allowed task dst a n | none => false)

/-- R314: may the descriptor run? -/
def State.descOk (s : State) (task : Nat) (d : DmaDesc) : Bool :=
  d.formOk && d.aligned false && d.aligned true && s.dmaExtentOk task d false && s.dmaExtentOk task d true

/-! ### The chain (R314 to R320) -/

/-- May a descriptor be fetched from an address (R314)? -/
def State.fetchOk (s : State) (c : DmaChan) (a : Nat) : Bool :=
  decide (a % 64 = 0) && (decide (c.headSpace = 1) || s.allowed c.task false a 64)

/-- Read latency of an engine (R449): that of its writes. -/
def State.fetchLatency (s : State) (n : Nat) (c : DmaChan) (a : Nat) : Nat :=
  if c.headSpace = 1 then 0 else engWriteLatency n ((s.memOf a).getD 8)

/-- Issue the fetch of the descriptor at an address, or note that the channel is to end. -/
def State.issueFetch (s : State) (n : Nat) (r : DmaRun) (a delay : Nat) : DmaRun :=
  if s.fetchOk r.chan a then { r with fetch := some (a, s.now + delay + s.fetchLatency n r.chan a) }
  else { r with stop := some stAccessFault, leaveAt := max r.leaveAt (s.now + delay) }

def State.setRun (s : State) (n : Nat) (r : Option DmaRun) : State := s.setEng n { s.eng n with run := r }

/-- A channel with no descriptor streaming takes what comes next: the fetched one, or its end. -/
def DmaRun.advance (r : DmaRun) : DmaRun :=
  if r.desc.isSome then r
  else match r.next, r.stop with
    | some d, _ => { r with desc := some d, next := none, descAt := r.nextAt }
    | none, some st => { r with ended := some st, fetch := none }
    | none, none => r

/-- Is the successor of the descriptor fetched while it streams: not after LAST, a FENCE, a SIGNAL or the cap (R308, R312,
R320)? -/
def State.prefetches (s : State) (n : Nat) (r : DmaRun) (d : DmaDesc) : Bool :=
  !d.last && decide (d.op ≤ 2) && decide (r.descs + 1 < s.engCap n)

/-- Once a descriptor streams, which is when its checks are done and its predecessor's writes have left, the fetch of its successor
is issued (R308). -/
def State.follow (s : State) (n : Nat) (r : DmaRun) : DmaRun :=
  match r.desc with
  | none => r
  | some d => if s.prefetches n r d && r.fetch.isNone && r.next.isNone && r.stop.isNone then
      s.issueFetch n r (DmaDesc.nextAddr d) (max r.descAt r.leaveAt - s.now) else r

/-- DMA_CHANNEL_START (R308, R314, R449): an idle engine takes its oldest channel. -/
def execDmaChannelStart (n : Nat) (s : State) : Host.Outcome State Fault Refusal :=
  let e := s.eng n
  match e.run, e.queue with
  | none, c :: rest =>
    if !(s.engOn n) || !s.newWork then next s
    else
      let r : DmaRun := { chan := c, fetch := none, desc := none, next := none, stop := if c.bad then some stAccessFault else none, descs := 0
                          issued := [], badSource := false, ended := none }
      let r := (if c.bad then r else s.issueFetch n r c.head (ns 2)).advance
      next (s.setEng n { queue := rest, run := some r })
  | _, _ => next s

/-- DMA_DESCRIPTOR_ARRIVAL (R314, R343, R449): the fetch in flight returns; from host memory it is `data`; its checks take 2 ns. -/
def execDmaDescriptorArrival (n : Nat) (data : BitVec 512) (s : State) : Host.Outcome State Fault Refusal :=
  match (s.eng n).run with
  | none => next s
  | some r => match r.fetch, r.ended with
    | some (a, due), none =>
      let s := s.at due
      let d : DmaDesc := if r.chan.headSpace = 1 then data else BitVec.ofNat 512 (s.readLE a 64)
      let r := { r with fetch := none }
      let r := if r.chan.headSpace = 0 && s.marked a then { r with stop := some stDeviceFault, leaveAt := max r.leaveAt s.now }
        else if !(s.descOk r.chan.task d) then { r with stop := some stAccessFault, leaveAt := max r.leaveAt (s.now + ns 2) }
        else { r with next := some d, nextAt := s.now + ns 2 }
      next (s.setRun n (some (s.follow n r.advance)))
    | _, _ => next s

/-! ### The end of a channel (R315, R318 to R320) -/

/-- Context of an engine's events (R319, R320). -/
def DmaChan.ctx (c : DmaChan) : Option Nat := if c.task < 64 then some c.task else none

/-- Die that raises an engine's events. -/
def engSource (n : Nat) : Nat := if n < 64 then 8 else (n - 64) / 4

def State.cqSize (s : State) (n : Nat) : Nat := let k := s.rfld (engReg n 0x10) 4 0
  2 ^ (if 4 ≤ k ∧ k ≤ 16 then k else 4)

def State.cqBase (s : State) (n : Nat) : Nat := (s.rfld (engReg n 0x08) 31 6) * 64 + (s.reg (engReg n 0x0C)).toNat * 2 ^ 32

/-- Can the engine write a record: its queue lies in mapped memory and is not full (R315)? -/
def State.cqRoom (s : State) (n : Nat) : Bool :=
  let size := s.cqSize n
  let tail := s.rfld (engReg n 0x14) 15 0
  s.mapped (s.cqBase n) (16 * size) && decide ((tail + 1) % size ≠ s.rfld (engReg n 0x18) 15 0 % size)

/-- Write the record of an ended channel, complete its DMA_START, and free the engine; a full or unmapped queue holds it. -/
def State.endChannel (s : State) (n : Nat) : State :=
  match (s.eng n).run with
  | none => s
  | some r => match r.ended with
    | none => s
    | some st =>
      if !(s.cqRoom n) then s
      else
        let tail := s.rfld (engReg n 0x14) 15 0
        let a := s.cqBase n + 16 * (tail % s.cqSize n)
        let m := s.rfld (engReg n 0x10) 20 17
        let incs : List Inc := if m ≤ 8 then [{ key := cntKey m (s.rfld (engReg n 0x10) 16 5), amount := 1 }] else []
        let s := s.send (mkWrite s (.engine n) a (completion16 r.chan.tag st false false r.descs s.time) (s.now + engWriteLatency n ((s.memOf a).getD 8)) incs)
        let s := (s.setRfld (engReg n 0x14) 15 0 ((tail + 1) % s.cqSize n)).bump (engReg n 0x20) 1
        let s := s.setRun n none
        match r.chan.cmd with | some e => s.complete e st r.descs | none => s

/-- Has the last write of an ended channel left the engine (R316)? -/
def State.channelLeft (s : State) (n : Nat) : Bool :=
  match (s.eng n).run with
  | some r => decide (r.leaveAt ≤ s.now)
  | none => true

/-- DMA_CHANNEL_END (R315, R316): once its last write has left the engine. -/
def execDmaChannelEnd (n : Nat) (s : State) : Host.Outcome State Fault Refusal :=
  match (s.eng n).run with
  | some r => if r.ended.isSome && s.cqRoom n then next ((s.at r.leaveAt).endChannel n) else next s
  | none => next s

/-- DMA_CQ_HEAD_WRITE (R315, R332): a record that waited for room is written. -/
def execDmaCqHeadWrite (n v : Nat) (s : State) : Host.Outcome State Fault Refusal :=
  if n < engines then
    let s := s.setRfld (engReg n 0x18) 15 0 v
    next (if s.channelLeft n then s.endChannel n else s)
  else next s

/-- A descriptor is done: the channel ends, or goes on (R316, R318, R320). -/
def State.descDone (s : State) (n : Nat) (r : DmaRun) (d : DmaDesc) : State :=
  let s := s.bump (engReg n 0x24) 1
  let r := { r with desc := none, descs := r.descs + 1 }
  if d.last then s.setRun n (some { r with ended := some (if r.badSource then stDeviceFault else stOk), fetch := none, next := none })
  else if s.engCap n ≤ r.descs then
    ((s.setRun n (some { r with ended := some stLoopLimit, fetch := none, next := none })).at r.leaveAt).raise evDmaLoopLimit (engSource n) r.chan.ctx (n + r.chan.tag * 2 ^ 7)
  else
    let r := if r.fetch.isNone && r.next.isNone && r.stop.isNone then
        s.issueFetch n r (DmaDesc.nextAddr d) (r.leaveAt - s.now) else r
    s.setRun n (some (s.follow n r.advance))

/-- Run the descriptor that streams when it is of the operation. -/
def State.withDesc (s : State) (n op : Nat) (f : DmaRun → DmaDesc → State) : State :=
  match (s.eng n).run with
  | none => s
  | some r => match r.desc, r.ended with
    | some d, none => if DmaDesc.op d = op then f r d else s
    | _, _ => s

/-! ### COPY and FILL (R312, R313, R317, R318) -/

/-- A burst of contiguous destination bytes (R313). -/
structure Burst where
  addr : Nat
  bytes : List Byte
  elems : Nat
  marked : List Nat
  deriving DecidableEq, Repr

/-- Bytes of a burst (R313). -/
def burstBytes : Nat := 4096

/-- Join an element to the newest burst, or start one. -/
def joinBurst (bs : List Burst) (x : Burst) : List Burst :=
  match bs with
  | [] => [x]
  | b :: rest =>
    if b.addr + b.bytes.length = x.addr ∧ b.bytes.length + x.bytes.length ≤ burstBytes then
      { b with bytes := b.bytes ++ x.bytes, elems := b.elems + 1, marked := b.marked ++ x.marked } :: rest
    else x :: b :: rest

/-- Loop indices in visiting order (R313). -/
def DmaDesc.indices (d : DmaDesc) : List (Nat × Nat × Nat) :=
  (List.range (d.count 2 + 1)).flatMap (fun i2 => (List.range (d.count 1 + 1)).flatMap (fun i1 =>
    (List.range (d.count 0 + 1)).map (fun i0 => (i0, i1, i2))))

/-- FILL's element (R312). -/
def DmaDesc.pattern (d : DmaDesc) : List Byte :=
  let p := natLE 8 (d.addr false)
  if d.elem ≤ 8 then p.take d.elem else (List.replicate (d.elem / 8) p).flatten

/-- Source bytes of element `j`, and whether a line of them is marked. -/
def State.sourceElem (s : State) (d : DmaDesc) (data : List Byte) (j : Nat) (i : Nat × Nat × Nat) : List Byte × Bool :=
  if d.op = 2 then (d.pattern, false)
  else if d.space false = 1 then (tabulate d.elem (fun b => (data[j * d.elem + b]?).getD 0#8), false)
  else let a := d.at false i.1 i.2.1 i.2.2
    (s.bytes a d.elem, s.anyMarked a d.elem)

/-- Bursts of a descriptor, in order. -/
def State.bursts (s : State) (d : DmaDesc) (data : List Byte) : List Burst :=
  ((d.indices.zipIdx).foldl (fun bs (i, j) =>
    let (xs, bad) := s.sourceElem d data j i
    let a := d.at true i.1 i.2.1 i.2.2
    joinBurst bs { addr := a, bytes := xs, elems := 1, marked := if bad then [a] else [] }) []).reverse

/-- Lines a burst touches. -/
def Burst.lines (b : Burst) : Nat := (b.addr + b.bytes.length + 63) / 64 - b.addr / 64

/-- Time an engine takes for a line: 64 bytes per cycle of its die (R307, R372). -/
def State.engCycle (s : State) (n : Nat) : Nat := if n < 64 then s.coreCycle else hallCycles 1

/-- Write a burst whose last line has left at `left`: toward the host at once; toward device memory as a write in flight, with
INC_MODE 1's increments. -/
def State.sendBurst (s : State) (n : Nat) (c : DmaChan) (d : DmaDesc) (b : Burst) (left : Nat) : State :=
  let s := s.bump (engReg n 0x28) b.lines
  if d.space true = 1 then s.hostWrite (c.host % 2) b.addr b.bytes
  else
    let m := (s.memOf b.addr).getD 8
    let incs : List Inc := if d.incMode = 1 then [{ key := cntKey d.counterMem d.counter, amount := b.elems }] else []
    s.send { mkWrite s (.engine n) b.addr b.bytes (left + engWriteLatency n m) incs with marked := b.marked }

/-- Send an increment that reaches its counter at `due`, or after the writes it waits for (R317). -/
def State.sendInc (s : State) (n : Nat) (d : DmaDesc) (amount : Nat) (after : List Nat) (due : Nat) : State :=
  s.send { mkWrite s (.engine n) 0 [] due [{ key := cntKey d.counterMem d.counter, amount := amount }] with
    mem := 16 + d.counterMem, parts := [], after := after }

/-- Send the bursts in order, a line per cycle from `left` on (R307, R313); answers when the last line has left too. -/
def State.sendBursts (s : State) (n : Nat) (c : DmaChan) (d : DmaDesc) : List Burst → Nat → State × Nat
  | [], left => (s, left)
  | b :: bs, left =>
    let left := left + b.lines * s.engCycle n
    (s.sendBurst n c d b left).sendBursts n c d bs left

/-- The 4-byte read behind the writes toward a host: its answer acknowledges them (R317). -/
def State.sendFlush (s : State) (n left : Nat) : State :=
  s.send { mkWrite s (.engine n) 0 [] left [] with mem := 11, parts := [] }

/-- Latency of a descriptor's source reads (R449); a host source answers when its data come. -/
def State.sourceLatency (s : State) (n : Nat) (d : DmaDesc) : Nat :=
  if d.op = 1 ∧ d.space false = 0 then engWriteLatency n ((s.memOf (d.addr false)).getD 8) else 0

/-- COPY or FILL: every element in order, behind the reads and writes of the descriptor before, then the descriptor's own increment
where INC_MODE 2 (or 1 toward a host) asks for it. -/
def State.moveDesc (s : State) (n : Nat) (data : List Byte) (r : DmaRun) (d : DmaDesc) : State :=
  let s := s.at (max r.descAt r.readAt)
  let bs := s.bursts d data
  let first := s.nextId
  let start := s.now
  let from_ := max r.leaveAt (start + s.sourceLatency n d)
  let (s, left) := s.sendBursts n r.chan d bs from_
  let s := if d.space true = 1 then s.sendFlush n left else s
  let ids := (List.range (s.nextId - first)).map (first + ·)
  let s := if d.incMode = 2 ∨ (d.incMode = 1 ∧ d.space true = 1) then s.sendInc n d 1 ids left else s
  s.descDone n { r with issued := r.issued ++ ids, badSource := r.badSource || bs.any (fun b => !b.marked.isEmpty),
                        readAt := start + (left - from_), leaveAt := left } d

/-- COPY (R312, R313, R317, R318): `data` is what host memory holds at a host source, element after element. -/
def execCopy (n : Nat) (data : List Byte) (s : State) : Host.Outcome State Fault Refusal := next (s.withDesc n 1 (s.moveDesc n data))

/-- FILL (R312, R313). -/
def execFill (n : Nat) (s : State) : Host.Outcome State Fault Refusal := next (s.withDesc n 2 (s.moveDesc n []))

/-- Writes the channel has issued that have not arrived. -/
def State.unarrived (s : State) (r : DmaRun) : List PendWrite := s.writes.filter (fun w => r.issued.contains w.id)

/-- DMA_FENCE (R312, R317): done when every write the channel has issued has arrived. -/
def execDmaFence (n : Nat) (s : State) : Host.Outcome State Fault Refusal :=
  next (s.withDesc n 3 (fun r d => if (s.unarrived r).isEmpty then (s.at (max r.descAt r.leaveAt)).descDone n r d else s))

/-- DMA_SIGNAL (R312, R317): COUNT0_M1 + 1 to the counter once the channel's writes to its memory have arrived. -/
def execDmaSignal (n : Nat) (s : State) : Host.Outcome State Fault Refusal :=
  next (s.withDesc n 4 (fun r d =>
    if (s.unarrived r).any (fun w => decide (w.mem = d.counterMem)) then s
    else
      let s := s.at (max r.descAt r.leaveAt)
      (s.sendInc n d (d.count 0 + 1) [] (s.now + engWriteLatency n d.counterMem)).descDone n r d))

/-! ### Timeouts, disable and enable (R319, R321) -/

/-- A write that may or may not arrive: the free value decides. -/
def State.maybeDrop (s : State) (w : PendWrite) : State :=
  let (x, s) := s.draw
  if x % 2 = 0 then { s with writes := s.writes.filter (fun v => decide (v.id ≠ w.id)) } else s

/-- End the running channel with TIMEOUT: its increments that wait are not sent, DMA_TIMEOUT is raised (R319). -/
def State.timeOut (s : State) (n kind mem : Nat) (r : DmaRun) : State :=
  let lost := s.unarrived r
  let s := { s with writes := s.writes.filter (fun w => !(w.after.any (fun i => lost.any (fun v => decide (v.id = i))) && decide (w.owner = .engine n))) }
  let s := if kind = 2 then lost.foldl State.maybeDrop s else s
  let s := (s.setRun n (some { r with ended := some stTimeout, fetch := none, next := none, desc := none, leaveAt := 0 })).endChannel n
  s.raise evDmaTimeout (engSource n) r.chan.ctx (n + r.chan.tag * 2 ^ 7 + kind * 2 ^ 23 + mem * 2 ^ 25)

/-- DMA_RESPONSE_TIMEOUT (R319): `kind` 0 a data read, 1 a descriptor fetch, 2 an acknowledgment. -/
def execDmaResponseTimeout (n kind : Nat) (s : State) : Host.Outcome State Fault Refusal :=
  match (s.eng n).run with
  | none => next s
  | some r =>
    if r.ended.isSome then next s
    else
      let late := s.at (s.now + s.engTimeout n)
      match kind, r.fetch, r.desc with
      | 0, _, some d => if DmaDesc.op d = 1 then
          next (late.timeOut n 0 (if DmaDesc.space d false = 1 then 11 else (s.memOf (DmaDesc.addr d false)).getD 8) r) else next s
      | 1, some (a, _), _ => next (late.timeOut n 1 (if r.chan.headSpace = 1 then 11 else (s.memOf a).getD 8) r)
      | 2, _, some d => if DmaDesc.op d = 3 ∨ DmaDesc.op d = 4 then
          next (late.timeOut n 2 (match s.unarrived r with | w :: _ => w.mem | [] => 11) r) else next s
      | _, _, _ => next s

/-- A counter takes a free value (R321). -/
def State.freeCounter (s : State) (key : Nat) : State :=
  let (x, s) := s.draw
  s.setCounter key (x % 2 ^ 32)

/-- A register takes a free value. -/
def State.freeReg (s : State) (o : Nat) : State :=
  let (x, s) := s.draw
  s.setReg o (BitVec.ofNat 32 x)

/-- Drop the running channel: its writes may or may not arrive, the counters it owed hold free values (R321). -/
def State.dropRun (s : State) (n : Nat) : State :=
  match (s.eng n).run with
  | none => s
  | some r =>
    let mine := s.writes.filter (fun w => decide (w.owner = .engine n))
    let owed := (mine.flatMap (fun w => w.incs.map Inc.key)) ++ (match r.desc with
      | some d => if DmaDesc.incMode d ≠ 0 ∨ DmaDesc.op d = 4 then [cntKey (DmaDesc.counterMem d) (DmaDesc.counter d)] else []
      | none => [])
    let s := { s with writes := s.writes.filter (fun w => !(decide (w.owner = .engine n) && decide (w.parts = []))) }
    let s := (mine.filter (fun w => decide (w.parts ≠ []))).foldl State.maybeDrop s
    let s := owed.eraseDups.foldl State.freeCounter s
    (s.setRun n none).dropChan r.chan

/-- DMA_ENGINE_DISABLE (R321): ENABLE = 0 from the management function drops everything. -/
def execDmaEngineDisable (fn n : Nat) (s : State) : Host.Outcome State Fault Refusal :=
  if !(s.isMgmt fn) || decide (engines ≤ n) || !(s.engOn n) then next s
  else
    let queue := (s.eng n).queue
    let s := (s.setRbit (engReg n 0x00) 0 false).dropRun n
    let s := queue.foldl State.dropChan (s.setEng n DmaEngine.reset)
    next (((s.freeReg (engReg n 0x20)).freeReg (engReg n 0x24)).freeReg (engReg n 0x28))

/-- DMA_ENGINE_ENABLE (R321): ENABLE = 1 starts the engine with an empty queue and zeroed counters. -/
def execDmaEngineEnable (fn n : Nat) (s : State) : Host.Outcome State Fault Refusal :=
  if !(s.isMgmt fn) || decide (engines ≤ n) || s.engOn n then next s
  else
    let s := (s.setRbit (engReg n 0x00) 0 true).setEng n DmaEngine.reset
    next (((s.setReg (engReg n 0x20) 0#32).setReg (engReg n 0x24) 0#32).setReg (engReg n 0x28) 0#32)

/-! ### Arrival, counters, scoreboards (R317, R325, R330) -/

/-- WRITE_ARRIVAL (R84, R298, R317, R326): the `k`-th write in flight arrives, with its increments, beside the narrow view's accesses of the
same cycle; toward a host, the answer of the read behind the writes. -/
def execWriteArrival (k : Nat) (s : State) (narrow : List NarrowAccess := []) : Host.Outcome State Fault Refusal :=
  match s.writes[k]? with
  | none => next s
  | some w =>
    if !(writeFree s.writes k) then next s
    else
      let s := (({ s with writes := s.writes.eraseIdx k }.at w.due).portCycle narrow [] (fun s => s.land w)).closeDmeGroups w.id
      match w.owner with
      | .gallery g => next (if w.outbound then s.countOut g else s)
      | _ => next s

/-- COUNTER_SET (R330, R333): the management function writes CNT_VALUE; the additions of the cycle stand on top of it. -/
def execCounterSet (fn v : Nat) (s : State) : Host.Outcome State Fault Refusal :=
  let m := s.rfld 0x78000 15 12
  if s.isMgmt fn ∧ m ≤ 8 then next (s.setCounterAt (cntKey m (s.rfld 0x78000 11 0)) (v % 2 ^ 32)) else next s

/-- Entries of a range scoreboard (R325). -/
def sbEntries : Nat := 32

/-- SCRATCHPAD_BURST_ISSUE (R325): an access of `n` bytes at `a` of scratchpad `m` that waited, on the scoreboard when `sb`,
issues where no range it overlaps is registered and, for a write burst, an entry is free; a write of 64 bytes or more registers. Beside
it run the narrow view's accesses of the cycle (R326). -/
def execScratchpadBurstIssue (m a n : Nat) (write sb : Bool) (s : State) (narrow : List NarrowAccess := []) : Host.Outcome State Fault Refusal :=
  let live := (Tab.get [] s.scoreboard m).filter (fun e => decide (s.now < e.until_))
  let all := live ++ s.testChunk m
  let burst := write && decide (64 ≤ n)
  if 8 < m ∨ burstBytes < n ∨ all.any (fun e => decide (a < e.addr + e.len ∧ e.addr < a + n)) ∨ (burst ∧ sbEntries ≤ all.length) then next s
  else
    let cycles := (a + n + 255) / 256 - a / 256
    let done := s.now + (if m < 8 then hallCycles cycles else cycles * (if s.coreSlow then 8 else 6))
    let s := s.portCycle narrow (if write then [] else [(memBase m + a, n)]) id
    let s := { s with scoreboard := Tab.set [] s.scoreboard m (if burst then live ++ [{ addr := a, len := n, until_ := done }] else live) }
    next (if sb then s.bump (0x78100 + 4 * m) 1 else s)

/-! ### Host resets (R300 to R303) -/

/-- A ring bound to a reset function (R301): DISABLED, with base, size, CQ, interrupt fields and index at reset values; kind,
binding and COHERENT stay. Completions that waited for the host are discarded; events and token records wait on (R293). -/
def Ring.hostReset (r : Ring) : Ring :=
  { Ring.reset with
    cfg := (r.cfg &&& 0x0001FF07#32) ||| (Ring.reset.cfg &&& 0xFFFE00F8#32)
    waiting := if r.kind = 2 ∨ r.kind = 3 then r.waiting else [], lost := r.lost, lostTotal := r.lostTotal }

/-- R303, R322: the channels of a function end as a disable drops them. -/
def State.resetChannels (s : State) (fn n : Nat) : State :=
  let mine := fun (c : DmaChan) => decide (2 * (c.host % 2) + c.host / 2 = fn)
  let queue := (s.eng n).queue
  let s := match (s.eng n).run with
    | some r => if mine r.chan then s.dropRun n else s
    | none => s
  let s := s.setEng n { s.eng n with queue := queue.filter (fun c => !(mine c)) }
  (queue.filter mine).foldl State.dropChan s

def State.resetFn (s : State) (fn : Nat) : State :=
  let mine := fun (n : Nat) => decide ((s.ring n).fn = fn)
  let orphans := s.accepted.filter (fun e => mine e.sq)
  let s := { s with orphans := s.orphans ++ orphans, rings := Tab.mapAll Ring.reset (fun n r => if mine n then r.hostReset else r) s.rings }
  let s := s.setFn fn FnRegs.reset
  (s.engines.map Prod.fst).foldl (fun s n => s.resetChannels fn n) s

/-- The link of a host port is down (HOST_LINK, R296). -/
def State.portDown (s : State) (p : Nat) : State :=
  let s := (s.setRfld 0x50108 (16 * p + 2) (16 * p) 0).setRfld 0x50108 (16 * p + 7) (16 * p + 3) 0
  if p = 0 then s.setRbit 0x50108 8 false else s

/-- HOST_RESET (R279, R296, R300 to R303): a Function Level Reset of `func`, or none: a hot reset of the port, or with `down` its
link-down, either of which resets both functions and lets MGMT_PORT take effect when it names this port. -/
def execHostReset (port : Nat) (func : Option Nat) (s : State) (down : Bool := false) : Host.Outcome State Fault Refusal :=
  let p := port % 2
  match func with
  | some f => next (s.resetFn (2 * p + f % 2))
  | none =>
    let s := (s.resetFn (2 * p)).resetFn (2 * p + 1)
    let s := if down then s.portDown p else s
    next (if s.rfld 0x50100 0 0 = p then { s with mgmtPort := p } else s)

end Sys2Proof.Machine
end

