-- ==== Sys2Proof/Machine/Tmon.lean ====
section
/-! DEFINITION. Telemetry converters and the thermal model below their commands: channels, calibration, reference buffers and reported
estimates (R388 to R400). The model's own choices: log 40 telemetry and thermal (DEDUCED, DESIGN CHOICE). -/

namespace Sys2Proof.Machine

def State.tmon (s : State) (d k : Nat) : Tmon := Tab.get Tmon.reset s.tmons (2 * d + k)
def State.setTmon (s : State) (d k : Nat) (t : Tmon) : State := { s with tmons := Tab.set Tmon.reset s.tmons (2 * d + k) t }
def State.modTmon (s : State) (d k : Nat) (f : Tmon → Tmon) : State := s.setTmon d k (f (s.tmon d k))

/-- Logic dies (R388): 0 to 7 halls, 8 correction die, 9 and 10 border dies. -/
def logicDies : Nat := 11
/-- Dies of the thermal model (R397): the logic dies, then the stacks. -/
def modelDies : Nat := 19

/-- Rails that feed a die (R389). -/
def railsOf (d : Nat) : List Nat := if d < 8 then [1, 3, 4, 5, 6, 7] else if d = 8 then [0, 1, 2] else [1, 2]

/-- Is a channel present on a die (R389)? -/
def chanPresent (d ch : Nat) : Bool :=
  if ch < 8 then (railsOf d).contains ch
  else if ch < 16 then (railsOf d).contains (ch - 8)
  else if ch < 21 then decide (d = 8)
  else decide (24 ≤ ch ∧ ch ≤ 26)

/-- Is a channel differential (R389)? -/
def chanSigned (ch : Nat) : Bool := decide (ch < 8 ∨ ch = 25 ∨ ch = 26)

/-- Are the converters of a die powered (R388): the correction die's in every state except OFF, others while the die's rails are
good (VPROG, on demand, apart)? -/
def State.diePowered (s : State) (d : Nat) : Bool :=
  decide (s.pkg ≠ 0) && (decide (d = 8) || ((railsOf d).filter (fun r => decide (r ≠ 7))).all s.railPg)

/-- The calibrated code of a conversion (R390). -/
def State.calibrate (s : State) (d k ch g : Nat) (raw : Int) : Int :=
  let w := s.reg (tmonReg d k (0x10 + 4 * (if chanSigned ch then g else 0)))
  let c := rhe ((16 * raw - signed 16 (fld w 15 0)) * (fld w 31 16 : Int)) (2 ^ 18)
  if chanSigned ch then clampI (-2048) 2047 c else clampI 0 4095 c

/-- NV log offset of the calibration pair of a die, converter and gain (R395). -/
def calOffset (d k g : Nat) : Nat := 0x303000 + 32 * d + 16 * k + 4 * g

/-- Load the calibration pairs of a die from the NV log (R395). -/
def State.loadCal (s : State) (d : Nat) : State :=
  (List.range 8).foldl (fun s i =>
    s.setReg (tmonReg d (i / 4) (0x10 + 4 * (i % 4))) (BitVec.ofNat 32 (s.nvLE (calOffset d (i / 4) (i % 4)) 4))) s

/-- Switch on the reference buffer of a converter (R391). -/
def State.refOn (s : State) (d k : Nat) : State :=
  let t := s.tmon d k
  (s.setRbit (tmonReg d k 0) 0 true).setTmon d k { t with refOn := some (t.refOn.getD s.now) }

/-- The always-on domain starts a die's converters: calibration pairs loaded, both buffers on (R391, R395). -/
def State.startDie (s : State) (d : Nat) : State := ((s.loadCal d).refOn d 0).refOn d 1

/-! ### Estimates (R397 to R400) -/

/-- Updates of history before estimates are reported (R399). -/
def historyNeeded : Nat := 5000
def Thermal.historyOk (t : Thermal) : Bool := decide (historyNeeded ≤ t.history)

/-- A reported estimate in units of 0.25 °C (R399). -/
def Thermal.report (t : Thermal) (v : F32) : Int := if t.historyOk then ratRhe (4 * F32.toRat v) else 340

/-- Node `n` (0 J, 1 S, 2 L, 3 P) of die `d`. -/
def Thermal.node (t : Thermal) (d n : Nat) : F32 :=
  if n = 0 then t.tj.getD d 0#32 else if n = 1 then t.ts.getD d 0#32 else if n = 2 then t.tl.getD d 0#32 else t.tp

/-- Every reported estimate with its die and node, dies ascending, the package node last. -/
def Thermal.estimates (t : Thermal) : List (Nat × Nat × Int) :=
  (List.range modelDies).flatMap (fun d => [0, 1, 2].map (fun n => (d, n, t.report (t.node d n)))) ++ [(0, 3, t.report t.tp)]

/-- The hottest estimate; the first in order where several are equal (R400). -/
def Thermal.hottest (t : Thermal) : Nat × Nat × Int :=
  t.estimates.foldl (fun a b => if a.2.2 < b.2.2 then b else a) (0, 0, t.report (t.node 0 0))

/-- The estimate below which WAKING stops holding: 60 °C (R403). -/
def coolLimit : Int := 240

end Sys2Proof.Machine
end

