-- ==== Sys2Proof/Machine/Power.lean ====
section
/-! DEFINITION. Power, clocks and wake-up: package states, rails, the wake steps, degraded start, the backup hand-over and the NV log
records (R362 to R387). The model's own choices: log 6 commands in a power state where they cannot come (DESIGN CHOICE); log 39 power,
clocks and wake-up (DEDUCED, DESIGN CHOICE). -/

namespace Sys2Proof.Machine

/-! ### NV log records (R385) -/

def nvRecordBase : Nat := 0x304000
def nvRecords : Nat := 15744

/-- The 32 bytes of a record: kind 1 event, 2 failure, 3 hand-over ended. -/
def nvRecordBytes (time : DWord) (code kind source inc : Nat) (deferred : Bool) (detail seq : Nat) : List Byte :=
  let bs := natLE 8 time.toNat ++ natLE 2 code ++ natLE 1 kind ++ natLE 1 source ++ natLE 2 inc ++ natLE 1 (b2n deferred) ++ [0#8] ++
    natLE 8 detail ++ natLE 4 seq
  bs ++ natLE 4 (crc32c bs).toNat

/-- Write a record at index SEQ mod 15,744. -/
def State.nvRecord (s : State) (kind code source detail : Nat) (deferred : Bool) : State :=
  let seq := s.power.nvSeq
  let s := s.nvWrite (nvRecordBase + 32 * (seq % nvRecords)) (nvRecordBytes s.time code kind source s.incarnation deferred detail seq)
  let s := (s.bump 0xB000C 1).setReg 0xB0008 (BitVec.ofNat 32 seq)
  { s with power := { s.power with nvSeq := (seq + 1) % 2 ^ 32 } }

/-- Raise an event and record it with KIND 1. -/
def State.raiseNv (s : State) (code source detail : Nat) : State := (s.raise code source none detail).nvRecord 1 code source detail false

/-- PWR_FAIL takes a failure code (R377). -/
def State.setFail (s : State) (code : Nat) : State := (s.setRfld 0x10004 15 0 code).bumpSat 0x10004 23 16 1

/-- A failure is recorded with KIND 2; the record waits while VDD_IO or VDD_CORE is not good (R377). -/
def State.recordFail (s : State) (code : Nat) : State :=
  let s := s.setFail code
  if s.railPg 1 && s.railPg 2 then s.nvRecord 2 code 8 0 false
  else { s.setRbit 0x10004 24 true with power := { s.power with deferred := s.power.deferred ++ [code] } }

/-- The records that waited (R377). -/
def State.writeDeferred (s : State) : State :=
  let s1 := s.power.deferred.foldl (fun s c => s.nvRecord 2 c 8 0 true) s
  { s1.setRbit 0x10004 24 false with power := { s1.power with deferred := [] } }

/-! ### PWR_STATUS -/

def State.setPkg (s : State) (x : Nat) : State := s.setRfld 0x10000 2 0 x
def State.wakeStep (s : State) : Nat := s.rfld 0x10000 5 3
def State.attempt (s : State) : Nat := s.rfld 0x10000 7 6
def State.setStep (s : State) (step att : Nat) : State := (s.setRfld 0x10000 5 3 step).setRfld 0x10000 7 6 att
def State.mainOk (s : State) : Bool := bit (s.reg 0x10000) 8
def State.xtalOk (s : State) : Bool := bit (s.reg 0x20000) 30
/-- Always-on clock: the crystal while it runs, or the internal oscillator (R362). -/
def State.clockFrom (s : State) (internal : Bool) : State := s.setRbit 0x10000 9 (internal || !s.xtalOk)

def State.phaseTo (s : State) (p : PwrPhase) : State := { s with power := { s.power with phase := p, since := s.now } }

/-- V_HI and V_LO in mV, fused (R372, R436). -/
def vHiMv : Nat := 760 + Config.vHi.val
def vLoMv : Nat := 700 + Config.vLo.val
def State.setCoreMv (s : State) (mv : Nat) : State := s.setRfld 0x20004 9 0 mv

/-! ### What survives a loss of power -/

/-- Registers of the always-on domain. -/
def aonReg (o : Nat) : Bool :=
  decide (o = 0x14 ∨ o = 0x1C ∨ o = 0x20 ∨ o = 0xB0008 ∨ o = 0xB000C) || decide (0x10000 ≤ o ∧ o < 0x30000) ||
  decide (0x32000 ≤ o ∧ o < 0x32400) || decide (0x40000 ≤ o ∧ o < 0x50000)

/-- VDD_CORE goes: everything outside the always-on domain, the cells, the NV log and the drives returns to reset (R382, R445). -/
def State.powerLoss (s : State) : State :=
  let t := { State.reset with
    pending := s.pending, now := s.now, free := s.free, nextId := s.nextId, bar0 := s.bar0.filter (fun p => aonReg p.1), lastRead := s.lastRead
    eventSeq := s.eventSeq, hostMem := s.hostMem, cells := s.cells, nv := s.nv, tier2 := s.tier2, retirePending := s.retirePending
    power := { s.power with ready := none, relock := [], hallsOut := [], found := Bist.none }
    tmons := s.tmons.filter (fun p => decide (p.1 / 2 = 8)), thermal := s.thermal }
  (((t.setRfld 0x80000 31 16 s.incarnation).setRfld 0x20000 29 0 0).setCoreMv 800).setRfld 0x20004 31 16 0

/-- VDD_AON goes: only the cells, the NV log, the drives and pending retirements are left (R362, R346). -/
def State.aonLoss (s : State) : State :=
  { State.reset with
    pending := s.pending, now := s.now, free := s.free, nextId := s.nextId, hostMem := s.hostMem, cells := s.cells, nv := s.nv, tier2 := s.tier2
    retirePending := s.retirePending, power := { Power.reset with phase := .off, nvSeq := s.power.nvSeq, since := s.now } }

/-! ### Rails (R364 to R366) -/

/-- The package state that follows a power-down is reached. -/
def State.finishDown (s : State) (state : Nat) : State :=
  if state = 4 then s.phaseTo .holdWait
  else if state = 1 then ((s.setPkg 1).setStep 0 0).phaseTo .rest
  else ((s.setPkg 5).clockFrom true).phaseTo .rest

/-- Disable the next rail, in descending index order, VPROG first (R366). -/
def State.downFrom (s : State) (state : Nat) : State :=
  match [7, 6, 5, 4, 3, 2, 1].find? s.railEn with
  | none => s.finishDown state
  | some r =>
    let s := (s.setRbit 0x10008 r false).phaseTo (.down r state)
    if r = 2 then s.powerLoss else s

/-- Enable rail `r` and wait for its power-good; a good rail settles at once (R365, R376). -/
def State.enableRail (s : State) (r : Nat) : State :=
  let s := s.setRbit 0x10008 r true
  s.phaseTo (if s.railPg r then .settle r else .rail r)

/-- OSC_CHECK begins (R370). -/
def State.beginOsc (s : State) : State := (s.setStep 2 0).phaseTo .osc

/-- The next rail that is not on and good; after rail 6, REG_CHECK ends: the converters of the other dies start (R391). -/
def State.nextRail (s : State) (r : Nat) : State :=
  match (List.range 7).find? (fun x => decide (r < x) && !(s.railEn x && s.railPg x)) with
  | some x => s.enableRail x
  | none => ([0, 1, 2, 3, 4, 5, 6, 7, 9, 10].foldl State.startDie s).beginOsc

/-! ### Failures and attempts (R375 to R377) -/

/-- The wake ends: the failure is recorded and the package powers down to HALTED (R377). -/
def State.failWake (s : State) (code : Nat) : State := (s.recordFail code).downFrom 5

/-- A step fails on an attempt: the fourth ends the wake; before another one, REG_CHECK deasserts the rail, OSC_CHECK stops the PLLs
and restarts the crystal, both for 10 ms; the other steps run again from their start (R376). -/
def State.failStep (s : State) (code rail : Nat) : State :=
  let step := s.wakeStep
  if 3 ≤ s.attempt then s.failWake code
  else
    let s := { s with power := { s.power with retries := s.power.retries + 1 } }
    if step = 1 then (s.setRbit 0x10008 rail false).phaseTo (.retry 1 rail)
    else if step = 2 then (((s.setRfld 0x20000 28 0 0).setRbit 0x20000 30 false).clockFrom true).phaseTo (.retry 2 0)
    else (s.setStep step (s.attempt + 1)).phaseTo s.power.phase

def failCode (step cause unit : Nat) : Nat := step * 4096 + cause * 256 + unit

/-! ### The start of WAKING (R353, R362, R403) -/

/-- REG_CHECK begins; STRAP_TEST at 1 fails it at once and for good (R375, R376). -/
def State.beginReg (s : State) : State :=
  let s := s.setStep 1 0
  if bit (s.reg 0x14) 2 then s.failWake 0x1300 else s.nextRail 0

/-- Is every reported estimate below 60 °C (R403)? -/
def State.cooled (s : State) : Bool := s.thermal.estimates.all (fun e => decide (e.2.2 < coolLimit))

/-- WAKING holds until the package has cooled after a thermal shutdown, and then begins REG_CHECK (R403). -/
def State.leaveHold (s : State) : State :=
  if s.power.hold && !s.cooled then s.phaseTo .cooling
  else { s with power := { s.power with hold := false } }.beginReg

/-- WAKING starts: INCARNATION rises, attempts are fresh, the thermal latch clears (R353, R363, R403). -/
def State.startWaking (s : State) : State :=
  let inc := (s.incarnation + 1) % 65536
  let s := (s.setRfld 0x80000 31 16 inc).nvWrite 0x303FF8 (natLE 2 inc)
  let s := (((s.setPkg 2).setStep 0 0).clockFrom false)
  { s with power := { s.power with
      retries := 0, railLost := false, hold := s.power.hold || s.power.latch, wasShut := s.power.wasShut || s.power.latch, latch := false } }.leaveHold

/-! ### OFF and AON_ON (R363) -/

/-- VDD_AON_GOOD (R363). -/
def execVddAonGood (s : State) : Host.Outcome State Fault Refusal :=
  if s.power.phase = .off then next ((s.setPkg 1).phaseTo .aonOn) else next s

/-- AON_ON (R363, R391, R395): 2 ms after VDD_AON is good. The straps are sampled, SMB_ADDR in bits 0 and 1 and STRAP_TEST in bit 2;
INCARNATION comes from the NV log; the correction die's converters start; MAIN_OK high starts WAKING. -/
def execAonOn (straps : Nat) (s : State) : Host.Outcome State Fault Refusal :=
  if s.power.phase = .aonOn then
    let s := s.at (s.power.since + ms 2)
    let s := (s.setReg 0x14 (BitVec.ofNat 32 (straps % 8))).setRfld 0x80000 31 16 (s.nvLE 0x303FF8 2)
    let s := ((s.startDie 8).clockFrom false).phaseTo .rest
    let s := { s with power := { s.power with aonAt := s.now } }
    next (if s.mainOk then s.startWaking else s)
  else next s

/-- VDD_AON_LOSS (R362, R386): OFF; a hand-over in progress leaves its journal without COMPLETE. -/
def execVddAonLoss (s : State) : Host.Outcome State Fault Refusal :=
  let s := if s.power.phase = .handover then s.nvWrite 0x37F00E [0#8] else s
  next (s.aonLoss.setPkg 0)

/-- CRYSTAL_RUNS (R362, R363). -/
def execCrystalRuns (s : State) : Host.Outcome State Fault Refusal :=
  if s.power.phase = .off then next s
  else
    let s := s.setRbit 0x20000 30 true
    next (s.clockFrom (decide (s.pkg = 5) || decide (s.power.phase = .aonOn)))

/-! ### The hand-over (R176, R366, R381 to R384) -/

/-- Every programmer stops after its pulse in flight, and VPROG goes off (R176, R367). -/
def State.stopProgramming (s : State) : State :=
  let s := (s.arrays.map Prod.fst).foldl State.cutRow (s.setRbit 0x10008 7 false)
  { s with
    arrays := Tab.mapAll ArrayState.reset (fun _ a => { a with job := none }) s.arrays
    progActive := [], progWait := [], vprogAt := none, vprogOff := none }

/-- A gallery in DEEP with its work abandoned. -/
def Gallery.abandon (g : Gallery) : Gallery :=
  { g with
    power := .deep, wakeDue := none, armHeld := false, refOn := none, idleSince := none, lightSince := none, queue := [], decodeWaits := false, flight := none
    pairReset := none, slots := [none, none], evals := [], sweeps := [], groups := [], closing := none, inbox := [], bg := none, busySince := none }

/-- The test engine's test ends with RESULT 3 (R432). -/
def State.abortTest (s : State) : State :=
  match s.test with
  | none => s
  | some _ => { ((s.setRbit 0xC0014 0 false).setRfld 0xC0014 2 1 3).setRbit 0xC0014 3 true with test := none } |>.bump 0xC0020 1

/-- Running and queued work of every unit is abandoned (R382). -/
def State.abandonWork (s : State) : State :=
  let s := s.abortTest
  { s with
    galleries := Tab.mapAll Gallery.reset (fun _ g => g.abandon) s.galleries
    partials := [], powerSteps := [], spe := [], speHold := none, prefillJobs := [], unloads := [], attQueue := [], attRuns := [], fetches := [], diags := [], snapDue := none
    dme := { s.dme with mgmtQueue := [], queue := [], mgmtWait := [], collected := [], run := none, groups := [] }
    engines := [] }

/-- RESET goes out on every up link and the links go down (R357, R382). -/
def State.resetLinks (s : State) : State := (s.links.filter (fun p => p.2.alive)).foldl (fun s p => s.dropLink p.1 0) s

/-- Is the link of a host port up? -/
def State.portUp (s : State) (p : Nat) : Bool := decide (s.rfld 0x50108 (16 * p + 2) (16 * p) ≠ 0)

/-- Each accepted command not yet completed completes with ABORTED where its port link is up; later completions of it are
discarded (R382). -/
def State.abortCommands (s : State) : State :=
  let es := s.accepted.filter (fun e => !(s.orphans.contains e))
  let s := es.foldl (fun s e => if s.portUp (s.ring e.sq).port then s.complete e stAborted 0 else s) s
  { s with accepted := [], orphans := s.orphans ++ es }

/-- Streams outside FREE, ascending. -/
def State.openStreams (s : State) : List (Nat × Stream) := s.streams.filter (fun p => decide (p.2.state ≠ .free))

/-- The actions of the table of R382, up to the writes to the NV log; causes 0 to 3 enter HOLDUP, 4 is a thermal shutdown (R402).
With no management processor (cause 3) those that need one are skipped (R424). -/
def State.handOver (s : State) (cause : Nat) : State :=
  let s := { s with power := { s.power with phase := .handover, since := s.now, holdAt := s.now, cause := cause, railLost := decide (cause = 1) } }
  let s := (s.stopProgramming.resetLinks).abandonWork
  if cause = 3 then s else s.abortCommands

/-- HOLDUP is entered (R382). -/
def State.enterHoldup (s : State) (cause rail : Nat) : State :=
  let s := ((s.setPkg 4).setRbit 0x10 0 false).raiseNv evHoldupEnter 8 (cause + rail * 4 + s.openStreams.length * 64)
  s.handOver cause

/-- A journal entry (R383). -/
def journalEntry (st : Nat) (x : Stream) : Nat :=
  st % 65536 + (x.context % 64) * 2 ^ 16 + x.state.code * 2 ^ 22 + b2n x.mirrored * 2 ^ 25 + (x.delivered % 2 ^ 21) * 2 ^ 26 + (x.endReason % 8) * 2 ^ 47

/-- The 64 bytes of the journal header (R383); TIME is that of HOLDUP entry. -/
def journalHeader (time : Nat) (entries inc : Nat) (complete : Bool) : List Byte :=
  let bs := natLE 8 time ++ natLE 4 entries ++ natLE 2 inc ++ natLE 1 (b2n complete) ++ List.replicate 45 0#8
  bs ++ natLE 4 (crc32c bs).toNat

/-- The first `n` journal entries, then the header (R383). -/
def State.writeJournal (s : State) (n : Nat) : State :=
  let xs := s.openStreams
  let t0 := (s.tbStart.map (fun t => (s.power.holdAt - t) / 12)).getD 0
  let s := (xs.take n).zipIdx.foldl (fun s p => s.nvWrite (0x380000 + 8 * p.2) (natLE 8 (journalEntry p.1.1 p.1.2))) s
  s.nvWrite 0x37F000 (journalHeader t0 (min n xs.length) s.incarnation (decide (xs.length ≤ n)))

/-- Longest hand-over, in units of 10 µs (R382). -/
def handoverMax : Nat := 1100

/-- HANDOVER_END (R382, R383, R402): `dur` · 10 µs after HOLDUP entry. After a rail loss the supplies may have failed after `written`
journal entries, or before the wear table. Rails 1 to 6 go down, then MAIN_OK is awaited, or HALTED follows. -/
def execHandoverEnd (dur : Nat) (written : Option Nat) (wear : Bool) (s : State) : Host.Outcome State Fault Refusal :=
  if s.power.phase = .handover then
    let d := min dur handoverMax
    let s := s.at (s.power.holdAt + us (10 * d))
    let total := s.openStreams.length
    let n := if s.power.cause = 3 then 0 else if s.power.railLost then min (written.getD total) total else total
    let jok := decide (s.power.cause ≠ 3) && decide (n = total)
    let wok := !s.power.railLost || wear
    let s := if s.power.cause = 3 then s else s.writeJournal n
    let s := if wok then s.writeWear else s
    let s := s.nvRecord 3 0 8 0 false
    let s := s.setReg 0x10018 (BitVec.ofNat 32 (n + b2n jok * 2 ^ 17 + b2n wok * 2 ^ 18 + (s.power.cause % 4) * 2 ^ 19 + d * 2 ^ 21))
    next (s.downFrom (if s.power.railLost || s.power.latch then 5 else 4))
  else next s

/-- An event kept for the event rings of the next READY, outside the held buffer; it takes the next SEQ (R380). -/
def State.keepEvent (s : State) (code detail : Nat) : List Byte × State :=
  let bs := eventRecord code 8 none detail s.time s.eventSeq
  (bs, ({ s.setReg 0x20 (BitVec.ofNat 32 s.eventSeq) with eventSeq := (s.eventSeq + 1) % 2 ^ 32 }).nvRecord 1 code 8 detail false)

/-- MAIN_OK_STABLE (R384): the hand-over has ended and MAIN_OK has been high for 100 ms; HOLDUP_EXIT, then WAKING. -/
def execMainOkStable (s : State) : Host.Outcome State Fault Refusal :=
  match s.power.phase, s.power.mainSince with
  | .holdWait, some t =>
    let s := s.at (t + ms 100)
    let h := s.reg 0x10018
    let held := (s.now - s.power.holdAt) / ms 1
    let (bs, s) := s.keepEvent evHoldupExit
      (fld h 17 17 + fld h 16 0 * 2 + fld h 18 18 * 2 ^ 18 + fld h 20 19 * 2 ^ 19 + (min held (2 ^ 32 - 1)) * 2 ^ 21)
    next { s with power := { s.power with exits := s.power.exits ++ [bs] } }.startWaking
  | _, _ => next s

/-! ### MAIN_OK and the sideband (R362, R378, R384, R386) -/

/-- MAIN_OK_RISE (R362, R384): a filtered rise. STANDBY and HALTED start WAKING; HOLDUP counts from here. -/
def execMainOkRise (s : State) : Host.Outcome State Fault Refusal :=
  if s.mainOk || decide (s.power.phase = .off) then next s
  else
    let s := { s.setRbit 0x10000 8 true with power := { s.power with mainSince := some s.now } }
    next (if s.power.phase = .rest ∧ (s.pkg = 1 ∨ s.pkg = 5) then s.startWaking else s)

/-- MAIN_OK_FALL (R362, R382, R386): RUN enters HOLDUP; WAKING is abandoned; HOLDUP goes on. -/
def execMainOkFall (s : State) : Host.Outcome State Fault Refusal :=
  if !s.mainOk then next s
  else
    let s := { s.setRbit 0x10000 8 false with power := { s.power with mainSince := none } }
    next (if s.pkg = 3 ∧ s.power.phase = .rest then s.enterHoldup 0 0
      else if s.pkg = 2 ∧ s.stopped = false then s.downFrom 1
      else s)

/-- RETRY (R378). -/
def execRetry (s : State) : Host.Outcome State Fault Refusal :=
  if s.pkg = 5 ∧ s.power.phase = .rest then next s.startWaking else next s

/-- HANDOVER (R378, R436): over the sideband, or from a function through GLB_CTRL, which the management function alone writes. -/
def execHandover (fn : Option Nat) (s : State) : Host.Outcome State Fault Refusal :=
  let may : Bool := match fn with | none => true | some f => s.isMgmt f
  if may = true ∧ s.pkg = 3 ∧ s.power.phase = .rest then next (s.enterHoldup 2 0) else next s

/-- A sideband block read of 4 bytes (R378); there is none in OFF. -/
def State.smbRead (s : State) (v : Nat) : State := if s.power.phase = .off then s else { s with lastRead := BitVec.ofNat 64 v }

/-- SMB_READ_PWR_STATUS (R378). -/
def execSmbReadPwrStatus (s : State) : Host.Outcome State Fault Refusal := next (s.smbRead (s.reg 0x10000).toNat)
/-- SMB_READ_PWR_FAIL (R378). -/
def execSmbReadPwrFail (s : State) : Host.Outcome State Fault Refusal := next (s.smbRead (s.reg 0x10004).toNat)
/-- SMB_READ_PWR_RAILS (R378). -/
def execSmbReadPwrRails (s : State) : Host.Outcome State Fault Refusal := next (s.smbRead (s.reg 0x10008).toNat)
/-- SMB_READ_PWR_BOOT (R378). -/
def execSmbReadPwrBoot (s : State) : Host.Outcome State Fault Refusal := next (s.smbRead (s.reg 0x1000C).toNat)
/-- SMB_READ_INCARNATION (R378): INCARNATION in bits [15:0]. -/
def execSmbReadIncarnation (s : State) : Host.Outcome State Fault Refusal := next (s.smbRead s.incarnation)

/-! ### REG_CHECK and power-down (R365 to R368) -/

/-- A load, touch-up or rotation loses VPROG: programming stops, loads in progress complete with DEVICE_FAULT (R367). -/
def State.vprogFail (s : State) : State :=
  let s := s.stopProgramming
  let s := (s.loads.filter (fun p => !p.2.done)).foldl (fun s p => s.endLoad p.1 stDeviceFault) s
  s.recordFail 0x5207

/-- VPROG_PG_TIMEOUT (R367): 25 ms after EN_PROG. -/
def execVprogPgTimeout (s : State) : Host.Outcome State Fault Refusal :=
  match s.vprogAt with
  | some t => if s.railEn 7 && !(s.railPg 7) then next (s.at (t + ms 25)).vprogFail else next s
  | none => next s

/-- POWER_GOOD_RISE (R365): a rail that is enabled becomes good; the one awaited settles. -/
def execPowerGoodRise (r : Nat) (s : State) : Host.Outcome State Fault Refusal :=
  if r = 0 ∨ 7 < r ∨ s.railEn r = false ∨ s.railPg r then next s
  else
    let s := s.setRbit 0x10008 (8 + r) true
    next (if s.power.phase = .rail r then s.phaseTo (.settle r) else s)

/-- RAIL_SETTLE_DELAY (R365): 100 µs after the rail is good. -/
def execRailSettleDelay (s : State) : Host.Outcome State Fault Refusal :=
  match s.power.phase with
  | .settle r => next ((s.at (s.power.since + us 100)).nextRail r)
  | _ => next s

/-- RAIL_PG_TIMEOUT (R365, R375): 25 ms after the rail was enabled. -/
def execRailPgTimeout (s : State) : Host.Outcome State Fault Refusal :=
  match s.power.phase with
  | .rail r => next ((s.at (s.power.since + ms 25)).failStep (failCode 1 1 r) r)
  | _ => next s

/-- POWER_GOOD_FALL (R365, R367, R368, R386). VPROG stops programming; in RUN any other rail enters HOLDUP with cause 1; in WAKING
REG_CHECK fails, from a later step too; in a hand-over the package is to end in HALTED. -/
def execPowerGoodFall (r : Nat) (s : State) : Host.Outcome State Fault Refusal :=
  if r = 0 ∨ 7 < r ∨ s.railPg r = false then next s
  else
    let s := s.setRbit 0x10008 (8 + r) false
    if r = 7 then next (if s.railEn 7 then s.vprogFail else s)
    else match s.power.phase with
      | .handover => next { s with power := { s.power with railLost := true } }
      | .rest =>
        if s.pkg = 3 then next ((s.recordFail (failCode 5 2 r)).enterHoldup 1 r) else next s
      | .down _ _ => next s
      | .holdWait => next s
      | _ =>
        if s.pkg = 2 ∧ s.railEn r then
          let s := if s.wakeStep = 1 then s else s.setStep 1 0
          next (s.failStep (failCode 1 2 r) r)
        else next s

/-- RAIL_OFF_TIMEOUT (R366): the rail's power-good has fallen, or 5 ms have passed; the next rail goes down. MAIN_OK high in STANDBY
starts WAKING. -/
def execRailOffTimeout (s : State) : Host.Outcome State Fault Refusal :=
  match s.power.phase with
  | .down r st =>
    let s := (if s.railPg r then s.at (s.power.since + ms 5) else s).downFrom st
    next (if s.power.phase = .rest ∧ s.pkg = 1 ∧ s.mainOk then s.startWaking else s)
  | _ => next s

/-! ### OSC_CHECK (R370) -/

/-- CRYSTAL_EDGE_TIMEOUT (R370, R375). -/
def execCrystalEdgeTimeout (s : State) : Host.Outcome State Fault Refusal :=
  if s.power.phase = .osc ∧ s.xtalOk = false then next ((s.at (s.power.since + ms 1)).failStep (failCode 2 1 0) 0) else next s

/-- PLLs of R369 that have an index. -/
def pllCount : Nat := 29

/-- A host port whose PERST# is deasserted trains once OSC_CHECK has ended (R379); a border die out of service has no port. -/
def State.trainPort (s : State) (p : Nat) : State :=
  match s.power.perst.getD p none with
  | some (speed, width, cxl) =>
    if s.tbStart.isNone || s.borderOut p then s
    else
      let s := (s.setRfld 0x50108 (16 * p + 2) (16 * p) speed).setRfld 0x50108 (16 * p + 7) (16 * p + 3) width
      if p = 0 then s.setRbit 0x50108 8 cxl else s
  | none => s

/-- PLL_LOCKED (R370, R377, R379): every PLL has locked; the time base starts at 0, VDD_CORE goes to V_HI, records that waited are
written, host ports out of PERST# train, and BIST begins. -/
def execPllLocked (s : State) : Host.Outcome State Fault Refusal :=
  if s.power.phase = .osc ∧ s.xtalOk then
    let s := { s.setRfld 0x20000 28 0 (2 ^ pllCount - 1) with tbStart := some s.now }
    let s := ((s.setCoreMv vHiMv).setReg 0x20010 0#32).writeDeferred
    next ((((s.trainPort 0).trainPort 1).setStep 3 0).phaseTo .bist)
  else next s

/-- PLL_LOCK_TIMEOUT (R370, R375): `locked` has bit i set for each PLL that has locked. -/
def execPllLockTimeout (locked : Nat) (s : State) : Host.Outcome State Fault Refusal :=
  match (List.range pllCount).find? (fun i => !(locked.testBit i)) with
  | some i =>
    if s.power.phase = .osc then
      next (((s.at (s.power.since + ms 2)).setRfld 0x20000 28 0 locked).failStep (failCode 2 2 i) 0)
    else next s
  | none => next s

/-- PERST_DEASSERT (R379): of a host port, with what its link then trains to (HOST_LINK's speed and width codes, CXL). -/
def execPerstDeassert (port speed width : Nat) (cxl : Bool) (s : State) : Host.Outcome State Fault Refusal :=
  let p := port % 2
  next ({ s with power := { s.power with perst := s.power.perst.set p (some (speed, width, cxl)) } }.trainPort p)

/-! ### BIST, SURVEY_BASELINE and READY (R374, R375, R380, R414) -/

/-- Galleries whose arrays are all RETIRED: retired for good (R418). -/
def State.deadGallery (s : State) (k : Nat) : Bool := (List.range 32).all (fun a => decide (wearState (s.wear (arrKey k a)) = 2))

/-- Stacks that train and are not pending retirement (R346). -/
def State.goodStacks (s : State) (f : Bist) : List Nat := (List.range 8).filter (fun n => f.hbmStacks.contains n && !(s.retirePending.contains (144 + n)))

/-- The failure of R375 that the findings of BIST give, if any. -/
def State.bistFails (s : State) (f : Bist) : Option Nat :=
  let sps := ((List.range 32).filter (fun i => f.sps.getLsbD i)).length
  if !f.core then some (failCode 3 1 0)
  else if !(f.borders.contains 0) && !(f.borders.contains 1) then some (failCode 3 2 0)
  else if !((s.goodStacks f).any (fun h => (List.range 512).any (fun g => !(f.galleries.contains (galKey h g))))) then some (failCode 3 3 0)
  else if sps < 2 then some (failCode 3 4 sps)
  else if !(f.mps.contains 0) && !(f.mps.contains 1) then some (failCode 3 5 0)
  else none

/-- A LOOPBACK failure: the converter is dead and its array RETIRED (R184, R414). -/
def State.deadConverter (s : State) (p : Nat × Nat) : State :=
  let w := s.wear p.1
  s.setWear p.1 (setFld (setFld w (80 + p.2 % 16) (80 + p.2 % 16) 1) 31 30 2)

/-- First byte of the scan store (R410). -/
def scanStore : Nat := 0x5FC00000

/-- Is the scan image good (R410): MAGIC, VERSION, STEPPING, UNITS, LENGTH and both CRCs? -/
def scanImageOk (bs : List Byte) : Bool :=
  let num := fun i n => leNat ((bs.drop i).take n)
  let len := num 16 4
  decide (bs.take 8 = [0x4E#8, 0x5A#8, 0x53#8, 0x43#8, 0x41#8, 0x4E#8, 0x30#8, 0x31#8]) && decide (num 8 2 = 1) && decide (num 10 2 = 0xA0) &&
  decide (num 12 4 = 96000) && decide (len ≤ 4194240) && decide (64 + len ≤ bs.length) &&
  decide ((crc32c ((bs.drop 64).take len)).toNat = num 56 4) && decide ((crc32c (bs.take 60)).toNat = num 60 4)

/-- BIST_DONE (R375, R380, R410, R414): a good scan image is in the scan store. -/
def execBistDone (found : Bist) (s : State) : Host.Outcome State Fault Refusal :=
  if s.power.phase = .bist then
    match s.bistFails found with
    | some code => next (s.failStep code 0)
    | none =>
      let s := found.deadConvs.foldl State.deadConverter s
      let s := if scanImageOk found.scanImage then s.writeBytes scanStore (found.scanImage.take (2 ^ 22)) else s
      next (({ s with power := { s.power with found := found } }.setStep 4 0).phaseTo .baseline)
  else next s

/-- WAKE_STEP_TIMEOUT (R374, R375): BIST after 2 s, SURVEY_BASELINE after 20 ms. -/
def execWakeStepTimeout (s : State) : Host.Outcome State Fault Refusal :=
  match s.power.phase with
  | .bist => next ((s.at (s.power.since + sec 2)).failStep (failCode 3 6 0) 0)
  | .baseline => next ((s.at (s.power.since + ms 20)).failStep (failCode 4 6 0) 0)
  | _ => next s

/-- WAKE_RETRY_DELAY (R376): the 10 ms end and the step is tried again. -/
def execWakeRetryDelay (s : State) : Host.Outcome State Fault Refusal :=
  match s.power.phase with
  | .retry step r =>
    let s := (s.at (s.power.since + ms 10)).setStep step (s.attempt + 1)
    if step = 1 then next (s.enableRail r) else next (s.phaseTo .osc)
  | _ => next s

/-- Bit mask of a list of unit numbers. -/
def maskOf (ns : List Nat) : Nat := (ns.eraseDups.map (2 ^ ·)).sum

/-- Galleries out of service: they failed, they are dead, or their hall is left out with all of its own (R380). -/
def State.failedGalleries (s : State) (f : Bist) : List Nat := (List.range 4096).filter (fun k => f.galleries.contains k || s.deadGallery k)
def wholeHalls (ks : List Nat) : List Nat := (List.range 8).filter (fun h => (List.range 512).all (fun g => ks.contains (galKey h g)))

/-- A DDR5 channel that may train: one of sixteen, with one or two like modules of a supported capacity in GiB (R4, R336, R337). -/
def supportedChannel (c : Nat × Nat) : Bool := decide (c.1 < 16) && [16, 24, 32, 48, 64].any (fun m => decide (c.2 = m * gib ∨ c.2 = 2 * m * gib))

/-- What is left out of service (R334, R336, R346, R380): galleries, halls with their stacks, stacks, channels, drives and border
dies with their ports; MGMT_PORT names the surviving border die. -/
def State.leaveOut (s : State) (f : Bist) : State :=
  let ks := s.failedGalleries f
  let halls := wholeHalls ks
  let s := ks.foldl (fun s k => s.modGal k (fun g => { g with retired := true })) s
  let chans := sortBy (fun a b => decide (a.1 ≤ b.1)) (f.channels.filter (fun c => supportedChannel c && !(s.retirePending.contains (160 + c.1)) && f.borders.contains (c.1 / 8)))
  let s := { s with
    hbmStacks := (s.goodStacks f).filter (fun n => !(halls.contains n)), t1Channels := chans.map Prod.fst, t1ChannelBytes := ((chans.map Prod.snd).min?).getD 0
    drives := f.drives.filter (fun p => f.borders.contains (p / 4)), drivesRetired := f.drivesOut
    power := { s.power with found := f, hallsOut := halls } }
  let port := s.rfld 0x50100 0 0
  if f.borders.contains port then s else { s.setRfld 0x50100 0 0 (1 - port) with mgmtPort := 1 - port }

/-- DETAIL of BOOT_DEGRADED (R380); 0 when nothing is left out. -/
def State.degraded (s : State) : Nat :=
  let f := s.power.found
  let gone := (s.galleries.filter (fun p => p.2.retired)).length
  let stacksOut := (List.range 8).filter (fun n => !(s.hbmStacks.contains n))
  let chansOut := f.channelsOut ++ (f.channels.map Prod.fst).filter (fun c => !(s.t1Channels.contains c))
  let drivesOut := f.drivesOut ++ f.drives.filter (fun p => !(s.drives.contains p))
  maskOf s.power.hallsOut % 2 ^ 8 + (maskOf stacksOut % 2 ^ 8) * 2 ^ 8 + (maskOf chansOut % 2 ^ 16) * 2 ^ 16 + (gone % 2 ^ 13) * 2 ^ 32 +
  ((List.range 32).filter (fun i => !(f.sps.getLsbD i))).length * 2 ^ 45 + b2n (!(f.mps.contains 0 && f.mps.contains 1)) * 2 ^ 51 +
  (maskOf drivesOut % 2 ^ 8) * 2 ^ 52 + (maskOf ([0, 1].filter (fun b => !(f.borders.contains b))) % 4) * 2 ^ 60

/-- Links of the border dies in service start training (R347). -/
def State.startLinks (s : State) : State :=
  ((List.range linkCount).filter (fun l => s.power.found.borders.contains (l / 48))).foldl (fun s l => s.modLnk l (fun k => { k with state := 1, trainAt := s.now })) s

/-- READY (R374, R380, R403, R423): the boot event is kept for the event rings, the package enters RUN. -/
def State.becomeReady (s : State) : State :=
  let f := s.power.found
  let det := s.degraded
  let bootUs := (s.now - s.power.aonAt) / us 1 % 2 ^ 32
  let (bs, s) := if det = 0 then s.keepEvent evBootReady (bootUs + (min s.power.retries 255) * 2 ^ 32) else s.keepEvent evBootDegraded det
  let s := (((s.setPkg 3).setStep 0 0).setReg 0x10 (BitVec.ofNat 32 (1 + 2 * b2n (decide (det ≠ 0))))).setReg 0x1000C (BitVec.ofNat 32 bootUs)
  let s := (s.setReg 0x10010 (BitVec.ofNat 32 det)).setReg 0x10014 (BitVec.ofNat 32 (det / 2 ^ 32))
  let mp := if f.mps.contains 0 then 0 else 1
  let s := (s.setReg 0xA0004 f.sps).setReg 0xA0000 (BitVec.ofNat 32 (b2n (scanImageOk f.scanImage) + mp * 2 + b2n (f.mps.contains 0 && f.mps.contains 1) * 4))
  let s := if s.power.wasShut then s.setRbit 0x40000 17 true else s
  let s := (s.setRfld 0x20004 31 16 0).startLinks
  { s with
    boot := s.power.exits ++ [bs], bootGiven := [], snap := none, lastEpoch := 0, retirePending := [], lastWear := s.now, lastMargin := s.now
    lastBeat := s.now, advertAt := s.now, mpBeat := s.now
    power := { s.power with phase := .rest, since := s.now, exits := [], wasShut := false, ready := some s.now } }

/-- Units of the baseline on the 32 arrays of a gallery: 64 ZERO and 64 of each of LADDER A and LADDER B on each (R190, R199). -/
def baselineUnits : Nat := 32 * (64 + 2 * 64)

/-- SURVEY_BASELINE_DONE (R199, R374, R380): every gallery has run its baseline units, which commit nothing; `failed` galleries fail. -/
def execSurveyBaselineDone (failed : List Nat) (s : State) : Host.Outcome State Fault Refusal :=
  if s.power.phase = .baseline then
    let f := s.power.found
    let s := ((List.range 4096).filter (fun k => !(s.power.hallsOut.contains (k / 512)))).foldl (fun s k => s.bump (galReg k 0x8C) baselineUnits) s
    next (s.leaveOut { f with galleries := f.galleries ++ failed }).becomeReady
  else next s

/-! ### Clocks (R371 to R373) -/

/-- Does the condition of R275 hold: every live context is in the Economy profile? -/
def State.economy (s : State) : Bool :=
  let live := (s.contexts.filter (fun p => p.2.live)).map Prod.fst
  !live.isEmpty && live.all (fun c => decide (s.rfld (0xA6100 + 4 * c) 1 0 = 3))

/-- CORE_CLOCK_CHANGE (R275, R372): the management processor brings the clock and VDD_CORE to what the profiles ask. -/
def execCoreClockChange (s : State) : Host.Outcome State Fault Refusal :=
  let slow := s.economy
  if s.pkg = 3 ∧ slow ≠ s.coreSlow then
    let s := (s.setRbit 0x20000 29 slow).setCoreMv (if slow then vLoMv else vHiMv)
    next { s.setRfld 0x20004 31 16 (s.rfld 0x20004 31 16 + 1) with coreSlow := slow }
  else next s

/-- TIMEBASE_TICK (R371): `diffs` are the differences of the dies' copies in ns; each is corrected by at most 2. -/
def execTimebaseTick (diffs : List Int) (s : State) : Host.Outcome State Fault Refusal :=
  if s.tbStart.isNone then next s
  else next { s.setRfld 0x20010 7 0 (diffs.foldl (fun m d => max m (min 2 d.natAbs)) (s.rfld 0x20010 7 0)) with
    tbDiffs := diffs.map (fun d => d - clampI (-2) 2 d) }

/-- HALL_PLL_RELOCK (R373): the converter PLL of a hall that left QUIET has relocked. -/
def execHallPllRelock (h : Nat) (s : State) : Host.Outcome State Fault Refusal :=
  next { s with power := { s.power with relock := s.power.relock.filter (fun x => decide (x ≠ h)) } }

end Sys2Proof.Machine
end

