-- ==== Sys2Proof/Machine/Telemetry.lean ====
section
/-! DEFINITION. The commands of the telemetry converters and of the thermal model (R388 to R404). The model's own choices: log 40
telemetry and thermal (DEDUCED, DESIGN CHOICE). -/

namespace Sys2Proof.Machine

/-! ### Conversions (R390 to R393) -/

/-- A conversion's result: its calibrated code, the gain index used, is it valid, and if not the REASON (R393, R405). -/
structure ConvResult where
  code : Int
  gain : Nat
  valid : Bool
  reason : Nat
  deriving DecidableEq, Repr

/-- Does the converter pick the gain of a channel (R393)? -/
def State.autoranged (s : State) (d k ch : Nat) : Bool := chanSigned ch && bit (s.reg (tmonReg d k 0xC)) ch

/-- Conversions of one channel between two changes of its gain (R393). -/
def gainHold : Nat := 8

/-- Gain index after a valid result (R393). -/
def nextGain (g : Nat) (c : Int) : Nat := if c.natAbs < 384 then min 3 (g + 1) else if 1984 ≤ c.natAbs then g - 1 else g

/-- One conversion of a channel at a gain index (autorange picks its own) with the raw code it gives (R390 to R393). -/
def State.convert (s : State) (d k ch g : Nat) (raw : Int) : ConvResult × State :=
  let t := s.tmon d k
  let auto := s.autoranged d k ch
  let g := if auto then Tab.get 0 t.gains ch else if chanSigned ch then g else 0
  let n := if t.last = some (ch, g) then t.settled else 0
  let here := chanPresent d ch
  let ready := bit (s.reg (tmonReg d k 0)) 1
  let valid := here && ready && decide (2 ≤ n)
  let code := if here then s.calibrate d k ch g raw else 0
  let cnt := min gainHold (Tab.get gainHold t.since ch + 1)
  let g' := if auto && valid && decide (gainHold ≤ cnt) then nextGain g code else g
  let t := { t with last := some (ch, g), settled := min 2 (n + 1) }
  let t := if auto then { t with gains := Tab.set 0 t.gains ch g', since := Tab.set gainHold t.since ch (if g' = g then cnt else 0) } else t
  ({ code := code, gain := g, valid := valid, reason := if !here then 2 else if !ready then 1 else 0 },
   (s.setTmon d k t).bump (tmonReg d k 0x28) 1)

/-- A run of conversions of one channel. -/
def State.converts (s : State) (d k ch g : Nat) (raws : List Int) : List ConvResult × State :=
  raws.foldl (fun (rs, s) raw => let (r, s) := s.convert d k ch g raw; (rs ++ [r], s)) ([], s)

/-- DATA of TMON_RESULT (R390). -/
def convData (left : Bool) (code : Int) : Nat := if left then unsigned 12 code * 16 else unsigned 16 code

/-- TMON_RESULT after a software or urgent conversion (R405). -/
def State.writeResult (s : State) (d k ch : Nat) (r : ConvResult) : State :=
  s.setReg (tmonReg d k 8) (BitVec.ofNat 32 (convData (bit (s.reg (tmonReg d k 0)) 2) r.code + (ch % 32) * 2 ^ 16 + (r.gain % 4) * 2 ^ 21 +
    b2n (chanSigned ch) * 2 ^ 23 + b2n (!r.valid) * 2 ^ 24 + (if r.valid then 0 else r.reason) * 2 ^ 25 + 2 ^ 27))

/-! ### Requests (R391, R392) -/

/-- May a converter register be written: by a management processor, or by the management function (R405)? -/
def State.mayTmon (s : State) (fn : Option Nat) : Bool := match fn with | none => true | some f => s.isMgmt f

def converterOk (d k : Nat) : Bool := decide (d < logicDies) && decide (k < 2)

/-- A request joins the converter: an urgent one ahead of the others, aborting the conversion that runs (R392). A converter that was
powered down starts after 1.5 µs; a conversion takes 1 µs (R391). -/
def State.request (s : State) (d k : Nat) (q : ConvReq) (running : Bool) : State :=
  let t := s.tmon d k
  let urgents := t.queue.filter ConvReq.urgent
  let rest := t.queue.filter (fun x => !x.urgent)
  let aborts := q.urgent && urgents.isEmpty && (running || !t.queue.isEmpty)
  let due := if aborts then s.now + us 1 else if t.queue.isEmpty then s.now + us 1 + ns 1500 else t.due
  let s := s.setTmon d k { t with queue := if q.urgent then urgents ++ [q] ++ rest else t.queue ++ [q], due := due }
  if aborts then s.bump (tmonReg d k 0x2C) 1 else s

/-- TMON_REQUEST (R392, R405): `v` is written to TMON_REQ, with GO and without URGENT. -/
def execTmonRequest (fn : Option Nat) (d k v : Nat) (s : State) : Host.Outcome State Fault Refusal :=
  if s.mayTmon fn && converterOk d k then
    let s := s.setReg (tmonReg d k 4) (BitVec.ofNat 32 (v % 128))
    next (if s.diePowered d then s.request d k { ch := v % 32, gain := v / 32 % 4, urgent := false } false else s)
  else next s

/-- TMON_URGENT_REQUEST (R392, R405): with GO and URGENT; `running`: a conversion of the scan, of the cross-check or of a calibration
runs. -/
def execTmonUrgentRequest (fn : Option Nat) (d k v : Nat) (running : Bool) (s : State) : Host.Outcome State Fault Refusal :=
  if s.mayTmon fn && converterOk d k then
    let s := s.setReg (tmonReg d k 4) (BitVec.ofNat 32 (v % 128))
    next (if s.diePowered d then s.request d k { ch := v % 32, gain := v / 32 % 4, urgent := true } running else s)
  else next s

/-- VR_ALERT (R392): every powered converter with TMON_URGENT.EN raises its urgent request; `running` as above, by 2 · die +
converter. -/
def execVrAlert (running : List Nat) (s : State) : Host.Outcome State Fault Refusal :=
  next ((List.range (2 * logicDies)).foldl (fun s i =>
    let w := s.reg (tmonReg (i / 2) (i % 2) 0x30)
    if bit w 7 && s.diePowered (i / 2) then
      s.request (i / 2) (i % 2) { ch := fld w 4 0, gain := fld w 6 5, urgent := true } (running.contains i)
    else s) s)

/-- Does the test engine run on a converter (R416)? -/
def State.testTmon (s : State) (d k : Nat) : Bool :=
  match s.test with
  | some t => decide (t.test = 7 ∧ t.target % 16 = d ∧ t.target / 16 % 2 = k)
  | none => false

/-- TMON_CONVERSION_DONE (R390 to R393): the conversion at the head of the queue ends with this raw code; the next one follows. While a
calibration or a test runs, software requests wait (R395, R416). -/
def execTmonConversionDone (d k : Nat) (raw : Int) (s : State) : Host.Outcome State Fault Refusal :=
  let t := s.tmon d k
  match t.queue with
  | [] => next s
  | q :: rest =>
    if !(s.diePowered d) || ((t.cal.isSome || s.testTmon d k) && !q.urgent) then next s
    else
      let s := (s.at t.due).setTmon d k { t with queue := rest, due := max s.now t.due + us 1 }
      let (r, s) := s.convert d k q.ch q.gain raw
      next (s.writeResult d k q.ch r)

/-- TMON_REF_ENABLE (R391): the management function writes REF_EN. -/
def execTmonRefEnable (fn d k : Nat) (s : State) : Host.Outcome State Fault Refusal :=
  if s.isMgmt fn && converterOk d k && s.diePowered d then next (s.refOn d k) else next s

/-- TMON_REF_READY (R391): 100 µs after the buffer was switched on. -/
def execTmonRefReady (d k : Nat) (s : State) : Host.Outcome State Fault Refusal :=
  match (s.tmon d k).refOn with
  | none => next s
  | some t => next ((s.at (t + us 100)).setRbit (tmonReg d k 0) 1 true)

/-! ### Calibration (R395) -/

/-- A calibration command starts: BUSY for 64 µs; one written while BUSY is ignored. -/
def State.startCal (s : State) (fn d k op : Nat) (g : Option Nat) (raws : List Int) : State :=
  if s.isMgmt fn && converterOk d k && s.diePowered d && (s.tmon d k).cal.isNone then
    let o := tmonReg d k 0x20
    let s := match g with | some g => s.setRfld o 3 2 g | none => s
    (s.setRbit o 4 true).modTmon d k (fun t => { t with cal := some (op, s.rfld o 3 2), calAt := s.now, raws := raws })
  else s

/-- ZERO (R395): `raws` are the raw codes of the 64 conversions of channel 26 at gain index `g`. -/
def execZero (fn d k g : Nat) (raws : List Int) (s : State) : Host.Outcome State Fault Refusal := next (s.startCal fn d k 1 (some g) raws)
/-- FULL (R395). -/
def execFull (fn d k g : Nat) (raws : List Int) (s : State) : Host.Outcome State Fault Refusal := next (s.startCal fn d k 2 (some g) raws)
/-- SAVE (R395). -/
def execSave (fn d k : Nat) (s : State) : Host.Outcome State Fault Refusal := next (s.startCal fn d k 3 none [])

/-- Mean of raw codes in 1/16 LSB. -/
def calMean (raws : List Int) : Int := rhe (16 * isum raws) raws.length

/-- GAIN that a full-scale mean gives against an offset; none where the input lies on the wrong side (R395). -/
def calGain (m offs : Int) : Option Int := if offs < m then some (rhe (2 ^ 14 * 30720) (m - offs).toNat) else none

/-- The four pairs of a converter go to the NV log (R395). -/
def State.saveCal (s : State) (d k : Nat) : State :=
  (List.range 4).foldl (fun s g => s.nvWrite (calOffset d k g) (natLE 4 (s.reg (tmonReg d k (0x10 + 4 * g))).toNat)) s

/-- TMON_CAL_DONE (R395): the 64 µs end, and the command takes effect. -/
def execTmonCalDone (d k : Nat) (s : State) : Host.Outcome State Fault Refusal :=
  let t := s.tmon d k
  match t.cal with
  | none => next s
  | some (op, g) =>
    let s := (s.at (t.calAt + us 64)).setRbit (tmonReg d k 0x20) 4 false
    let s := (s.setTmon d k { t with cal := none, raws := [], due := max t.due (s.now + us 1) }).bump (tmonReg d k 0x28) t.raws.length
    let reg := tmonReg d k (0x10 + 4 * g)
    if op = 1 then next (s.modTmon d k (fun t' => { t' with offs := Tab.put t'.offs g (calMean t.raws) }))
    else if op = 2 then
      let offs := (Tab.find t.offs g).getD (signed 16 (s.rfld reg 15 0))
      match calGain (calMean t.raws) offs with
      | some x =>
        if 12288 ≤ x ∧ x ≤ 20480 then next (s.setReg reg (BitVec.ofNat 32 (unsigned 16 offs + x.toNat * 2 ^ 16)))
        else next (s.setRbit (tmonReg d k 0x20) 5 true)
      | none => next (s.setRbit (tmonReg d k 0x20) 5 true)
    else next (s.saveCal d k)

/-! ### The scan (R396) -/

/-- Raw codes that a converter gives in a scan or a check. -/
def codesOf (codes : List (Nat × Nat × List Int)) (d k : Nat) : List Int := ((codes.find? (fun c => decide (c.1 = d ∧ c.2.1 = k))).map (fun c => c.2.2)).getD []

/-- Mean of rationals. -/
def meanRat (xs : List Rat) : Rat := xs.sum / (xs.length : Rat)

/-- Shunt resistance of a rail on a die (R406). -/
def shunt (d r : Nat) : Rat := F32.toRat (Config.thermParam (116 + 8 * d + r))

/-- What one rail gives in a scan: mean voltage times mean current in W, and do its currents straddle gains (R393, R396)? -/
def railProduct (d r : Nat) (vs cs : List ConvResult) : Option (Rat × Bool) :=
  let vs := vs.filter ConvResult.valid
  let cs := cs.filter ConvResult.valid
  if vs.isEmpty || cs.isEmpty then none
  else
    let v := meanRat (vs.map (fun x => (x.code : Rat) * (12 / 10) / 4096 * (5 / 2)))
    let i := meanRat (cs.map (fun x => (x.code : Rat) * (12 / 10) / 2048 / ((4 ^ x.gain : Nat) : Rat))) / shunt d r
    some (v * i, decide (1 < (cs.map ConvResult.gain).eraseDups.length))

/-- The scan of one rail by one converter: 4 voltage conversions, 8 current conversions. -/
def State.scanRail (s : State) (d k r : Nat) (raws : List Int) : Option (Rat × Bool) × State :=
  let (vs, s) := s.converts d k (8 + r) 0 (raws.take 4)
  let (cs, s) := s.converts d k r 0 ((raws.drop 4).take 8)
  (railProduct d r vs cs, s)

/-- The scan of a converter: the products of its rails, and on the correction die the mean code of the inlet. -/
def State.scanConverter (s : State) (d k : Nat) (raws : List Int) : List (Nat × Rat × Bool) × Option Rat × State :=
  let s := s.modTmon d k (fun t => { t with last := none })
  let (ps, raws, s) := (railsOf d).foldl (fun (ps, raws, s) r =>
    let (p, s) := s.scanRail d k r (raws.take 12)
    ((match p with | some (x, b) => ps ++ [(r, x, b)] | none => ps), raws.drop 12, s)) (([] : List (Nat × Rat × Bool)), raws, s)
  if d = 8 then
    let (rs, s) := s.converts d k 16 0 (raws.take 4)
    let rs := rs.filter ConvResult.valid
    (ps, if rs.isEmpty then none else some (meanRat (rs.map (fun x => (x.code : Rat)))), s)
  else (ps, none, s)

/-- Inlet temperature in °C of a mean code; none outside 0 to 100 °C (R396). -/
def inletTemp (c : Rat) : Option Rat :=
  if c ≤ 0 ∨ 4096 ≤ c then none
  else
    let inv : Rat := 100 / 29815 + lnRat (c / (4096 - c)) / 3435
    if inv ≤ 0 then none
    else
      let t := 1 / inv - 27315 / 100
      if t < 0 ∨ 100 < t then none else some t

def maxRat (a b : Rat) : Rat := if a < b then b else a

/-- Larger of two readings where both are there. -/
def largerOf (a b : Option Rat) : Option Rat :=
  match a, b with
  | some x, some y => some (maxRat x y)
  | some x, none => some x
  | none, y => y

/-- Latest product of a rail: the larger of the converters' (R396). -/
def Thermal.railPower (t : Thermal) (d r : Nat) : Rat := (largerOf (Tab.find t.rails (16 * d + r)) (Tab.find t.rails (16 * d + 8 + r))).getD 0

/-- P_d (R396): a hall's rail 4 is its stack's power, and no part of the hall's own. -/
def State.diePower (s : State) (d : Nat) : Rat :=
  let t := s.thermal
  if d < logicDies then
    if s.diePowered d then (((railsOf d).filter (fun r => !(decide (d < 8 ∧ r = 4)))).map (t.railPower d)).sum else 0
  else if s.diePowered (d - logicDies) then t.railPower (d - logicDies) 4 else 0

/-- THERM_POWER of a die (R406). -/
def State.writePower (s : State) (d : Nat) (straddle : Bool) : State :=
  let p := clampI 0 65535 (ratRhe (10 * s.diePower d))
  s.setReg (0x40220 + 4 * d) (BitVec.ofNat 32 (p.toNat + b2n straddle * 2 ^ 16))

/-- INLET_MAX in °C (R406). -/
def State.inletMax (s : State) : Rat := (signed 16 (s.rfld 0x40008 31 16) : Rat) / 4

/-- Inlet temperature in use (R396). -/
def State.inletInUse (s : State) : F32 :=
  match s.thermal.useMax, s.thermal.tIn with
  | false, some t => t
  | _, _ => F32.ofRat s.inletMax

def State.writeInlet (s : State) : State := s.setRfld 0x40008 15 0 (unsigned 16 (ratRhe (4 * F32.toRat s.inletInUse)))

/-- The inlet reading of a scan: the larger valid one of the two converters' (R396). -/
def State.takeInlet (s : State) (a b : Option Rat) : State :=
  match largerOf (a.bind inletTemp) (b.bind inletTemp) with
  | some x => ({ s with thermal := { s.thermal with tIn := some (F32.ofRat x), tValid := true, tAt := s.now, useMax := false } }.setRbit 0x40004 1 false).writeInlet
  | none => ({ s with thermal := { s.thermal with tValid := false } }.setRbit 0x40004 1 true).writeInlet

/-- Products of one converter's rails are kept; a rail without valid conversions keeps its previous one (R396). -/
def Thermal.keepRails (t : Thermal) (d k : Nat) (ps : List (Nat × Rat × Bool)) : Thermal :=
  { t with rails := ps.foldl (fun m p => Tab.put m (16 * d + 8 * k + p.1) p.2.1) t.rails }

/-- A die's scan: inlet codes, and the rails whose average straddles gains. -/
def State.scanDie (s : State) (codes : List (Nat × Nat × List Int)) (d : Nat) : List (Option Rat) × List Nat × State :=
  (List.range 2).foldl (fun (ins, strs, s) k =>
    let (ps, inlet, s) := s.scanConverter d k (codesOf codes d k)
    (ins ++ [inlet], strs ++ (ps.filter (fun p => p.2.2)).map Prod.fst, { s with thermal := s.thermal.keepRails d k ps }))
    (([] : List (Option Rat)), ([] : List Nat), s)

/-- A die that is off has no products and P_d = 0 (R396). -/
def Thermal.dropRails (t : Thermal) (d : Nat) : Thermal := { t with rails := t.rails.filter (fun p => decide (p.1 / 16 ≠ d)) }

/-- TMON_SCAN (R396): 100 µs after the previous scan; `codes` are the raw codes of each converter (die, converter), in the order of
its conversions. -/
def execTmonScan (codes : List (Nat × Nat × List Int)) (s : State) : Host.Outcome State Fault Refusal :=
  if s.power.phase = .off ∨ s.power.phase = .aonOn then next s
  else
    let s := s.at (s.thermal.lastScan + us 100)
    let s := { s with thermal := { s.thermal with lastScan := s.now } }
    let s := (List.range logicDies).foldl (fun s d =>
      if s.diePowered d then
        let (ins, strs, s) := s.scanDie codes d
        let s := s.writePower d (strs.any (fun r => !(decide (d < 8 ∧ r = 4))))
        let s := if d < 8 then s.writePower (logicDies + d) (strs.contains 4) else s
        if d = 8 then s.takeInlet (ins.getD 0 none) (ins.getD 1 none) else s
      else
        let s := { s with thermal := s.thermal.dropRails d }
        let s := s.writePower d false
        if d < 8 then s.writePower (logicDies + d) false else s) s
    next { s with thermal := { s.thermal with p := tabulate modelDies (fun d => F32.ofRat (s.diePower d)) } }

/-- INLET_HOLD_EXPIRY (R396): no valid reading for 1 s. -/
def execInletHoldExpiry (s : State) : Host.Outcome State Fault Refusal :=
  if s.thermal.tValid || s.thermal.useMax || s.thermal.tIn.isNone then next s
  else
    let s := s.at (s.thermal.tAt + sec 1)
    next { s with thermal := { s.thermal with useMax := true } }.writeInlet

/-! ### The cross-check (R394) -/

/-- The third conversion of channel 24 by a converter; none where it gave fewer than three codes. -/
def State.checkCode (s : State) (d k : Nat) (raws : List Int) : Option Int × State :=
  let s := s.modTmon d k (fun t => { t with last := none })
  let (rs, s) := s.converts d k 24 0 (raws.take 3)
  ((rs[2]?).map ConvResult.code, s)

/-- XCHK_BAD: a cross-check has failed, and none of that die has passed since. -/
def State.writeBad (s : State) : State := s.setRbit 0x40004 2 (!s.thermal.bad.isEmpty)

/-- A die's check passes. -/
def State.checkPass (s : State) (d : Nat) : State :=
  { s with thermal := { s.thermal with recheck := s.thermal.recheck.filter (fun x => decide (x ≠ d)), bad := s.thermal.bad.filter (fun x => decide (x ≠ d)) } }.writeBad

/-- A die's check fails: the first time it is to be repeated; the repeat counts, and raises the event unless the die has raised one
since its last passing check. -/
def State.checkFail (s : State) (d : Nat) (a b : Nat) : State :=
  if s.thermal.recheck.contains d then
    let s1 := (s.bump (tmonReg d 0 0x24) 1).bump (tmonReg d 1 0x24) 1
    let s1 := { s1 with thermal := { s1.thermal with recheck := s1.thermal.recheck.filter (fun x => decide (x ≠ d)) } }
    if s1.thermal.bad.contains d then s1
    else ({ s1 with thermal := { s1.thermal with bad := s1.thermal.bad ++ [d] } }.writeBad).raiseNv evTmonCrosscheckFail d (d + (a % 4096) * 2 ^ 4 + (b % 4096) * 2 ^ 16)
  else { s with thermal := { s.thermal with recheck := s.thermal.recheck ++ [d], checkAt := s.now } }

/-- Largest difference of a passing check, in LSB. -/
def checkLimit : Nat := 8

/-- The check of one die, when both converters give their codes. -/
def State.checkDie (s : State) (codes : List (Nat × Nat × List Int)) (d : Nat) : State :=
  let (a, s) := s.checkCode d 0 (codesOf codes d 0)
  let (b, s) := s.checkCode d 1 (codesOf codes d 1)
  match a, b with
  | some a, some b => if (a - b).natAbs ≤ checkLimit then s.checkPass d else s.checkFail d a.toNat b.toNat
  | _, _ => s

/-- TMON_CROSSCHECK (R394): every 10 ms; each converter's three raw codes of channel 24. -/
def execTmonCrosscheck (codes : List (Nat × Nat × List Int)) (s : State) : Host.Outcome State Fault Refusal :=
  if s.power.phase = .off ∨ s.power.phase = .aonOn then next s
  else
    let s := s.at (s.thermal.lastCheck + ms 10)
    let s := { s with thermal := { s.thermal with lastCheck := s.now, recheck := [] } }
    next (((List.range logicDies).filter s.diePowered).foldl (fun s d => s.checkDie codes d) s)

/-- CROSSCHECK_REPEAT (R394): 100 µs after a failing check. -/
def execCrosscheckRepeat (codes : List (Nat × Nat × List Int)) (s : State) : Host.Outcome State Fault Refusal :=
  if s.thermal.recheck.isEmpty then next s
  else
    let s := s.at (s.thermal.checkAt + us 100)
    next (s.thermal.recheck.foldl (fun s d => s.checkDie codes d) s)

/-- CROSSCHECK_NO_RESULT (R394): converter `k` of a die gives nothing for 10 µs; `other` is the raw code of the other one's third
conversion. Its code reads 0xFFF. -/
def execCrosscheckNoResult (d k : Nat) (other : Option Int) (s : State) : Host.Outcome State Fault Refusal :=
  if converterOk d k && s.diePowered d then
    let c := match other with | some raw => (s.calibrate d (1 - k) 24 0 raw).toNat | none => 0xFFF
    next (if k = 0 then s.checkFail d 0xFFF c else s.checkFail d c 0xFFF)
  else next s

/-! ### The thermal model (R397 to R399) -/

/-- A fused parameter (R406). -/
def therm (i : Nat) : F32 := Config.thermParam i
/-- dt of R398. -/
def thermDt : F32 := F32.ofRat (1 / 10000)

/-- One step of a node: `t + dt · q / c`. -/
def nodeStep (t q c : F32) : F32 := F32.add t (F32.div (F32.mul thermDt q) c)

/-- Heat flows of a die: junction to substrate, to lid, to package. -/
def Thermal.flows (t : Thermal) (d : Nat) : F32 × F32 × F32 :=
  (F32.div (F32.sub (t.node d 0) (t.node d 1)) (therm (6 * d)), F32.div (F32.sub (t.node d 1) (t.node d 2)) (therm (6 * d + 1)),
   F32.div (F32.sub (t.node d 2) t.tp) (therm (6 * d + 2)))

/-- `update` of R398: old node values throughout, dies ascending. -/
def Thermal.update (t : Thermal) (tIn : F32) : Thermal :=
  let qs := (List.range modelDies).map t.flows
  let f (g : Nat → F32 × F32 × F32 → F32) : List F32 := qs.zipIdx.map (fun q => g q.2 q.1)
  let qSum := qs.foldl (fun a q => F32.add a q.2.2) 0#32
  { t with
    tj := f (fun d q => nodeStep (t.node d 0) (F32.sub (t.p.getD d 0#32) q.1) (therm (6 * d + 3)))
    ts := f (fun d q => nodeStep (t.node d 1) (F32.sub q.1 q.2.1) (therm (6 * d + 4)))
    tl := f (fun d q => nodeStep (t.node d 2) (F32.sub q.2.1 q.2.2) (therm (6 * d + 5)))
    tp := nodeStep t.tp (F32.sub qSum (F32.div (F32.sub t.tp tIn) (therm 114))) (therm 115) }

/-- Every node starts at the inlet temperature in use (R398). -/
def Thermal.start (t : Thermal) (tIn : F32) : Thermal :=
  { t with started := true, tj := List.replicate modelDies tIn, ts := List.replicate modelDies tIn, tl := List.replicate modelDies tIn, tp := tIn }

/-- Has every powered die a power value, and is T_in valid (R399)? -/
def State.historyCounts (s : State) : Bool :=
  s.thermal.tValid && ((List.range logicDies).filter s.diePowered).all (fun d => (railsOf d).all (fun r =>
    (Tab.find s.thermal.rails (16 * d + r)).isSome || (Tab.find s.thermal.rails (16 * d + 8 + r)).isSome))

/-- Reported estimates go to their registers (R406). -/
def State.writeEstimates (s : State) : State :=
  let t := s.thermal
  let est := fun (d : Nat) => BitVec.ofNat 32 (unsigned 16 (t.report (t.node d 0)) + unsigned 16 (t.report (t.node d 2)) * 2 ^ 16)
  let s := (List.range modelDies).foldl (fun s d => s.setReg (if d < logicDies then 0x40100 + 4 * d else 0x40200 + 4 * (d - logicDies)) (est d)) s
  let (d, n, x) := t.hottest
  let s := (s.setReg 0x4000C (BitVec.ofNat 32 (unsigned 16 (t.report t.tp)))).setRbit 0x40004 0 t.historyOk
  ((s.setRfld 0x40004 7 3 d).setRfld 0x40004 9 8 n).setRfld 0x40004 25 10 (unsigned 16 x)

/-- AGE_EQ of every programmed array grows by 2^((T − 60) ÷ 10) per second (R203). -/
def State.ageArrays (s : State) : State :=
  let rates := (List.range 8).map (fun h => exp2Rat (((s.hallEst h : Rat) / 4 - 60) / 10) / 10000)
  { s with arrays := s.arrays.map (fun (i, a) => if a.record.isSome then (i, { a with ageEq := a.ageEq + rates.getD (i / 16384) 0 }) else (i, a)) }

/-! ### Throttle and shutdown (R401, R402) -/

/-- THROTTLE_C in units of 0.25 °C; above 95 °C it acts as 95 (R406). -/
def State.throttleAt (s : State) : Int := 4 * (min 95 (s.rfld 0x40000 7 0) : Nat)
def State.throttled (s : State) : Bool := bit (s.reg 0x40000) 16

/-- THERMAL_THROTTLE (R401). -/
def State.throttleEvent (s : State) (on : Bool) : State :=
  let (d, n, x) := s.thermal.hottest
  s.raiseNv evThermalThrottle 8 (b2n on + d * 2 + n * 2 ^ 6 + unsigned 16 x * 2 ^ 8)

/-- Test every estimate against THROTTLE_C (R401). -/
def State.testThrottle (s : State) : State :=
  let lim := s.throttleAt
  if s.throttled then
    let cool := s.thermal.estimates.all (fun e => decide (e.2.2 < lim - 20))
    { s with thermal := { s.thermal with coolSince := if cool then some (s.thermal.coolSince.getD s.now) else none } }
  else if lim ≤ s.thermal.hottest.2.2 then
    (((s.setRbit 0x40000 16 true).bump 0x40018 1).throttleEvent true) |> fun s => { s with thermal := { s.thermal with coolSince := none } }
  else s

/-- The estimate at which the device shuts down: 110 °C (R402). -/
def shutdownAt : Int := 440

/-- THERMAL_SHUTDOWN and the latch; RUN carries out the actions of R382 and powers down, WAKING is abandoned, HOLDUP ends first
(R402). -/
def State.testShutdown (s : State) : State :=
  let (d, n, x) := s.thermal.hottest
  if x < shutdownAt ∨ s.power.latch then s
  else
    let det := d + n * 2 ^ 5 + unsigned 16 x * 2 ^ 7 + s.rfld 0x40008 15 0 * 2 ^ 23
    let fire := fun (s : State) => { s.raiseNv evThermalShutdown 8 det with power := { s.power with latch := true } }
    if s.pkg = 4 then fire s
    else if s.pkg = 3 ∧ s.power.phase = .rest then ((fire s).setFail (0x5300 + d)).handOver 4
    else if s.pkg = 2 ∧ s.stopped = false then ((fire s).setFail (0x5300 + d)).downFrom 5
    else s

/-- THERMAL_MODEL_UPDATE (R203, R398 to R403): 100 µs after the previous update. -/
def execThermalModelUpdate (s : State) : Host.Outcome State Fault Refusal :=
  if s.power.phase = .off ∨ s.power.phase = .aonOn then next s
  else
    let s := s.at (s.thermal.lastUpdate + us 100)
    let tIn := s.inletInUse
    let t := if s.thermal.started then s.thermal else s.thermal.start tIn
    let t := { t.update tIn with lastUpdate := s.now, history := t.history + b2n s.historyCounts }
    let s := ({ s with thermal := t }.bump 0x4001C 1).writeEstimates.ageArrays
    let s := (List.range 8).foldl State.testWindow s
    let s := s.testThrottle.testShutdown
    next (if s.power.phase = .cooling then s.leaveHold else s)

/-- THROTTLE_EXIT (R401): every estimate below THROTTLE_C − 5 °C for 1 s. -/
def execThrottleExit (s : State) : Host.Outcome State Fault Refusal :=
  match s.throttled, s.thermal.coolSince with
  | true, some t =>
    let s := (s.at (t + sec 1)).setRbit 0x40000 16 false
    next (s.throttleEvent false)
  | _, _ => next s

end Sys2Proof.Machine
end

