-- ==== Sys2Proof/Machine/Faults.lean ====
section
/-! DEFINITION. Scan rotations, diagnosis and re-placement of suspect galleries, replays, the processors' watchdogs, and the test engine
(R407 to R425, R429). The model's own choices: log 41 faults and self-test (DEDUCED, DESIGN CHOICE); log 50 dead converters and requests
of the management processors (DEDUCED, DESIGN CHOICE). -/

namespace Sys2Proof.Machine

/-! ### Scan rotation (R411 to R413) -/

def scanUnits : Nat := 96000

/-- Partition of a scan unit (R411). -/
def scanPart (u : Nat) : Nat :=
  if u < 19200 then 0 else if u < 28800 then 1 else if u < 38400 then 2 else if u < 57600 then 3 else if u < 67200 then 4
  else if u < 86400 then 5 else 6

/-- Array that a unit of P5 or P6 tests. -/
def scanArray (u : Nat) : Nat := if u < 86400 then (u - 67200) / 600 else (u - 86400) / 300

/-- Is the unit's partition free for scan on the idle gallery (R411)? -/
def State.scanFree (s : State) (k u : Nat) : Bool :=
  let p := scanPart u
  if p = 3 then
    let g := s.gal k
    g.groups.isEmpty && g.inbox.isEmpty && g.closing.isNone && g.drainEnd.all (fun t => decide (t ≤ s.now))
  else if 5 ≤ p then
    let a := s.arr (arrKey k (scanArray u))
    a.job.isNone && decide (a.heldUntil ≤ s.now)
  else true

/-- First unit from `u` on that is free, among the next `fuel`. -/
def State.scanFind (s : State) (k : Nat) : Nat → Nat → Option Nat
  | 0, _ => none
  | fuel + 1, u => if s.scanFree k u then some u else s.scanFind k fuel (u + 1)

def State.scanNext (s : State) (k : Nat) : Nat := s.rfld (galReg k 0xD0) 16 0

/-- A rotation that began at `start` is complete (R411, R413). -/
def State.scanComplete (s : State) (k start : Nat) : State :=
  let o := galReg k 0xD0
  let s := (s.setRfld o 31 18 (s.rfld o 31 18 + 1)).setRbit o 17 false
  (s.modGal k (fun g => { g with scanLast := start })).bump 0xA0010 1

/-- A deferred unit has run; the last one left over completes its rotation. -/
def State.scanDeferred (s : State) (k u : Nat) : State :=
  let g := s.gal k
  let old := g.scanOld.erase u
  let s := s.setGal k { g with scanOld := old, scanDefer := g.scanDefer.erase u }
  if g.scanOld.contains u && old.isEmpty then s.scanComplete k g.scanOldStart else s

/-- Units `from` up to `u` are deferred, `u` has run; after unit 95,999 a new rotation begins. -/
def State.scanAdvance (s : State) (k first u : Nat) : State :=
  let g := s.gal k
  let g := { g with
    scanDefer := g.scanDefer ++ ((List.range (u - first)).map (first + ·)).filter (fun x => !(g.scanDefer.contains x))
    scanStart := if first = 0 then s.now else g.scanStart }
  let s := s.setRfld (galReg k 0xD0) 16 0 ((u + 1) % scanUnits)
  if u + 1 = scanUnits then
    let left := g.scanOld ++ g.scanDefer.filter (fun x => !(g.scanOld.contains x))
    if left.isEmpty then (s.setGal k g).scanComplete k g.scanStart
    else s.setGal k { g with scanOld := left, scanDefer := [], scanOldStart := g.scanStart }
  else s.setGal k g

/-- Run the next unit: a deferred one that is free, else the next in number whose partition is free (R411). Answers its number. -/
def State.scanTake (s : State) (k : Nat) : Nat × State :=
  let g := s.gal k
  match (g.scanOld ++ g.scanDefer).find? (s.scanFree k) with
  | some u => (u, s.scanDeferred k u)
  | none =>
    let n := s.scanNext k
    match s.scanFind k (scanUnits - n) n with
    | some u => (u, s.scanAdvance k n u)
    | none => (0, (s.scanAdvance k n (scanUnits - 1)).scanAdvance k 0 0)

/-- May a scan unit start: no other activity before it, gallery idle, image loaded, hall not in QUIET (R95, R373, R410, R411)? -/
def State.mayScan (s : State) (k : Nat) : Bool :=
  bit (s.reg 0xA0000) 0 && !(s.gal k).retired && !(s.quiet (k / 512)) && s.bgRoom k 0 true &&
  !(s.mayTouchup k) && !(s.maySurvey k && s.budgetLeft k 0) && !(s.mayScrub k && s.budgetLeft k 1)

/-- R410: marked lines of the scan store that the test engine reads are read again from the flash and written back. -/
def State.healScan (s : State) : State :=
  { s with marks := s.marks.filter (fun p => !(decide (scanStore / 64 ≤ p.1 ∧ p.1 < (scanStore + 2 ^ 22) / 64))) }

/-- SCAN_UNIT (R94, R410 to R412): `diffs` of the unit and its repeat differ: one raises nothing, two make the gallery suspect. -/
def execScanUnit (h g diffs : Nat) (s : State) : Host.Outcome State Fault Refusal :=
  let k := galKey h g
  if !(s.mayScan k) then next s
  else if !(s.budgetLeft k 3) then next (s.bgWaited k 3)
  else
    let (u, s) := s.healScan.scanTake k
    let arrays := if 5 ≤ scanPart u then 2 ^ scanArray u else 0
    let s := s.bgCharge k 3 arrays (max s.now (s.bgUntil k)) (us (if diffs = 0 then 1 else 2))
    next (if 2 ≤ diffs then (s.bump 0xA0014 1).becomeSuspect k 7 else s)

/-- Instant from which a gallery's rotation is timed: the start of its latest complete one, READY, or its hall's leaving QUIET (R413). -/
def State.scanBase (s : State) (k : Nat) : Nat :=
  max (s.gal k).scanLast (max (s.power.ready.getD 0) (s.power.quietLeft.getD (k / 512) 0))

/-- SCAN_ROTATION_LATE (R413): 86,400 s. -/
def execScanRotationLate (h g : Nat) (s : State) : Host.Outcome State Fault Refusal :=
  let k := galKey h g
  if s.quiet (k / 512) || (s.gal k).retired || bit (s.reg (galReg k 0xD0)) 17 then next s
  else next ((s.at (s.scanBase k + sec 86400)).setRbit (galReg k 0xD0) 17 true)

/-! ### Diagnosis, retirement and re-placement (R417 to R420) -/

/-- Does the test engine hold an array of the gallery (R429)? -/
def State.testOn (s : State) (k : Nat) : Bool :=
  match s.test with
  | some t => decide (3 ≤ t.test ∧ t.test ≤ 5) && decide (512 * (t.target % 8) + t.target / 8 % 512 = k)
  | none => false

/-- DIAGNOSTIC (R126, R184, R417): begins once no flight runs on the suspect gallery and no test holds it. `request`: a management
processor asks that the gallery be suspect. Bit a of `retire`: the management function retires array a. -/
def execDiagnostic (h g : Nat) (s : State) (request : Bool := false) (retire : Nat := 0) : Host.Outcome State Fault Refusal :=
  let k := galKey h g
  let s := (maskArrays retire).foldl (fun s a => s.retireArray k a none) s
  let s := if request && !(s.gal k).suspect then s.becomeSuspect k 6 else s
  let gl := s.gal k
  if gl.suspect && !gl.retired && gl.flight.isNone && !(s.testOn k) && !(s.diags.contains k) && !s.stopped then next { s with diags := s.diags ++ [k] }
  else next s

/-- Re-place the gallery's virtual gallery (R420), its matrices on the wide path meanwhile (R140): answers REPLACE of the event. -/
def State.replaceOwned (s : State) (k : Nat) : Nat × State :=
  match s.owner k with
  | none => (0, s)
  | some c => match s.load c with
    | none => (0, s)
    | some l =>
      let (s, ok) := (s.galleryCause k true).replaceGallery c k
      if ok then (1, s) else (if s.imageReadable l then 2 else 1, if l.done then s.bump 0xA0020 1 else s.endLoad c stNoCapacity)

/-- GALLERY_RETIRED (R419). -/
def State.raiseRetiredGal (s : State) (k : Nat) (ctx : Option Nat) (whole : Bool) (arrays replace : Nat) : State :=
  (s.bump 0xA0018 1).raise evGalleryRetired (k / 512) ctx
    (k / 512 + (k % 512) * 2 ^ 3 + b2n whole * 2 ^ 12 + (arrays % 2 ^ 32) * 2 ^ 13 + ((s.gal k).cause % 8) * 2 ^ 45 + replace * 2 ^ 48)

/-- SUSPECT clears, and with it CAUSE_GALLERY (R142, R418). -/
def State.clearSuspect (s : State) (k : Nat) : State := (s.modGal k (fun g => { g with suspect := false })).galleryCause k false

/-- Suspects of the gallery within the 24 h before its latest one, itself included (R418). -/
def Gallery.suspects (g : Gallery) : Nat :=
  match g.suspectTimes with
  | [] => 0
  | t :: _ => (g.suspectTimes.filter (fun x => decide (t < x + sec 86400))).length

/-- The shared logic has failed: every array and the gallery are retired for good, and its virtual gallery is re-placed (R418). -/
def State.retireWhole (s : State) (k : Nat) : State :=
  let ctx := s.owner k
  let s := (List.range 32).foldl (fun s a => s.retireArray k a none) s
  let (r, s) := s.replaceOwned k
  (s.modGal k (fun g => { g with suspect := false, retired := true })).raiseRetiredGal k ctx true (2 ^ 32 - 1) r

/-- Failing arrays are retired; where one holds an array record the virtual gallery is re-placed (R418). -/
def State.retireArrays (s : State) (k : Nat) (failed : List (Nat × Option Nat)) : State :=
  let ctx := s.owner k
  let used := failed.any (fun p => (s.arr (arrKey k p.1)).record.isSome)
  let s := failed.foldl (fun s p => s.retireArray k p.1 p.2) s
  if used then
    let (r, s) := s.replaceOwned k
    (s.modGal k (fun g => { g with suspect := false })).raiseRetiredGal k ctx false (maskOf (failed.map (fun p => p.1 % 32))) r
  else (s.clearSuspect k).raiseRetiredGal k ctx false (maskOf (failed.map (fun p => p.1 % 32))) 0

/-- Arrays of a gallery with an array record that are RETIRED already (R184): by a check of R121 or by the management function. -/
def State.retiredArrays (s : State) (k : Nat) : List (Nat × Option Nat) :=
  ((s.recArrays k).filter (fun a => decide (wearState (s.wear (arrKey k a)) = 2))).map (fun a => (a, none))

/-- DIAGNOSTIC_END (R417, R418): the shared logic failed, or these arrays (with a failing converter), or everything passed: then the
initial survey has run; a third suspect within 24 h counts as a failure of the shared logic. An array that is RETIRED already counts as
one that failed (R184: RETIRED is final; log 50). -/
def execDiagnosticEnd (h g : Nat) (shared : Bool) (failed : List (Nat × Option Nat)) (s : State) : Host.Outcome State Fault Refusal :=
  let k := galKey h g
  if !(s.diags.contains k) then next s
  else
    let s := { s with diags := s.diags.erase k }
    let failed := failed ++ (s.retiredArrays k).filter (fun p => !(failed.any (fun q => decide (q.1 % 32 = p.1))))
    if shared then next (s.retireWhole k)
    else if !failed.isEmpty then next (s.retireArrays k failed)
    else if 3 ≤ (s.gal k).suspects then next (s.retireWhole k)
    else next ((if (s.owner k).isSome then s.initialSurvey k else s).clearSuspect k)

/-! ### Replays (R421, R422) -/

/-- Set TOKENS of one layer back to `base`, its pages with it. -/
def State.rollbackLayer (s : State) (st base l : Nat) : State :=
  let d := (s.stream st).kvDir
  if d = 0 then s
  else
    let s := (s.pagesOf st).foldl (fun s i =>
      if i.layer ≠ l then s
      else if base ≤ 16 * i.page then s.freePage i
      else if i.page = base / 16 then s.reopenPage i (base % 16)
      else s) s
    (s.setTokens d l (min base (s.dirTokens d l))).repin st l

/-- Matrices of a context without a wide copy (R138, R140). -/
def State.noWide (s : State) (c : Nat) : List Nat :=
  let x := s.ctx c
  (List.range x.matrices).filter (fun m => !(s.dispatchOf x m).wide)

/-- Does a suspect gallery of a context hold an array of such a matrix? Its step is held until SUSPECT clears or re-placement ends (R421). -/
def State.noWideSuspect (s : State) (c : Nat) : Bool :=
  let ms := s.noWide c
  s.galleries.any (fun p => p.2.suspect && decide (s.owner p.1 = some c) &&
    (List.range 32).any (fun a => match (s.arr (arrKey p.1 a)).record with | some r => ms.contains r.matrix | none => false))

/-- R421: is there such a case: of cause 0 only where a matrix of the stream's context has no wide copy, and no suspect gallery holds
one any more. -/
def State.replays (s : State) (c cause : Nat) : Bool :=
  if cause = 0 then !(s.noWide c).isEmpty && !(s.noWideSuspect c) else decide (cause ≤ 2)

/-- STEP_REPLAY (R421, R422): `cause` 0 gallery without a wide copy, 1 stream processor, 2 engine job. A stream in DECODE goes back to
the start of its step on every layer; one in PREFILL on the affected layer. -/
def execStepReplay (st cause layer : Nat) (s : State) : Host.Outcome State Fault Refusal :=
  let x := s.stream st
  if (x.state ≠ .decode ∧ x.state ≠ .prefill) ∨ s.jobsOf st ∨ s.replays x.context cause = false then next s
  else
    let s := if x.state = .decode then s.rollbackKv st (x.positions - 1) else s.rollbackLayer st x.work.basePos layer
    let n := min 0xFFFF (x.work.replays + 1)
    let s := (s.modStream st (fun y => { y with work := { y.work with replays := n, layer := 0 } })).bump 0xA001C 1
    next (s.raise evStreamReplay 8 (some x.context) (st % 65536 + (x.generated % 2 ^ 21) * 2 ^ 16 + n * 2 ^ 37 + (cause % 8) * 2 ^ 53))

/-! ### Processors (R423, R424) -/

/-- SP_WATCHDOG_TIMEOUT (R423): stream processor `n` is stopped and left out. -/
def execSpWatchdogTimeout (n : Nat) (s : State) : Host.Outcome State Fault Refusal :=
  if n < 32 ∧ bit (s.reg 0xA0004) n then next ((s.setRbit 0xA0004 n false).recordFail (0x5400 + n)) else next s

def State.activeMp (s : State) : Nat := s.rfld 0xA0000 1 1
def State.standbyOk (s : State) : Bool := bit (s.reg 0xA0000) 2

/-- MP_HEARTBEAT (R424): every 10 µs. -/
def execMpHeartbeat (s : State) : Host.Outcome State Fault Refusal :=
  if s.pkg = 3 then
    let s := s.at (s.mpBeat + us 10)
    next { s with mpBeat := s.now }
  else next s

/-- MP_HEARTBEAT_TIMEOUT (R424): nothing for 30 µs; the standby takes over, or with none left the package enters HOLDUP with cause 3. -/
def execMpHeartbeatTimeout (s : State) : Host.Outcome State Fault Refusal :=
  if s.pkg = 3 ∧ s.power.phase = .rest then
    let s := s.at (s.mpBeat + us 30)
    if s.standbyOk then
      let n := s.activeMp
      let s := (s.setRfld 0xA0000 1 1 (1 - n)).setRbit 0xA0000 2 false
      next { s.recordFail (0x5500 + n) with mpBeat := s.now }
    else next (s.enterHoldup 3 0)
  else next s

/-! ### The test engine (R415, R416) -/

/-- TE_ADDR and TE_LEN, in multiples of 4,096. -/
def State.testAddr (s : State) : Nat := (s.reg 0xC0008).toNat / 4096 * 4096 + (s.reg 0xC000C).toNat * 2 ^ 32
def State.testLen (s : State) : Nat := (s.reg 0xC0010).toNat / 4096 * 4096

/-- Bytes of a memory by its number (R416). -/
def State.memSize (s : State) (m : Nat) : Nat :=
  if m < 8 then hallSize else if m = 8 then centralSize else if m = 9 then s.hbmStacks.length * 48 * gib else if m = 10 then s.t1Channels.length * s.t1ChannelBytes else 0

/-- Is the test refused (R416, R432)? -/
def State.testRefused (s : State) (test : Nat) : Bool :=
  let t := (s.reg 0xC0004).toNat
  let k := 512 * (t % 8) + t / 8 % 512
  let fits := decide (s.testAddr + s.testLen ≤ s.memSize (t % 16))
  match test with
  | 1 => decide (8 < t % 16) || !fits || (decide (t % 16 = 8) && decide (scanStore < s.testAddr + s.testLen))
  | 2 => !(decide (t % 16 = 9 ∨ t % 16 = 10)) || !fits
  | 3 => false
  | 4 => false
  | 5 => (s.owner k).isSome && !(s.gal k).suspect
  | 6 => !(s.lnk (t % 128)).hold
  | 7 => decide (logicDies ≤ t % 16)
  | _ => true

/-- Longest time of tests 3 and 4 on an array (R416). -/
def testHold (test : Nat) : Nat := if test = 3 then us 2 else us 1

/-- The array of tests 3 and 4 is held as the programmer holds it (R66, R416). -/
def State.holdArray (s : State) (test : Nat) : State :=
  let t := (s.reg 0xC0004).toNat
  let k := 512 * (t % 8) + t / 8 % 512
  let s := if test = 3 then s.armForPass k else s
  s.modArr (arrKey k (t / 4096 % 32)) (fun a => { a with heldUntil := max a.heldUntil (s.now + testHold test) })

/-- START is written with TEST = `test` by function `fn` (R415, R416, R432). -/
def State.startTest (s : State) (fn test : Nat) : State :=
  if !(s.isMgmt fn) then s
  else
    let s := s.setRfld 0xC0000 3 0 test
    if s.test.isSome then s
    else if s.testRefused test then s.setRfld 0xC0014 2 1 2
    else
      let s := (s.setRbit 0xC0014 0 true).setRfld 0xC0014 2 1 0
      let s := { s with test := some { test := test, target := (s.reg 0xC0004).toNat, addr := s.testAddr, len := s.testLen, startAt := s.now } }
      if test = 3 ∨ test = 4 then s.holdArray test else s

/-- SRAM_MARCH (R416). -/
def execSramMarch (fn : Nat) (s : State) : Host.Outcome State Fault Refusal := next (s.startTest fn 1)
/-- TIER_MARCH (R416). -/
def execTierMarch (fn : Nat) (s : State) : Host.Outcome State Fault Refusal := next (s.startTest fn 2)
/-- LOOPBACK (R416). -/
def execLoopback (fn : Nat) (s : State) : Host.Outcome State Fault Refusal := next (s.startTest fn 3)
/-- REFERENCE (R416). -/
def execReference (fn : Nat) (s : State) : Host.Outcome State Fault Refusal := next (s.startTest fn 4)
/-- SCAN (R416). -/
def execScan (fn : Nat) (s : State) : Host.Outcome State Fault Refusal := next (s.startTest fn 5)
/-- LINK (R416). -/
def execLink (fn : Nat) (s : State) : Host.Outcome State Fault Refusal := next (s.startTest fn 6)
/-- TMON (R416). -/
def execTmon (fn : Nat) (s : State) : Host.Outcome State Fault Refusal := next (s.startTest fn 7)

/-- TEST_END (R415, R432): `failed` is the first failing byte offset, scan unit, column or channel. -/
def execTestEnd (failed : Option Nat) (s : State) : Host.Outcome State Fault Refusal :=
  match s.test with
  | none => next s
  | some t =>
    let s := { ((s.setRbit 0xC0014 0 false).setRfld 0xC0014 2 1 (b2n failed.isSome)).setRbit 0xC0014 3 true with test := none }
    let s := s.bump 0xC0020 1
    let s := match failed with
      | some x => (s.setReg 0xC0018 (BitVec.ofNat 32 x)).setReg 0xC001C (BitVec.ofNat 32 (x / 2 ^ 32))
      | none => s
    next (if t.test = 5 then s.startNext (512 * (t.target % 8) + t.target / 8 % 512) (queueDepth + 1) else s)

end Sys2Proof.Machine
end

