-- ==== Sys2Proof/Machine/Registers.lean ====
section
/-! DEFINITION. What every register of BAR0 reads as, register writes without a row of their own, reads with an effect, and counter
snapshots (R11, R282, R333, R361, R387, R426 to R438). The model's own choices: log 18 MSI-X vector control (PRESUMED); log 42 registers
(DEDUCED, DESIGN CHOICE, PRESUMED). -/

namespace Sys2Proof.Machine

/-! ### Reads: gallery windows (R67, R97, R131, R186, R209, R431) -/

def GalPower.code : GalPower → Nat
  | .deep => 0
  | .waking => 1
  | .light => 2
  | .ready => 3

/-- GAL_STATUS (R97). -/
def Gallery.status (g : Gallery) : Word :=
  BitVec.ofNat 32 (g.power.code + b2n g.flight.isSome * 2 ^ 2 + b2n g.pairReset.isSome * 2 ^ 3 + g.queue.length * 2 ^ 8 + g.groups.length * 2 ^ 12 +
    g.inbox.length * 2 ^ 16)

/-- Route word of the running flight (R97). -/
def Gallery.routeWord (g : Gallery) : DWord := match g.flight with | some f => f.launch.route | none => 0#64

/-- Time used of a budget in units of 16 ns (R97). -/
def Gallery.usedUnits (g : Gallery) (kind : Nat) : Nat := min 0xFFFF (g.used.getD kind 0 / 16)

/-- Arrays of a gallery that the programmer holds now, ascending (R170, R186). -/
def State.heldArrays (s : State) (k : Nat) : List Nat :=
  (List.range 32).filter (fun a => let r := s.arr (arrKey k a)
    r.job.isSome && decide (s.now < r.heldUntil))

/-- GAL_PROG (R186). -/
def State.progWord (s : State) (k : Nat) : Word :=
  match s.heldArrays k with
  | [] => 0#32
  | a :: rest => match (s.arr (arrKey k a)).job with
    | none => 0#32
    | some j => BitVec.ofNat 32 (a + ((j.row - 1) % 1024) * 2 ^ 5 + 2 ^ 15 + (j.mode % 4) * 2 ^ 16 + (rest.length + 1) * 2 ^ 18)

/-- GAL_SURVEY_STATUS (R209). -/
def Survey.status (v : Survey) : Word :=
  BitVec.ofNat 32 (v.focusArray % 32 + (v.focusBudget % 4) * 2 ^ 5 + b2n v.firstUse * 2 ^ 7 + (v.rejectRun % 4) * 2 ^ 8 + (v.marginLevel % 4) * 2 ^ 10 +
    (v.budgetsSeen % 16) * 2 ^ 12)

/-- GAL_SURVEY_SAMPLES (R209). -/
def Survey.samples (v : Survey) : Word := BitVec.ofNat 32 (min 0x1FFF (((v.columns.map (fun j => v.nAcc.getD j 0)).min?).getD 0))

/-- GAL_DRIFT_DATA of an array (R209). -/
def ArrayState.driftWord (a : ArrayState) : Word :=
  BitVec.ofNat 32 (unsigned 16 (driftUnits a.driftEst) + (min 0xFFFF (a.ageEq / 3600).floor.toNat) * 2 ^ 16)

/-- GAL_SCAN_AGE (R431); 0 before the first complete rotation. -/
def State.scanAge (s : State) (k : Nat) : Word :=
  let t := (s.gal k).scanLast
  BitVec.ofNat 32 (if t = 0 then 0 else min 0x1FFFF ((s.now - t) / sec 1))

/-- A register of a gallery window. -/
def State.galRead (s : State) (k w : Nat) : Word :=
  let g := s.gal k
  let v := s.reg (galReg k w)
  match w with
  | 0x00 => g.status
  | 0x04 => BitVec.ofNat 32 (match g.flight with | some f => f.pc % 2 ^ 25 | none => 0)
  | 0x10 => BitVec.ofNat 32 (fld g.routeWord 31 0)
  | 0x14 => BitVec.ofNat 32 (fld g.routeWord 63 32)
  | 0x24 => BitVec.ofNat 32 (g.usedUnits 0 + g.usedUnits 1 * 2 ^ 16)
  | 0x28 => BitVec.ofNat 32 (g.usedUnits 2 + g.usedUnits 3 * 2 ^ 16)
  | 0x44 => setFld v 9 8 (match g.refOn with | some t => 1 + 2 * b2n (decide (t + us 2 ≤ s.now)) | none => 0)
  | 0x64 => BitVec.ofNat 32 (b2n g.suspect + (g.cause % 8) * 2 + b2n g.forced * 16)
  | 0x68 => BitVec.ofNat 32 (s.emapUsed k % 2 ^ 17)
  | 0x84 => g.survey.status
  | 0x88 => g.survey.samples
  | 0xA0 => (s.arr (arrKey k (s.rfld (galReg k 0x9C) 4 0))).driftWord
  | 0xC4 => s.progWord k
  | 0xD4 => s.scanAge k
  | _ => v

/-! ### Reads: the fixed block -/

/-- FB_STATUS, FB_SAT_LO and FB_SAT_HI (R155). -/
def State.liveContexts (s : State) : List Nat := (List.range 64).filter (fun c => (s.ctx c).live)
def State.wideMatrices (s : State) : Nat :=
  (s.liveContexts.map (fun c => ((List.range (s.ctx c).matrices).filter (fun m =>
    let d := s.dispatchOf (s.ctx c) m
    d.path && (d.causeGallery || d.causeHost))).length)).sum
def State.satMask (s : State) : Nat := maskOf (s.liveContexts.filter (fun c => (s.ctx c).saturated))
def State.satCount (s : State) : Nat := (s.liveContexts.filter (fun c => (s.ctx c).saturated)).length

/-- PROG_STATUS (R186). -/
def State.progStatus (s : State) : Word :=
  BitVec.ofNat 32 (s.progActive.length % 2 ^ 11 + maskOf ((List.range 8).filter (fun h => s.windowOpen.getD h false)) * 2 ^ 16 + b2n (s.railEn 7) * 2 ^ 24 +
    b2n (s.loads.any (fun p => !p.2.done)) * 2 ^ 25)

/-- ATLAS_CAP (R186); the count of RETIRED arrays saturates in its field. -/
def State.atlasCap (s : State) : Word :=
  if s.power.ready.isNone then 0#32
  else
    let free := ((List.range 4096).filter (fun k => (s.owner k).isNone && !(s.gal k).suspect && !(s.gal k).retired)).length
    let out := ((List.range 131072).filter (fun i => decide (wearState (s.wear i) = 2))).length
    BitVec.ofNat 32 (free + min 0xFFFF out * 2 ^ 16)

/-- Time of an interval within the last 100 ms (R258). -/
def overlap (now : Nat) (p : Nat × Nat) : Nat := p.2 - max p.1 (now - loadSpan)

/-- Time within the last 100 ms in which a gallery ran or held queued launches. -/
def Gallery.busyTime (g : Gallery) (now : Nat) : Nat :=
  (g.busy.map (overlap now)).sum + (match g.busySince with | some t => overlap now (t, now) | none => 0)

/-- SRV_LOAD (R258): the mean over the galleries the context owns, in 0.1 %, rounded down. -/
def State.srvLoad (s : State) (c : Nat) : Word :=
  let ks := (List.range 4096).filter (fun k => decide (s.owner k = some c))
  BitVec.ofNat 32 (if ks.isEmpty then 0 else 1000 * (ks.map (fun k => (s.gal k).busyTime s.now)).sum / (ks.length * loadSpan))

/-- T1_CAP (R360). -/
def State.t1Cap (s : State) : Word :=
  BitVec.ofNat 32 ((s.t1ChannelBytes / gib) % 256 + s.t1Channels.length * 2 ^ 8 + maskOf ((s.retirePending.filter (fun u => decide (160 ≤ u))).map (· - 160)) * 2 ^ 16)

/-- FAB_STATUS (R361). -/
def State.fabStatus (s : State) : Word :=
  if s.power.ready.isNone then 0#32
  else BitVec.ofNat 32 (s.reachable.length % 2 ^ 13 + (s.links.filter (fun p => p.2.up)).length * 2 ^ 16 +
    (s.links.filter (fun p => decide (p.2.state = 5))).length * 2 ^ 24)

/-- FAB_LINK_STATUS (R361). -/
def Link.status (k : Link) : Word :=
  BitVec.ofNat 32 (k.state % 8 + (k.peer % 4096) * 2 ^ 4 + (k.peerLink % 128) * 2 ^ 16 + (k.cause % 8) * 2 ^ 24)

/-- CLK_STATUS (R369, R373, R387): a hall's converter PLL, index 9 + h, is not locked while the hall is in QUIET and until it has
relocked. -/
def State.clkStatus (s : State) : Word :=
  (List.range 8).foldl (fun v h => if s.quiet h || s.power.relock.contains h then setFld v (9 + h) (9 + h) 0 else v) (s.reg 0x20000)

/-- Galleries whose rotation is overdue (R413). -/
def State.scanLate (s : State) : Nat := ((List.range 4096).filter (fun k => bit (s.reg (galReg k 0xD0)) 17)).length

/-- COVERAGE_OK (R407): the scan image loaded, survey and scan limits above zero on every owned gallery, no rotation overdue. -/
def State.coverageOk (s : State) : Bool :=
  bit (s.reg 0xA0000) 0 &&
  (List.range 4096).all (fun k => (s.owner k).isNone || (decide (0 < s.rfld (galReg k 0x20) 7 0) && decide (0 < s.rfld (galReg k 0x20) 31 24))) &&
  decide (s.scanLate = 0)

/-- FLT_GALLERIES (R430). -/
def State.fltGalleries (s : State) : Word :=
  if s.power.ready.isNone then 0#32
  else
    let out := ((List.range 4096).filter (fun k => (s.gal k).retired)).length
    let sus := ((List.range 4096).filter (fun k => (s.gal k).suspect)).length
    BitVec.ofNat 32 (4096 - out + sus * 2 ^ 16)

/-- RING_STATUS (R296): HELD when a full completion ring stops fetching. -/
def State.ringStatus (s : State) (n : Nat) : Word :=
  let r := s.ring n
  let cq := s.ring r.cq
  let held := decide (r.kind = 0) && cq.enabled && decide (cq.kind = 1) && (cq.full || !cq.waiting.isEmpty)
  BitVec.ofNat 32 ((if !r.enabled then 0 else if r.parked then 2 else if held then 3 else 1) + b2n r.fetchError * 4 + b2n r.phase * 8 + (r.index % 65536) * 2 ^ 16)

/-- Registers of the fabric block that show a selected link or tree (R361). -/
def State.fabRead (s : State) (o : Nat) : Word :=
  let l := s.lnk (s.rfld 0x80010 6 0)
  let t := s.rfld 0x80100 7 0
  match o with
  | 0x80008 => s.fabStatus
  | 0x80014 => l.status
  | 0x80018 => BitVec.ofNat 32 (2 * b2n l.hold)
  | 0x8001C => l.crc
  | 0x80020 => l.replays
  | 0x80024 => l.tx
  | 0x80028 => l.rx
  | _ => if 0x80104 ≤ o ∧ o < 0x80134 ∧ o % 4 = 0 then (if t = 0 then 0#32 else Tab.get 0#32 s.treeMap (16 * t + (o - 0x80104) / 4)) else s.reg o

/-- Registers of the tier block (R360). -/
def State.tierRead (s : State) (o : Nat) : Word :=
  let vol := s.rfld 0x90200 2 0
  let mem := s.rfld 0x90200 6 4
  match o with
  | 0x90000 => setFld (setFld (s.reg o) 15 8 (maskOf s.hbmStacks)) 23 16 (maskOf ((s.retirePending.filter (fun u => decide (144 ≤ u ∧ u < 152))).map (· - 144)))
  | 0x90004 => BitVec.ofNat 32 (maskOf s.t1Channels + maskOf s.t1Retired * 2 ^ 16)
  | 0x90008 => s.t1Cap
  | 0x90010 => BitVec.ofNat 32 (maskOf s.drives + maskOf s.drivesRetired * 2 ^ 8)
  | 0x90204 => BitVec.ofNat 32 (Tab.get 0 s.t2Vol vol)
  | 0x90208 => Tab.get 0#32 s.t2Mem (32 * vol + 4 * mem)
  | 0x9020C => Tab.get 0#32 s.t2Mem (32 * vol + 4 * mem + 1)
  | 0x90210 => Tab.get 0#32 s.t2Mem (32 * vol + 4 * mem + 2)
  | _ => s.reg o

/-- Registers of the host block (R282, R296, R435): `fn` selects its own copies of the private ones. -/
def State.hostRead (s : State) (fn o : Nat) : Word :=
  let f := s.fn fn
  let n := fld f.ringSel 12 0
  let r := s.ring n
  match o with
  | 0x50000 => f.ringSel
  | 0x50004 => r.baseLo
  | 0x50008 => r.baseHi
  | 0x5000C => r.cfg
  | 0x50010 => r.int
  | 0x50014 => BitVec.ofNat 32 (b2n r.enabled)
  | 0x50018 => s.ringStatus n
  | 0x5001C => r.lostTotal
  | _ =>
    if 0x57F00 ≤ o ∧ o < 0x58000 ∧ o % 4 = 0 then Tab.get 0#32 f.pba ((o - 0x57F00) / 4)
    else if 0x58000 ≤ o ∧ o < 0x60000 ∧ o % 4 = 0 then f.msixWord ((o - 0x58000) / 4)
    else s.reg o

/-- Registers of the faults, snapshots, wide-path, programming and serving blocks. -/
def State.faultRead (s : State) (fn o : Nat) : Word :=
  let wear := fun (i : Nat) => BitVec.ofNat 32 (fld (s.wear (s.rfld 0xA500C 16 0)) (32 * i + 31) (32 * i))
  match o with
  | 0xA0000 => setFld (s.reg o) 3 3 (b2n s.coverageOk)
  | 0xA0008 => s.fltGalleries
  | 0xA000C => BitVec.ofNat 32 s.scanLate
  | 0xA1000 => BitVec.ofNat 32 ((match s.snap with | some p => p.epoch % 65536 | none => 0) + b2n s.snapDue.isSome * 2 ^ 16)
  | 0xA1004 => BitVec.ofNat 32 (match s.snap with | some p => fld p.instant 31 0 | none => 0)
  | 0xA1008 => BitVec.ofNat 32 (match s.snap with | some p => fld p.instant 63 32 | none => 0)
  | 0xA100C => (s.fn fn).snapView
  | 0xA4004 => BitVec.ofNat 32 (min 0xFFFF s.wideMatrices + s.satCount * 2 ^ 16)
  | 0xA4008 => BitVec.ofNat 32 s.satMask
  | 0xA400C => BitVec.ofNat 32 (s.satMask / 2 ^ 32)
  | 0xA5004 => s.progStatus
  | 0xA5008 => s.atlasCap
  | 0xA5010 => wear 0
  | 0xA5014 => wear 1
  | 0xA5018 => wear 2
  | 0xA501C => wear 3
  | 0xA6050 => BitVec.ofNat 32 s.openStreams.length
  | _ => if 0xA6200 ≤ o ∧ o < 0xA6300 ∧ o % 4 = 0 then s.srvLoad ((o - 0xA6200) / 4) else s.reg o

/-- A register of the fixed block. -/
def State.fixedRead (s : State) (fn o : Nat) : Word :=
  if 0x50000 ≤ o ∧ o < 0x60000 then s.hostRead fn o
  else if 0x80000 ≤ o ∧ o < 0x90000 then s.fabRead o
  else if 0x90000 ≤ o ∧ o < 0x98000 then s.tierRead o
  else if 0xA0000 ≤ o ∧ o < 0xB0000 then s.faultRead fn o
  else match o with
  | 0x4 => BitVec.ofNat 32 (fld Config.serial 31 0)
  | 0x8 => BitVec.ofNat 32 (fld Config.serial 63 32)
  | 0xC => BitVec.ofNat 32 (vHiMv + vLoMv * 2 ^ 10)
  | 0x10 => setFld (s.reg o) 2 2 (b2n (s.isMgmt fn))
  | 0x20000 => s.clkStatus
  | 0x20008 => BitVec.ofNat 32 (fld s.time 31 0)
  | 0x2000C => s.tbHi
  | 0x40014 => Config.thermParam (s.rfld 0x40010 7 0)
  | 0x78004 => if s.rfld 0x78000 15 12 ≤ 8 then BitVec.ofNat 32 (s.counter (cntKey (s.rfld 0x78000 15 12) (s.rfld 0x78000 11 0))) else 0#32
  | 0x78008 => if s.rfld 0x78000 15 12 ≤ 8 then BitVec.ofNat 32 (b2n (Tab.get false s.counterSat (cntKey (s.rfld 0x78000 15 12) (s.rfld 0x78000 11 0)))) else 0#32
  | 0x9840C => BitVec.ofNat 32 (s.kvFree 0)
  | 0x98410 => BitVec.ofNat 32 (s.kvFree 1)
  | 0xB0000 => (s.fn fn).nvAddr
  | 0xB0004 => BitVec.ofNat 32 (s.nvLE (fld (s.fn fn).nvAddr 21 2 * 4) 4)
  | _ => s.reg o

/-- DMA_ENG_STATUS (R332). -/
def State.engStatus (s : State) (e : Nat) : Word :=
  let st := if !(s.engOn e) then 3 else match (s.eng e).run with
    | none => 0
    | some r => if r.ended.isSome then 2 else 1
  BitVec.ofNat 32 (st + (s.eng e).queue.length * 4)

/-- Is the offset in the hall block of a hall that was left out at power-up (R435)? -/
def State.hallGone (s : State) (o : Nat) : Bool := decide (0x100000 ≤ o ∧ o < 0x300000) && s.power.hallsOut.contains ((o - 0x100000) / 0x40000)

/-- The live value of a register as function `fn` reads it. -/
def State.liveRead (s : State) (fn o : Nat) : Word :=
  if s.hallGone o then 0#32
  else match regPlace o with
  | .gallery h g w => s.galRead (galKey h g) w
  | .engine e w => if w = 0x1C then s.engStatus e else s.reg o
  | .tmon _ _ _ => s.reg o
  | .fixed w => s.fixedRead fn w

/-! ### Snapshots (R426 to R429) -/

/-- Bits of a register that latch on SNAPSHOT. -/
def latchMask (o : Nat) : Word := match regDef o with | some r => BitVec.ofNat 32 r.latch | none => 0#32

/-- Offset of a register under VIEW: the counters of a selected link carry the link above bit 32. -/
def State.latchKey (s : State) (o : Nat) : Nat := if 0x8001C ≤ o ∧ o < 0x8002C then o + 2 ^ 32 * s.rfld 0x80010 6 0 else o

/-- What function `fn` reads at a BAR0 offset (R11, R428). -/
def State.readReg (s : State) (fn o : Nat) : Word :=
  let live := s.liveRead fn o
  match s.snap with
  | some p =>
    if bit (s.fn fn).snapView 0 then (live &&& ~~~ (latchMask o)) ||| (Tab.get 0#32 p.regs (s.latchKey o) &&& latchMask o) else live
  | none => live

/-- Offsets of the latching registers of a list of rows. -/
def latchOffsets (rs : List RegDef) : List Nat :=
  (rs.filter (fun r => decide (r.latch ≠ 0))).flatMap (fun r => tabulate r.count (fun i => r.base + r.stride * i))

/-- Offsets in BAR0 of every latching register. -/
def latchAll : List Nat :=
  latchOffsets mainRegs ++
  (List.range 11).flatMap (fun d => [0, 1].flatMap (fun c => (latchOffsets tmonRegs).map (tmonReg d c))) ++
  (List.range 96).flatMap (fun e => (latchOffsets dmaRegs).map (engReg e)) ++
  (List.range 4096).flatMap (fun k => (latchOffsets galRegs).map (galReg k))

/-- The counters of every link (R361). -/
def State.latchLinks (s : State) : Tab Word :=
  (List.range linkCount).flatMap (fun l => let k := s.lnk l
    [(0x8001C + 2 ^ 32 * l, k.crc), (0x80020 + 2 ^ 32 * l, k.replays), (0x80024 + 2 ^ 32 * l, k.tx), (0x80028 + 2 ^ 32 * l, k.rx)])

/-- The set that latches now, without the zeros. -/
def State.latched (s : State) : Tab Word :=
  let fixed := (latchAll.filter (fun o => !(decide (0x8001C ≤ o ∧ o < 0x8002C)))).map (fun o => (o, s.liveRead 0 o &&& latchMask o))
  sortBy (fun a b => decide (a.1 ≤ b.1)) ((fixed ++ s.latchLinks).filter (fun p => decide (p.2 ≠ 0#32)))

/-- The instant a SNAPSHOT asks for, in ns of the global time base. -/
def State.snapInstant (s : State) (e : SubEntry) : Nat := (if bit e.bytes 192 then s.time.toNat else 0) + e.num 16 23

/-- SNAPSHOT (R426): 2 µs to 1 s after acceptance, one at a time. -/
def snapshot (e : SubEntry) (s : State) : State :=
  let t := s.snapInstant e
  let now := s.time.toNat
  if t < now + 2000 ∨ now + 1000000000 < t then s.complete e stAccessFault 0
  else if s.snapDue.isSome then s.complete e stNoCapacity 0
  else { s with snapDue := some (e, t) }

/-- SNAPSHOT (R426). -/
def execSnapshot (e : SubEntry) (s : State) : Host.Outcome State Fault Refusal := next (s.command e cmdSnapshot (snapshot e))

/-- SNAPSHOT_LATCH (R427, R428): at the instant every latching register latches; RESULT is the epoch. -/
def execSnapshotLatch (s : State) : Host.Outcome State Fault Refusal :=
  match s.snapDue with
  | none => next s
  | some (e, t) =>
    let s := s.at (s.tbStart.getD 0 + ns t)
    let epoch := if s.lastEpoch = 0xFFFF then 1 else s.lastEpoch + 1
    let s := { s with snap := some { epoch := epoch, instant := BitVec.ofNat 64 t, regs := s.latched }, snapDue := none, lastEpoch := epoch }
    next (s.complete e stOk epoch)

/-! ### Reads that are commands of their own (R387, R438) -/

/-- NVLOG_DATA_READ (R438): the word at the function's NVLOG_ADDR, which advances by one word and wraps at 4 MiB. -/
def execNvlogDataRead (fn : Nat) (s : State) : Host.Outcome State Fault Refusal :=
  if s.fnPresent fn then
    let f := s.fn fn
    let w := fld f.nvAddr 21 2
    let s := { s with lastRead := BitVec.ofNat 64 (s.nvLE (4 * w) 4) }
    next (s.setFn fn { f with nvAddr := place 32 21 2 ((w + 1) % 2 ^ 20) })
  else next s

/-- TB_LO_READ (R387): bits [63:32] latch for the next read of TB_HI. -/
def execTbLoRead (s : State) : Host.Outcome State Fault Refusal :=
  next { s with lastRead := BitVec.ofNat 64 (fld s.time 31 0), tbHi := BitVec.ofNat 32 (fld s.time 63 32) }

/-! ### Register writes (R11, R282, R435) -/

/-- The stored register takes the write by its fields' types (R11). -/
def State.storeReg (s : State) (o : Nat) (v : Word) : State :=
  match regDef o with
  | some r => s.setReg o (r.write (s.reg o) v)
  | none => s

/-- Writes to the ring selected by a function (R283, R296): only the function the ring is bound to writes its fields, only the management
function its binding; base and configuration are ignored while the ring is enabled. -/
def State.writeRing (s : State) (fn o : Nat) (v : Word) : State :=
  let n := fld (s.fn fn).ringSel 12 0
  let r := s.ring n
  let mine := decide (r.fn = fn)
  match o with
  | 0x50004 => if mine && !r.enabled then s.setRing n { r with baseLo := v } else s
  | 0x50008 => if mine && !r.enabled then s.setRing n { r with baseHi := v } else s
  | 0x5000C =>
    if r.enabled then s
    else
      let keep := (if mine then 0x3FFE00FF else 0) ||| (if s.isMgmt fn then 0x1FF00 else 0)
      let m : Word := BitVec.ofNat 32 keep
      s.setRing n { r with cfg := (r.cfg &&& ~~~ m) ||| (v &&& m) }
  | 0x50010 => if mine then s.setRing n { r with int := v } else s
  | 0x50018 => if mine && bit v 2 then s.setRing n { r with fetchError := false } else s
  | _ => s

/-- Bits of a word of an MSI-X table entry that software writes: the address without its two low bits, the data, the mask bit. -/
def msixMask (i : Nat) : Word := if i % 4 = 0 then 0xFFFFFFFC#32 else if i % 4 = 3 then 1#32 else 0xFFFFFFFF#32

/-- A write of the MSI-X table (R282): a vector that is unmasked with its pending bit set is sent. -/
def State.writeMsix (s : State) (fn i : Nat) (v : Word) : State :=
  let f := s.fn fn
  let w := (f.msixWord i &&& ~~~ (msixMask i)) ||| (v &&& msixMask i)
  let f := { f with msix := Tab.set (msixReset i) f.msix i w }
  let vec := i / 4
  let p := Tab.get 0#32 f.pba (vec / 32)
  if i % 4 = 3 && !(bit w 0) && bit p (vec % 32) then
    (s.setFn fn { f with pba := Tab.set 0#32 f.pba (vec / 32) (setFld p (vec % 32) (vec % 32) 0) }).sendMsix fn vec
  else s.setFn fn f

/-- Writes in the host block (R282, R296). -/
def State.writeHost (s : State) (fn o : Nat) (v : Word) : State :=
  let f := s.fn fn
  if o = 0x50000 then s.setFn fn { f with ringSel := v &&& 0x1FFF#32 }
  else if o < 0x50020 then s.writeRing fn o v
  else if 0x58000 ≤ o ∧ o < 0x60000 ∧ o % 4 = 0 then s.writeMsix fn ((o - 0x58000) / 4) v
  else s.storeReg o v

/-- PKG_ID or DOMAIN changes: every live link settles again (R353). -/
def State.resettle (s : State) : State := ((s.links.map Prod.fst).foldl State.settleLink s).linksChanged

/-- Writes in the fabric block (R358, R361). HOLD = 1 and REENABLE have rows of their own. -/
def State.writeFab (s : State) (o : Nat) (v : Word) : State :=
  let t := s.rfld 0x80100 7 0
  if o = 0x80000 ∨ o = 0x80004 then (s.storeReg o v).resettle
  else if o = 0x80018 then
    let l := s.rfld 0x80010 6 0
    if bit v 1 || decide (linkCount ≤ l) then s else s.modLnk l (fun k => { k with hold := false })
  else if 0x80104 ≤ o ∧ o < 0x80134 ∧ o % 4 = 0 then
    if t = 0 then s else { s with treeMap := Tab.set 0#32 s.treeMap (16 * t + (o - 0x80104) / 4) v }
  else s.storeReg o v

/-- Is a volume in use: the KV region lies on it and holds a page, or a load reads it (R340, R360)? -/
def State.volInUse (s : State) (v : Nat) : Bool :=
  (decide (s.t2KvVol = v) && decide (0 < s.kvHeld 2)) || s.loads.any (fun p => !p.2.done && decide (p.2.source = 1) && decide (p.2.nsid % 8 = v))

/-- A write of T2_VOL.MEMBERS (R339, R360): ignored while the volume is in use. -/
def State.writeVol (s : State) (v : Word) : State :=
  let vol := s.rfld 0x90200 2 0
  if s.volInUse vol then s else s.t2Admit { s with t2Vol := Tab.set 0 s.t2Vol vol (fld v 3 0) }

/-- A write of word `i` of the selected member (R339, R360). -/
def State.writeMember (s : State) (i : Nat) (v : Word) : State :=
  s.t2Admit { s with t2Mem := Tab.set 0#32 s.t2Mem (32 * s.rfld 0x90200 2 0 + 4 * s.rfld 0x90200 6 4 + i) v }

/-- Writes in the tier block (R334, R339, R360). -/
def State.writeTier (s : State) (o : Nat) (v : Word) : State :=
  match o with
  | 0x90000 => if s.loads.isEmpty then s.storeReg o v else s
  | 0x90204 => s.writeVol v
  | 0x90208 => s.writeMember 0 (v &&& 0xFFFFFFF7#32)
  | 0x9020C => s.writeMember 1 v
  | 0x90210 => s.writeMember 2 v
  | 0x90214 => s.storeReg o (if 0 < s.kvHeld 2 then setFld v 31 8 (s.rfld 0x90214 31 8) else v)
  | _ => s.storeReg o v

/-- Writes of a converter window (R391, R405): REF_EN = 0 is ignored while the package is in WAKING or RUN; REF_EN = 1, GO and OP have rows
of their own. -/
def State.writeTmon (s : State) (d k w : Nat) (v : Word) : State :=
  let o := tmonReg d k w
  if w = 0 then
    let s := s.setRbit o 2 (bit v 2)
    if bit v 0 || decide (s.pkg = 2 ∨ s.pkg = 3) then s
    else ((s.setRbit o 0 false).setRbit o 1 false).modTmon d k (fun t => { t with refOn := none })
  else s.storeReg o v

/-- Writes of an engine window (R315, R332): a held completion record may find room. ENABLE and HEAD have rows of their own. -/
def State.writeEng (s : State) (e w : Nat) (v : Word) : State :=
  if w = 0x00 ∨ w = 0x18 ∨ (regDef (engReg e w)).isNone then s
  else (s.storeReg (engReg e w) v).endChannel e

/-- A write of TE_CTRL (R415, R432): START with one of the seven tests has rows of its own; another TEST is refused. -/
def State.writeTest (s : State) (v : Word) : State :=
  let t := fld v 3 0
  if bit v 4 then
    if 1 ≤ t ∧ t ≤ 7 then s
    else
      let s := s.setRfld 0xC0000 3 0 t
      if s.test.isSome then s else s.setRfld 0xC0014 2 1 2
  else s.storeReg 0xC0000 v

/-- PWR_CTRL (R373): a hall in QUIET whose bit is cleared leaves it. -/
def State.writePwrCtrl (s : State) (v : Word) : State :=
  (((List.range 8).filter (fun h => !(bit v h))).foldl State.leaveQuiet s).storeReg 0x1001C v

/-- Does any stream hold a page (R236, R248)? -/
def State.holdsPage (s : State) : Bool :=
  s.parks.any (fun p => p.2.parked) ||
  s.streams.any (fun p => let d := p.2.kvDir
    decide (d ≠ 0) && (List.range (s.dirLayers d)).any (fun l => decide (s.dirTokens d l ≠ 0)))

/-- Writes in the fixed block that do more than store, or store elsewhere. Doorbells, CNT_VALUE, GLB_CTRL and the other writes with rows
of their own do nothing here. -/
def State.writeFixed (s : State) (fn o : Nat) (v : Word) : State :=
  if 0x50000 ≤ o ∧ o < 0x60000 then s.writeHost fn o v
  else if 0x80000 ≤ o ∧ o < 0x90000 then s.writeFab o v
  else if 0x90000 ≤ o ∧ o < 0x98000 then s.writeTier o v
  else match o with
  | 0x18 => s
  | 0x1001C => s.writePwrCtrl v
  | 0x78004 => s
  | 0x78008 =>
    let m := s.rfld 0x78000 15 12
    if bit v 0 && decide (m ≤ 8) then { s with counterSat := Tab.set false s.counterSat (cntKey m (s.rfld 0x78000 11 0)) false } else s
  | 0x98400 => s.storeReg o (if s.holdsPage then v &&& 0xFFFC0000#32 ||| s.reg o &&& 0x3FFFF#32 else v)
  | 0x98408 => if s.loads.isEmpty && !s.holdsPage then s.storeReg o v else s
  | 0xA100C => let f := s.fn fn
    s.setFn fn { f with snapView := v &&& 1#32 }
  | 0xA5000 => (s.storeReg o v).grant grantFuel
  | 0xA5020 => if (List.range 4096).all (fun k => (s.owner k).isNone) then s.storeReg o v else s
  | 0xB0000 => let f := s.fn fn
    s.setFn fn { f with nvAddr := v &&& 0x3FFFFC#32 }
  | 0xC0000 => s.writeTest v
  | _ => s.storeReg o v

/-- Does the management function alone write the register (R279)? RING_CFG's binding fields are apart. -/
def mgmtOnly (o : Nat) : Bool := match regDef o with | some r => r.mgmt | none => false

/-- A register write by function `fn` (R11, R279, R435). SUSPECT is not cleared from the host (R127). -/
def State.writeReg (s : State) (fn o : Nat) (v : Word) : State :=
  if !(s.fnPresent fn) || (mgmtOnly o && !(s.isMgmt fn)) || s.hallGone o then s
  else match regPlace o with
  | .gallery h g w => if (s.gal (galKey h g)).retired || decide (w = 0x64) then s else s.storeReg o v
  | .tmon d k w => s.writeTmon d k w v
  | .engine e w => s.writeEng e w v
  | .fixed w => s.writeFixed fn w v

/-- R282: what function `fn` reads in an access of `width` bytes: a 64-bit one acts as two 32-bit ones, and any that is not an aligned
32-bit or 64-bit access returns zero. -/
def State.readAccess (s : State) (fn off width : Nat) : DWord :=
  if width = 4 ∧ off % 4 = 0 then (s.readReg fn off).setWidth 64
  else if width = 8 ∧ off % 8 = 0 then (s.readReg fn (off + 4)).append (s.readReg fn off)
  else 0#64

/-- REGISTER_WRITE (R11, R282): a write of `width` bytes to registers without a row of their own. An aligned 64-bit access acts as two
32-bit ones, lower address first; any other access is ignored. -/
def execRegisterWrite (fn off v : Nat) (s : State) (width : Nat := 4) : Host.Outcome State Fault Refusal :=
  if width = 4 ∧ off % 4 = 0 then next (s.writeReg fn off (BitVec.ofNat 32 v))
  else if width = 8 ∧ off % 8 = 0 then next ((s.writeReg fn off (BitVec.ofNat 32 v)).writeReg fn (off + 4) (BitVec.ofNat 32 (v / 2 ^ 32)))
  else next s

end Sys2Proof.Machine
end

