-- ==== Sys2Proof/Machine/Dispatch.lean ====
section
/-! DEFINITION. The dispatch: one arm per constructor of Instr, each one direct call of its meaning. -/

namespace Sys2Proof.Machine

def exec (i : Instr) (s : State) : Host.Outcome State Fault Refusal :=
  match i with
  | .flightLaunch h g entry poster work => Sys2Proof.Machine.execFlightLaunch h g entry poster s work
  | .wake h g differ => Sys2Proof.Machine.execWake h g s differ
  | .armRef h g differ => Sys2Proof.Machine.execArmRef h g s differ
  | .remotePowerStepArrival => Sys2Proof.Machine.execRemotePowerStepArrival s
  | .sleep h g differ => Sys2Proof.Machine.execSleep h g s differ
  | .stage h g differ => Sys2Proof.Machine.execStage h g differ s
  | .eval h g differ => Sys2Proof.Machine.execEval h g differ s
  | .carry h g differ => Sys2Proof.Machine.execCarry h g differ s
  | .carrySegmentLoaded h g => Sys2Proof.Machine.execCarrySegmentLoaded h g s
  | .passWindowOpen h g => Sys2Proof.Machine.execPassWindowOpen h g s
  | .passCodesReady h g => Sys2Proof.Machine.execPassCodesReady h g s
  | .residualSumsReady h g => Sys2Proof.Machine.execResidualSumsReady h g s
  | .evalResultsReady h g => Sys2Proof.Machine.execEvalResultsReady h g s
  | .sequencerPairReset h g => Sys2Proof.Machine.execSequencerPairReset h g s
  | .flightRerun h g => Sys2Proof.Machine.execFlightRerun h g s
  | .land h g differ => Sys2Proof.Machine.execLand h g differ s
  | .close h g differ => Sys2Proof.Machine.execClose h g differ s
  | .chain h g differ => Sys2Proof.Machine.execChain h g differ s
  | .chainedPartialArrival h g => Sys2Proof.Machine.execChainedPartialArrival h g s
  | .tileDrainEnd h g tile => Sys2Proof.Machine.execTileDrainEnd h g tile s
  | .wait h g differ => Sys2Proof.Machine.execWait h g s differ
  | .waitTimeout h g => Sys2Proof.Machine.execWaitTimeout h g s
  | .signal h g differ => Sys2Proof.Machine.execSignal h g differ s
  | .fence h g differ => Sys2Proof.Machine.execFence h g s differ
  | .branchRoute h g differ => Sys2Proof.Machine.execBranchRoute h g s differ
  | .loop h g differ => Sys2Proof.Machine.execLoop h g s differ
  | .gap h g differ => Sys2Proof.Machine.execGap h g s differ
  | .gapEnd h g differ => Sys2Proof.Machine.execGapEnd h g s differ
  | .halt h g differ => Sys2Proof.Machine.execHalt h g s differ
  | .galleryReady h g => Sys2Proof.Machine.execGalleryReady h g s
  | .refReady h g => Sys2Proof.Machine.execRefReady h g s
  | .lightIdleExpiry h g => Sys2Proof.Machine.execLightIdleExpiry h g s
  | .deepIdleExpiry h g => Sys2Proof.Machine.execDeepIdleExpiry h g s
  | .budgetPeriodBoundary => Sys2Proof.Machine.execBudgetPeriodBoundary s
  | .surveyUnit h g => Sys2Proof.Machine.execSurveyUnit h g s
  | .focusTimeoutExpiry h g => Sys2Proof.Machine.execFocusTimeoutExpiry h g s
  | .maxAgeExpiry h g a => Sys2Proof.Machine.execMaxAgeExpiry h g a s
  | .initialSurvey h g => Sys2Proof.Machine.execInitialSurvey h g s
  | .marginEvaluation => Sys2Proof.Machine.execMarginEvaluation s
  | .scrubUnit h g => Sys2Proof.Machine.execScrubUnit h g s
  | .touchupRow h g => Sys2Proof.Machine.execTouchupRow h g s
  | .scanUnit h g diffs => Sys2Proof.Machine.execScanUnit h g diffs s
  | .scanRotationLate h g => Sys2Proof.Machine.execScanRotationLate h g s
  | .dmeJobPost desc task poster => Sys2Proof.Machine.execDmeJobPost desc task poster s
  | .dmeJobStart => Sys2Proof.Machine.execDmeJobStart s
  | .dmeJobEnd => Sys2Proof.Machine.execDmeJobEnd s
  | .fallback e => Sys2Proof.Machine.execFallback e s
  | .fallbackTrigger h g delay jobs => Sys2Proof.Machine.execFallbackTrigger h g delay jobs s
  | .fallbackStep c => Sys2Proof.Machine.execFallbackStep c s
  | .speDescriptorPost desc task poster => Sys2Proof.Machine.execSpeDescriptorPost desc task s poster
  | .gather => Sys2Proof.Machine.execGather s
  | .scatter => Sys2Proof.Machine.execScatter s
  | .segreduce => Sys2Proof.Machine.execSegreduce s
  | .topk => Sys2Proof.Machine.execTopk s
  | .intersect => Sys2Proof.Machine.execIntersect s
  | .route targets => Sys2Proof.Machine.execRoute targets s
  | .atlasLoad e => Sys2Proof.Machine.execAtlasLoad e s
  | .imageDataArrival c data => Sys2Proof.Machine.execImageDataArrival c data s
  | .programRow h g a => Sys2Proof.Machine.execProgramRow h g a s
  | .loadComplete c => Sys2Proof.Machine.execLoadComplete c s
  | .loadWaitExpiry c => Sys2Proof.Machine.execLoadWaitExpiry c s
  | .broadcastRxTimeout c => Sys2Proof.Machine.execBroadcastRxTimeout c s
  | .contextUnload e => Sys2Proof.Machine.execContextUnload e s
  | .rotationReprogram h g => Sys2Proof.Machine.execRotationReprogram h g s
  | .wearTableWrite => Sys2Proof.Machine.execWearTableWrite s
  | .vprogOffDelay => Sys2Proof.Machine.execVprogOffDelay s
  | .vprogPgTimeout => Sys2Proof.Machine.execVprogPgTimeout s
  | .attentionJobPost desc task => Sys2Proof.Machine.execAttentionJobPost desc task s
  | .attentionJobStart => Sys2Proof.Machine.execAttentionJobStart s
  | .decode => Sys2Proof.Machine.execDecode s
  | .prefill => Sys2Proof.Machine.execPrefill s
  | .backward => Sys2Proof.Machine.execBackward s
  | .attentionUnit => Sys2Proof.Machine.execAttentionUnit s
  | .pageFetchDone bad => Sys2Proof.Machine.execPageFetchDone bad s
  | .pageSpill => Sys2Proof.Machine.execPageSpill s
  | .parkComplete st => Sys2Proof.Machine.execParkComplete st s
  | .resumeComplete st => Sys2Proof.Machine.execResumeComplete st s
  | .parkExpiry st => Sys2Proof.Machine.execParkExpiry st s
  | .streamOpen e params input => Sys2Proof.Machine.execStreamOpen e params input s
  | .streamContinue e input => Sys2Proof.Machine.execStreamContinue e input s
  | .streamCancel e => Sys2Proof.Machine.execStreamCancel e s
  | .streamClose e => Sys2Proof.Machine.execStreamClose e s
  | .streamPark e => Sys2Proof.Machine.execStreamPark e s
  | .streamResume e => Sys2Proof.Machine.execStreamResume e s
  | .streamQuery e => Sys2Proof.Machine.execStreamQuery e s
  | .streamReadTokens e => Sys2Proof.Machine.execStreamReadTokens e s
  | .streamMirror e answer => Sys2Proof.Machine.execStreamMirror e answer s
  | .profileSet e => Sys2Proof.Machine.execProfileSet e s
  | .tokeniserLoad e => Sys2Proof.Machine.execTokeniserLoad e s
  | .prefillSchedule => Sys2Proof.Machine.execPrefillSchedule s
  | .samplerDraw st addr v => Sys2Proof.Machine.execSamplerDraw st addr v s
  | .shipmentAck st => Sys2Proof.Machine.execShipmentAck st s
  | .tokenLogAck st ordinal => Sys2Proof.Machine.execTokenLogAck st ordinal s
  | .mirrorHeartbeat => Sys2Proof.Machine.execMirrorHeartbeat s
  | .checkpointComplete st j cp => Sys2Proof.Machine.execCheckpointComplete st j cp s
  | .mirrorTimeout st => Sys2Proof.Machine.execMirrorTimeout st s
  | .doorbell fn ring value => Sys2Proof.Machine.execDoorbell fn ring value s
  | .submissionFetch ring entry => Sys2Proof.Machine.execSubmissionFetch ring entry s
  | .submissionReread ring => Sys2Proof.Machine.execSubmissionReread ring s
  | .nop e => Sys2Proof.Machine.execNop e s
  | .ringEnable fn on => Sys2Proof.Machine.execRingEnable fn on s
  | .ringResume fn => Sys2Proof.Machine.execRingResume fn s
  | .interruptTimer ring => Sys2Proof.Machine.execInterruptTimer ring s
  | .hostReset port func down => Sys2Proof.Machine.execHostReset port func s down
  | .coherentLineInvalidate addr => Sys2Proof.Machine.execCoherentLineInvalidate addr s
  | .directoryRequest line reqs writeBack => Sys2Proof.Machine.execDirectoryRequest line reqs writeBack s
  | .dmaStart e => Sys2Proof.Machine.execDmaStart e s
  | .dmaChannelPost n entry => Sys2Proof.Machine.execDmaChannelPost n entry s
  | .dmaChannelStart n => Sys2Proof.Machine.execDmaChannelStart n s
  | .dmaDescriptorArrival n data => Sys2Proof.Machine.execDmaDescriptorArrival n data s
  | .copy n data => Sys2Proof.Machine.execCopy n data s
  | .fill n => Sys2Proof.Machine.execFill n s
  | .dmaFence n => Sys2Proof.Machine.execDmaFence n s
  | .dmaSignal n => Sys2Proof.Machine.execDmaSignal n s
  | .dmaChannelEnd n => Sys2Proof.Machine.execDmaChannelEnd n s
  | .dmaResponseTimeout n kind => Sys2Proof.Machine.execDmaResponseTimeout n kind s
  | .dmaEngineDisable fn n => Sys2Proof.Machine.execDmaEngineDisable fn n s
  | .dmaEngineEnable fn n => Sys2Proof.Machine.execDmaEngineEnable fn n s
  | .dmaCqHeadWrite n v => Sys2Proof.Machine.execDmaCqHeadWrite n v s
  | .writeArrival k narrow => Sys2Proof.Machine.execWriteArrival k s narrow
  | .counterSet fn v => Sys2Proof.Machine.execCounterSet fn v s
  | .scratchpadBurstIssue m a n write sb narrow => Sys2Proof.Machine.execScratchpadBurstIssue m a n write sb s narrow
  | .patrolRead a result access => Sys2Proof.Machine.execPatrolRead a result s access
  | .memoryTrainingLost c parity => Sys2Proof.Machine.execMemoryTrainingLost c s parity
  | .nvmeCompletion cmd error => Sys2Proof.Machine.execNvmeCompletion cmd error s
  | .nvmeCommandTimeout cmd abortDone => Sys2Proof.Machine.execNvmeCommandTimeout cmd abortDone s
  | .driveReadyTimeout port => Sys2Proof.Machine.execDriveReadyTimeout port s
  | .driveRemoved port => Sys2Proof.Machine.execDriveRemoved port s
  | .dataFlit l ok vc som eom seq payload => Sys2Proof.Machine.execDataFlit l ok vc som eom seq payload s
  | .ack l seq => Sys2Proof.Machine.execAck l seq s
  | .nak l seq => Sys2Proof.Machine.execNak l seq s
  | .credit l vc n => Sys2Proof.Machine.execCredit l vc n s
  | .hello l pkg domain inc plink => Sys2Proof.Machine.execHello l pkg domain inc plink s
  | .reset l pkg inc => Sys2Proof.Machine.execReset l pkg inc s
  | .ackTimer l => Sys2Proof.Machine.execAckTimer l s
  | .helloTimer l => Sys2Proof.Machine.execHelloTimer l s
  | .linkSilenceTimeout l => Sys2Proof.Machine.execLinkSilenceTimeout l s
  | .linkTrainingRetry l => Sys2Proof.Machine.execLinkTrainingRetry l s
  | .advertTimer => Sys2Proof.Machine.execAdvertTimer s
  | .advert pkg inc seq links slots => Sys2Proof.Machine.execAdvert pkg inc seq links slots s
  | .write install => Sys2Proof.Machine.execWrite install s
  | .mail mail => Sys2Proof.Machine.execMail mail s
  | .bcast => Sys2Proof.Machine.execBcast s
  | .linkReenable fn => Sys2Proof.Machine.execLinkReenable fn s
  | .linkHold fn => Sys2Proof.Machine.execLinkHold fn s
  | .vddAonGood => Sys2Proof.Machine.execVddAonGood s
  | .aonOn straps => Sys2Proof.Machine.execAonOn straps s
  | .vddAonLoss => Sys2Proof.Machine.execVddAonLoss s
  | .mainOkRise => Sys2Proof.Machine.execMainOkRise s
  | .mainOkFall => Sys2Proof.Machine.execMainOkFall s
  | .handoverEnd dur written wear => Sys2Proof.Machine.execHandoverEnd dur written wear s
  | .mainOkStable => Sys2Proof.Machine.execMainOkStable s
  | .powerGoodRise r => Sys2Proof.Machine.execPowerGoodRise r s
  | .railSettleDelay => Sys2Proof.Machine.execRailSettleDelay s
  | .railPgTimeout => Sys2Proof.Machine.execRailPgTimeout s
  | .powerGoodFall r => Sys2Proof.Machine.execPowerGoodFall r s
  | .railOffTimeout => Sys2Proof.Machine.execRailOffTimeout s
  | .crystalEdgeTimeout => Sys2Proof.Machine.execCrystalEdgeTimeout s
  | .pllLocked => Sys2Proof.Machine.execPllLocked s
  | .pllLockTimeout locked => Sys2Proof.Machine.execPllLockTimeout locked s
  | .bistDone found => Sys2Proof.Machine.execBistDone found s
  | .wakeStepTimeout => Sys2Proof.Machine.execWakeStepTimeout s
  | .surveyBaselineDone failed => Sys2Proof.Machine.execSurveyBaselineDone failed s
  | .wakeRetryDelay => Sys2Proof.Machine.execWakeRetryDelay s
  | .perstDeassert port speed width cxl => Sys2Proof.Machine.execPerstDeassert port speed width cxl s
  | .retry => Sys2Proof.Machine.execRetry s
  | .handover fn => Sys2Proof.Machine.execHandover fn s
  | .smbReadPwrStatus => Sys2Proof.Machine.execSmbReadPwrStatus s
  | .smbReadPwrFail => Sys2Proof.Machine.execSmbReadPwrFail s
  | .smbReadPwrRails => Sys2Proof.Machine.execSmbReadPwrRails s
  | .smbReadPwrBoot => Sys2Proof.Machine.execSmbReadPwrBoot s
  | .smbReadIncarnation => Sys2Proof.Machine.execSmbReadIncarnation s
  | .coreClockChange => Sys2Proof.Machine.execCoreClockChange s
  | .timebaseTick diffs => Sys2Proof.Machine.execTimebaseTick diffs s
  | .hallPllRelock h => Sys2Proof.Machine.execHallPllRelock h s
  | .tmonRequest fn d k v => Sys2Proof.Machine.execTmonRequest fn d k v s
  | .tmonUrgentRequest fn d k v running => Sys2Proof.Machine.execTmonUrgentRequest fn d k v running s
  | .vrAlert running => Sys2Proof.Machine.execVrAlert running s
  | .tmonConversionDone d k raw => Sys2Proof.Machine.execTmonConversionDone d k raw s
  | .tmonScan codes => Sys2Proof.Machine.execTmonScan codes s
  | .tmonCrosscheck codes => Sys2Proof.Machine.execTmonCrosscheck codes s
  | .crosscheckRepeat codes => Sys2Proof.Machine.execCrosscheckRepeat codes s
  | .tmonRefEnable fn d k => Sys2Proof.Machine.execTmonRefEnable fn d k s
  | .tmonRefReady d k => Sys2Proof.Machine.execTmonRefReady d k s
  | .zero fn d k g raws => Sys2Proof.Machine.execZero fn d k g raws s
  | .full fn d k g raws => Sys2Proof.Machine.execFull fn d k g raws s
  | .save fn d k => Sys2Proof.Machine.execSave fn d k s
  | .tmonCalDone d k => Sys2Proof.Machine.execTmonCalDone d k s
  | .thermalModelUpdate => Sys2Proof.Machine.execThermalModelUpdate s
  | .throttleExit => Sys2Proof.Machine.execThrottleExit s
  | .inletHoldExpiry => Sys2Proof.Machine.execInletHoldExpiry s
  | .diagnostic h g request retire => Sys2Proof.Machine.execDiagnostic h g s request retire
  | .diagnosticEnd h g shared failed => Sys2Proof.Machine.execDiagnosticEnd h g shared failed s
  | .stepReplay st cause layer => Sys2Proof.Machine.execStepReplay st cause layer s
  | .spWatchdogTimeout n => Sys2Proof.Machine.execSpWatchdogTimeout n s
  | .mpHeartbeat => Sys2Proof.Machine.execMpHeartbeat s
  | .mpHeartbeatTimeout => Sys2Proof.Machine.execMpHeartbeatTimeout s
  | .snapshot e => Sys2Proof.Machine.execSnapshot e s
  | .snapshotLatch => Sys2Proof.Machine.execSnapshotLatch s
  | .sramMarch fn => Sys2Proof.Machine.execSramMarch fn s
  | .tierMarch fn => Sys2Proof.Machine.execTierMarch fn s
  | .loopback fn => Sys2Proof.Machine.execLoopback fn s
  | .reference fn => Sys2Proof.Machine.execReference fn s
  | .scan fn => Sys2Proof.Machine.execScan fn s
  | .link fn => Sys2Proof.Machine.execLink fn s
  | .tmon fn => Sys2Proof.Machine.execTmon fn s
  | .testEnd failed => Sys2Proof.Machine.execTestEnd failed s
  | .nvlogDataRead fn => Sys2Proof.Machine.execNvlogDataRead fn s
  | .tbLoRead => Sys2Proof.Machine.execTbLoRead s
  | .registerWrite fn off v width => Sys2Proof.Machine.execRegisterWrite fn off v s width
  | .cxlMemRequest off data => Sys2Proof.Machine.execCxlMemRequest off data s
  | .memoryTemperatureReport mem unit hot => Sys2Proof.Machine.execMemoryTemperatureReport mem unit hot s
  | .linkTrainingEnd l lanes pkg domain inc plink => Sys2Proof.Machine.execLinkTrainingEnd l lanes pkg domain inc plink s
  | .crystalRuns => Sys2Proof.Machine.execCrystalRuns s
  | .crosscheckNoResult d k other => Sys2Proof.Machine.execCrosscheckNoResult d k other s

end Sys2Proof.Machine
end

