-- ==== Sys2Proof/WellFormed.lean ====
section
/-! DEFINITION. Well-formed commands: every unit, stream, ring, link or channel a command names exists, and what comes from outside has
the width its field has. A command that is not well-formed has no counterpart on the hardware. -/

namespace Sys2Proof

/-- Hall and gallery (R434). -/
def wfGal (h g : Nat) : Bool := decide (h < 8) && decide (g < 512)
/-- Hall, gallery and array. -/
def wfArr (h g a : Nat) : Bool := wfGal h g && decide (a < 32)
/-- One of the four PCIe functions (R279). -/
def wfFn (fn : Nat) : Bool := decide (fn < 4)
def wfFnOpt (fn : Option Nat) : Bool := match fn with | some f => wfFn f | none => true
/-- A ring (R283). -/
def wfRing (n : Nat) : Bool := decide (n < 8192)
/-- A submission entry of a command: its ring, its index, its opcode (R290). -/
def wfEntry (e : SubEntry) (op : Nat) : Bool := wfRing e.sq && decide (e.index < 65536) && decide (e.bytes.toNat % 256 = op)
/-- A context (R156). -/
def wfCtx (c : Nat) : Bool := decide (c < 64)
/-- A task: a context, or 64 for management (R327). -/
def wfTask (t : Nat) : Bool := decide (t ≤ 64)
/-- A stream (R250). -/
def wfStream (st : Nat) : Bool := decide (st < 65536)
/-- A DMA engine (R307). -/
def wfEngine (n : Nat) : Bool := decide (n < 96)
/-- A link (R347). -/
def wfLink (l : Nat) : Bool := decide (l < 96)
/-- A package and an incarnation (R353). -/
def wfPkg (p inc : Nat) : Bool := decide (p < 4096) && decide (inc < 65536)
/-- A telemetry converter: die and converter (R388). -/
def wfConv (d k : Nat) : Bool := decide (d < 11) && decide (k < 2)
/-- A raw code of a telemetry conversion (R390). -/
def wfRaw (x : Int) : Bool := decide (-2048 ≤ x) && decide (x ≤ 4095)
/-- A 32-bit register value. -/
def wfWord (v : Nat) : Bool := decide (v < 2 ^ 32)
/-- A sequence number of a link (R350). -/
def wfSeq (q : Nat) : Bool := decide (q < 4096)
/-- An NVMe command: root port, volume, at least a block, within a stripe (R339, R341). -/
def wfNvme (c : NvmeCmd) : Bool :=
  decide (c.port < 8) && decide (c.vol < 8) && decide (0 < c.blocks) && decide (c.lba / 32 = (c.lba + c.blocks - 1) / 32)
/-- A context, where an access has one (R344). -/
def wfAccess (x : Option (Option Nat)) : Bool := match x with | some (some c) => decide (c < 64) | _ => true
/-- A narrow access: 8 bytes, aligned (R323). -/
def wfNarrow (x : NarrowAccess) : Bool := decide (x.addr % 8 = 0) && (match x.store with | some bs => decide (bs.length = 8) | none => true)
/-- Rail index (R364). -/
def wfRail (r : Nat) : Bool := decide (r < 8)

/-- Is the command well-formed? -/
def Instr.wf (i : Instr) : Bool :=
  match i with
  | .flightLaunch h g _ _ _ => wfGal h g
  | .wake h g _ => wfGal h g
  | .armRef h g _ => wfGal h g
  | .remotePowerStepArrival => true
  | .sleep h g _ => wfGal h g
  | .stage h g _ => wfGal h g
  | .eval h g _ => wfGal h g
  | .carry h g _ => wfGal h g
  | .carrySegmentLoaded h g => wfGal h g
  | .passWindowOpen h g => wfGal h g
  | .passCodesReady h g => wfGal h g
  | .residualSumsReady h g => wfGal h g
  | .evalResultsReady h g => wfGal h g
  | .sequencerPairReset h g => wfGal h g
  | .flightRerun h g => wfGal h g
  | .land h g _ => wfGal h g
  | .close h g _ => wfGal h g
  | .chain h g _ => wfGal h g
  | .chainedPartialArrival h g => wfGal h g
  | .tileDrainEnd h g tile => wfGal h g && decide (tile < 2)
  | .wait h g _ => wfGal h g
  | .waitTimeout h g => wfGal h g
  | .signal h g _ => wfGal h g
  | .fence h g _ => wfGal h g
  | .branchRoute h g _ => wfGal h g
  | .loop h g _ => wfGal h g
  | .gap h g _ => wfGal h g
  | .gapEnd h g _ => wfGal h g
  | .halt h g _ => wfGal h g
  | .galleryReady h g => wfGal h g
  | .refReady h g => wfGal h g
  | .lightIdleExpiry h g => wfGal h g
  | .deepIdleExpiry h g => wfGal h g
  | .budgetPeriodBoundary => true
  | .surveyUnit h g => wfGal h g
  | .focusTimeoutExpiry h g => wfGal h g
  | .maxAgeExpiry h g a => wfArr h g a
  | .initialSurvey h g => wfGal h g
  | .marginEvaluation => true
  | .scrubUnit h g => wfGal h g
  | .touchupRow h g => wfGal h g
  | .scanUnit h g diffs => wfGal h g && decide (diffs ≤ 2)
  | .scanRotationLate h g => wfGal h g
  | .dmeJobPost _ task _ => wfTask task
  | .dmeJobStart => true
  | .dmeJobEnd => true
  | .fallback e => wfEntry e 0x24
  | .fallbackTrigger h g delay _ => wfGal h g && decide (delay ≤ us 2)
  | .fallbackStep c => wfCtx c
  | .speDescriptorPost _ task _ => wfTask task
  | .gather => true
  | .scatter => true
  | .segreduce => true
  | .topk => true
  | .intersect => true
  | .route targets => targets.all (fun k => decide (k < 4096))
  | .atlasLoad e => wfEntry e 0x21
  | .imageDataArrival c data => wfCtx c && decide (0 < data.length)
  | .programRow h g a => wfArr h g a
  | .loadComplete c => wfCtx c
  | .loadWaitExpiry c => wfCtx c
  | .broadcastRxTimeout c => wfCtx c
  | .contextUnload e => wfEntry e 0x22
  | .rotationReprogram h g => wfGal h g
  | .wearTableWrite => true
  | .vprogOffDelay => true
  | .vprogPgTimeout => true
  | .attentionJobPost _ task => wfTask task
  | .attentionJobStart => true
  | .decode => true
  | .prefill => true
  | .backward => true
  | .attentionUnit => true
  | .pageFetchDone _ => true
  | .pageSpill => true
  | .parkComplete st => wfStream st
  | .resumeComplete st => wfStream st
  | .parkExpiry st => wfStream st
  | .streamOpen e _ _ => wfEntry e 0x10
  | .streamContinue e _ => wfEntry e 0x11
  | .streamCancel e => wfEntry e 0x12
  | .streamClose e => wfEntry e 0x13
  | .streamPark e => wfEntry e 0x14
  | .streamResume e => wfEntry e 0x15
  | .streamQuery e => wfEntry e 0x16
  | .streamReadTokens e => wfEntry e 0x17
  | .streamMirror e _ => wfEntry e 0x18
  | .profileSet e => wfEntry e 0x20
  | .tokeniserLoad e => wfEntry e 0x23
  | .prefillSchedule => true
  | .samplerDraw st _ v => wfStream st && decide (0 < v)
  | .shipmentAck st => wfStream st
  | .tokenLogAck st ordinal => wfStream st && decide (ordinal < 2 ^ 21)
  | .mirrorHeartbeat => true
  | .checkpointComplete st j _ => wfStream st && decide (j < 2)
  | .mirrorTimeout st => wfStream st
  | .doorbell fn ring value => wfFn fn && wfRing ring && wfWord value
  | .submissionFetch ring _ => wfRing ring
  | .submissionReread ring => wfRing ring
  | .nop e => wfEntry e 0x00
  | .ringEnable fn _ => wfFn fn
  | .ringResume fn => wfFn fn
  | .interruptTimer ring => wfRing ring
  | .hostReset port func _ => decide (port < 2) && (match func with | some f => decide (f < 2) | none => true)
  | .coherentLineInvalidate addr => decide (addr < 2 ^ 64)
  | .directoryRequest line reqs wb => decide (line < 0x1800000) && reqs.all (fun r => decide (r.port < 34) && r.stores.all (fun b => decide (b.1 < 64))) &&
      (match wb with | some p => decide (p < 34) | none => true)
  | .dmaStart e => wfEntry e 0x31
  | .dmaChannelPost n _ => wfEngine n
  | .dmaChannelStart n => wfEngine n
  | .dmaDescriptorArrival n _ => wfEngine n
  | .copy n _ => wfEngine n
  | .fill n => wfEngine n
  | .dmaFence n => wfEngine n
  | .dmaSignal n => wfEngine n
  | .dmaChannelEnd n => wfEngine n
  | .dmaResponseTimeout n kind => wfEngine n && decide (kind < 3)
  | .dmaEngineDisable fn n => wfFn fn && wfEngine n
  | .dmaEngineEnable fn n => wfFn fn && wfEngine n
  | .dmaCqHeadWrite n v => wfEngine n && decide (v < 65536)
  | .writeArrival _ narrow => narrow.all wfNarrow
  | .counterSet fn v => wfFn fn && wfWord v
  | .scratchpadBurstIssue m _ n _ _ narrow => decide (m < 9) && decide (0 < n) && narrow.all wfNarrow
  | .patrolRead a result access => decide (a < 2 ^ 64) && decide (result < 3) && wfAccess access
  | .memoryTrainingLost c _ => decide (c < 16)
  | .nvmeCompletion cmd _ => wfNvme cmd
  | .nvmeCommandTimeout cmd _ => wfNvme cmd
  | .driveReadyTimeout port => decide (port < 8)
  | .driveRemoved port => decide (port < 8)
  | .dataFlit l _ vc _ _ seq payload => wfLink l && decide (vc < 3) && wfSeq seq && decide (payload.length ≤ 496)
  | .ack l seq => wfLink l && wfSeq seq
  | .nak l seq => wfLink l && wfSeq seq
  | .credit l vc n => wfLink l && decide (vc < 3) && decide (n < 65536)
  | .hello l pkg domain inc plink => wfLink l && wfPkg pkg inc && wfWord domain && decide (plink < 128)
  | .reset l pkg inc => wfLink l && wfPkg pkg inc
  | .ackTimer l => wfLink l
  | .helloTimer l => wfLink l
  | .linkSilenceTimeout l => wfLink l
  | .linkTrainingRetry l => wfLink l
  | .advertTimer => true
  | .advert pkg inc _ links _ => wfPkg pkg inc && links.all (fun p => decide (p.1 < 128) && decide (p.2 < 4096))
  | .write _ => true
  | .mail _ => true
  | .bcast => true
  | .linkReenable fn => wfFn fn
  | .linkHold fn => wfFn fn
  | .vddAonGood => true
  | .aonOn straps => decide (straps < 8)
  | .vddAonLoss => true
  | .mainOkRise => true
  | .mainOkFall => true
  | .handoverEnd dur _ _ => decide (dur ≤ 1100)
  | .mainOkStable => true
  | .powerGoodRise r => wfRail r
  | .railSettleDelay => true
  | .railPgTimeout => true
  | .powerGoodFall r => wfRail r
  | .railOffTimeout => true
  | .crystalEdgeTimeout => true
  | .pllLocked => true
  | .pllLockTimeout locked => decide (locked < 2 ^ 29)
  | .bistDone _ => true
  | .wakeStepTimeout => true
  | .surveyBaselineDone failed => failed.all (fun k => decide (k < 4096))
  | .wakeRetryDelay => true
  | .perstDeassert port speed width _ => decide (port < 2) && decide (speed ≤ 6) && decide (width < 32)
  | .retry => true
  | .handover fn => wfFnOpt fn
  | .smbReadPwrStatus => true
  | .smbReadPwrFail => true
  | .smbReadPwrRails => true
  | .smbReadPwrBoot => true
  | .smbReadIncarnation => true
  | .coreClockChange => true
  | .timebaseTick _ => true
  | .hallPllRelock h => decide (h < 8)
  | .tmonRequest fn d k v => wfFnOpt fn && wfConv d k && wfWord v
  | .tmonUrgentRequest fn d k v _ => wfFnOpt fn && wfConv d k && wfWord v
  | .vrAlert running => running.all (fun x => decide (x < 22))
  | .tmonConversionDone d k raw => wfConv d k && wfRaw raw
  | .tmonScan codes => codes.all (fun p => p.2.2.all wfRaw)
  | .tmonCrosscheck codes => codes.all (fun p => p.2.2.all wfRaw)
  | .crosscheckRepeat codes => codes.all (fun p => p.2.2.all wfRaw)
  | .tmonRefEnable fn d k => wfFn fn && wfConv d k
  | .tmonRefReady d k => wfConv d k
  | .zero fn d k g raws => wfFn fn && wfConv d k && decide (g < 4) && raws.all wfRaw
  | .full fn d k g raws => wfFn fn && wfConv d k && decide (g < 4) && raws.all wfRaw
  | .save fn d k => wfFn fn && wfConv d k
  | .tmonCalDone d k => wfConv d k
  | .thermalModelUpdate => true
  | .throttleExit => true
  | .inletHoldExpiry => true
  | .diagnostic h g _ retire => wfGal h g && decide (retire < 2 ^ 32)
  | .diagnosticEnd h g _ failed => wfGal h g && failed.all (fun p => decide (p.1 < 32) && (match p.2 with | some c => decide (c < 16) | none => true))
  | .stepReplay st cause _ => wfStream st && decide (cause < 3)
  | .spWatchdogTimeout n => decide (n < 32)
  | .mpHeartbeat => true
  | .mpHeartbeatTimeout => true
  | .snapshot e => wfEntry e 0x30
  | .snapshotLatch => true
  | .sramMarch fn => wfFn fn
  | .tierMarch fn => wfFn fn
  | .loopback fn => wfFn fn
  | .reference fn => wfFn fn
  | .scan fn => wfFn fn
  | .link fn => wfFn fn
  | .tmon fn => wfFn fn
  | .testEnd _ => true
  | .nvlogDataRead fn => wfFn fn
  | .tbLoRead => true
  | .registerWrite fn off v width => wfFn fn && decide (off < 2 ^ 24) && decide (1 ≤ width ∧ width ≤ 64) && decide (v < 2 ^ (8 * width))
  | .cxlMemRequest _ data => match data with | some bs => decide (bs.length = 64) | none => true
  | .memoryTemperatureReport mem unit _ => decide (mem = 9 ∧ unit < 8 ∨ mem = 10 ∧ unit < 16)
  | .linkTrainingEnd l lanes pkg domain inc plink => wfLink l && decide (lanes ≤ 2) && wfPkg pkg inc && wfWord domain && decide (plink < 128)
  | .crystalRuns => true
  | .crosscheckNoResult d k other => wfConv d k && (match other with | some x => wfRaw x | none => true)

end Sys2Proof
end

