-- ==== Sys2Proof/Safety.lean ====
section
/-! DEFINITION. What the claims about the machine are stated in: completion of a command, what stays as it was, the invariant of the
state, a step of a flight that is about to issue. -/

namespace Sys2Proof.Machine

/-- The command answers a next state, and that state satisfies `P`. -/
def Completes (c : Instr) (s : State) (P : State → Prop) : Prop := ∃ t, exec c s = .next t ∧ P t

/-- The command leaves the state as it was. -/
def NoEffect (c : Instr) (s : State) : Prop := exec c s = .next s

/-- Every gallery but `k` is as it was. -/
def OtherGalleries (k : Nat) (s t : State) : Prop := ∀ j, j ≠ k → t.gal j = s.gal j

/-- Every shared register outside `os` holds what it held. -/
def OtherRegisters (os : List Nat) (s t : State) : Prop := ∀ o, o ∉ os → t.reg o = s.reg o

/-- Every byte of device memory outside `n` bytes from `a` reads as before. -/
def OtherBytes (a n : Nat) (s t : State) : Prop := ∀ x, (x < a ∨ a + n ≤ x) → t.byte x = s.byte x

/-- The canonical forms of device memory, its marks and counters, of the bytes written to the host, of the NV log region, and of the
tables of registers, galleries, rings and arrays. -/
def State.Inv (s : State) : Prop :=
  Memory.wf s.mem = true ∧ Memory.wf s.hostMem = true ∧ NvLog.wf s.nv = true ∧ Tab.wf false s.marks = true ∧
  Tab.wf 0 s.counters = true ∧ Tab.wfBy regReset s.bar0 = true ∧ Tab.wf Gallery.reset s.galleries = true ∧
  Tab.wf Ring.reset s.rings = true ∧ Tab.wf ArrayState.reset s.arrays = true

/-- Every command that waits is well-formed. -/
def State.QueueOk (s : State) : Prop := ∀ c, c ∈ s.pending → c.wf = true

/-- The sequencers of gallery `k` issue the step `w` of opcode `op` of its flight `f`: the gallery is READY, no GAP, reset or re-run is in
progress, the step's line is readable and the step is defined (R71, R78). -/
def Issues (s : State) (k op : Nat) (f : Flight) (w : StepWord) : Prop :=
  (s.gal k).issuing = true ∧ (s.gal k).flight = some f ∧ s.stepWord (k / 512) f.pc = some w ∧ stepOk w = true ∧ StepWord.op w = op

/-- Instant at which that step issues (R78). -/
def issueInstant (s : State) (f : Flight) : Nat := max s.now f.issueAt

/-- At instant `u` gallery `k` becomes `g`, and nothing else changes. -/
def GalleryBecomes (k : Nat) (g : Gallery) (u : Nat) (s t : State) : Prop :=
  t.now = u ∧ t.gal k = g ∧ OtherGalleries k s t ∧ t = { s with now := t.now, galleries := t.galleries }

/-- The flight as the step of `f` that issues now leaves it: `f'`, with the next step one hall cycle on (R78). -/
def stepped (s : State) (f f' : Flight) : Flight := { f' with issueAt := issueInstant s f + hallCycles 1, waitSince := none }

/-- The step of `f` issues and moves the flight of gallery `k` to `f'`; nothing else changes. -/
def FlightMoves (k : Nat) (f f' : Flight) (s t : State) : Prop :=
  GalleryBecomes k { s.gal k with flight := some (stepped s f f') } (issueInstant s f) s t

/-- The flight `f` of gallery `k` ends with a status at instant `u`: its completion record and the increment of its counter are on their way
to the central store (R76), GAL_FLIGHTS counts it, what the gallery held for the flight is discarded (R77), and what it sent and has not
arrived still arrives, for no later flight of the gallery (R84, R85); nothing outside the gallery changes otherwise. -/
def FlightEnds (k : Nat) (f : Flight) (status u : Nat) (s t : State) : Prop :=
  t.now = u ∧ (t.gal k).flight = none ∧ (t.gal k).evals = [] ∧ (t.gal k).slots = [none, none] ∧ (t.gal k).closing = none ∧
  (if status = stOk then (t.gal k).groups = (s.gal k).groups ∧ (t.gal k).inbox = (s.gal k).inbox
    else (t.gal k).groups = [] ∧ (t.gal k).inbox = []) ∧
  (∃ w : PendWrite, t.writes = (s.releaseOutbound k).writes ++ [w] ∧ w.owner = .gallery k ∧ w.outbound = false ∧
    w.due = u + hallWriteLatency (k / 512) 8 ∧
    w.parts = [(centralBase + 64 * f.launch.compAddr,
      completion16 f.launch.tag status f.rerun f.lateArm f.passes ({ s with now := u } : State).time)] ∧
    w.incs = [{ key := cntKey 8 f.launch.compCounter, amount := 1 }]) ∧
  t.partials = (s.releaseOutbound k).partials ∧
  t.reg (galReg k 0x1C) = s.reg (galReg k 0x1C) + 1#32 ∧ OtherRegisters [galReg k 0x1C] s t ∧ OtherGalleries k s t ∧
  t = { s with now := t.now, galleries := t.galleries, bar0 := t.bar0, writes := t.writes, partials := t.partials, nextId := t.nextId }

end Sys2Proof.Machine
end

