-- ==== Sys2Proof/Certificates/Slice0/Obligations.lean ====
section
/-! DEFINITION. The statements for the provers: what each family of commands does, as claims, and the obligations made of them. -/

open Sys2Proof Sys2Proof.Machine

/-- The gallery when a WAKE or ARM_REF takes effect at instant `u` (R73). -/
def Sys2Proof.Claims.powered (g : Gallery) (arm : Bool) (u : Nat) : Gallery :=
  match g.power, arm with
  | .deep, false => { g with power := .waking, wakeDue := some (u + ns 400) }
  | .deep, true => { g with power := .waking, wakeDue := some (u + ns 400), armHeld := true }
  | .waking, false => g
  | .waking, true => { g with armHeld := true }
  | .light, false => { g with wakeDue := some (g.wakeDue.getD (u + ns 40)) }
  | .light, true => { g with refOn := some (g.refOn.getD u) }
  | .ready, false => g
  | .ready, true => { g with refOn := some (g.refOn.getD u) }

/-- Every stream but `st` is as it was. -/
def Sys2Proof.Claims.otherStreams (st : Nat) (s t : State) : Prop := ∀ i, i ≠ st → t.stream i = s.stream i

/-- Every ring but `n` is as it was. -/
def Sys2Proof.Claims.otherRings (n : Nat) (s t : State) : Prop := ∀ i, i ≠ n → t.ring i = s.ring i

/-- Every engine but `n` is as it was. -/
def Sys2Proof.Claims.otherEngines (n : Nat) (s t : State) : Prop := ∀ i, i ≠ n → t.eng i = s.eng i

/-- R82, R83, R79, R85: BRANCH_ROUTE skips SKIP steps exactly when the route bit equals SENSE; SLEEP notes its level; GAP idles the
gallery for LENGTH ns, ends the run, and GAP_END lets the flight continue; a FENCE whose conditions hold moves on, one whose conditions
do not hold leaves the gallery as it is. Nothing but the gallery and the clock changes. -/
def Sys2Proof.Claims.ControlFlowSteps : Prop :=
  ∀ (s : State) (h g : Nat) (f : Flight) (w : StepWord),
    (Issues s (galKey h g) opBranch f w → Completes (.branchRoute h g false) s fun t => FlightMoves (galKey h g) f
      { f with pc := f.pc + 1 + (if f.launch.route.getLsbD (fld w 121 116) = bit w 115 then fld w 114 99 else 0) } s t) ∧
    (Issues s (galKey h g) opSleep f w → Completes (.sleep h g false) s fun t => FlightMoves (galKey h g) f
      { f with pc := f.pc + 1, sleep := some (bit w 121) } s t) ∧
    (Issues s (galKey h g) opGap f w → Completes (.gap h g false) s fun t => GalleryBecomes (galKey h g)
      { s.gal (galKey h g) with breaks := (s.gal (galKey h g)).breaks + 1, flight := some (stepped s f
        { f with pc := f.pc + 1, gapEnd := some (issueInstant s f + ns (fld w 121 106)) }) } (issueInstant s f) s t) ∧
    (∀ u, (s.gal (galKey h g)).flight = some f → f.gapEnd = some u → Completes (.gapEnd h g false) s fun t => GalleryBecomes (galKey h g)
      { s.gal (galKey h g) with flight := some { f with gapEnd := none, issueAt := max s.now u + hallCycles 1 } } (max s.now u) s t) ∧
    (Issues s (galKey h g) opFence f w → (bit w 121 = true → s.outboundPending (galKey h g) = false) →
      (bit w 120 = true → (s.gal (galKey h g)).passesDone = true) →
      Completes (.fence h g false) s fun t =>
        let u := if bit w 119 then max (issueInstant s f) (s.gal (galKey h g)).landUntil else issueInstant s f
        GalleryBecomes (galKey h g) { s.gal (galKey h g) with
          flight := some { f with pc := f.pc + 1, issueAt := u + hallCycles 1, waitSince := none } } u s t) ∧
    (Issues s (galKey h g) opFence f w → (bit w 121 = true ∧ s.outboundPending (galKey h g) = true) ∨
        (bit w 120 = true ∧ (s.gal (galKey h g)).passesDone = false) →
      Completes (.fence h g false) s fun t => GalleryBecomes (galKey h g) (s.gal (galKey h g)) (issueInstant s f) s t)

/-- R82: a LOOP at an inactive level starts it with COUNT_M1 runs to come; while runs remain the flight goes back BACK steps and the
index rises by one; otherwise the level becomes inactive with index 0 and the flight falls through. -/
def Sys2Proof.Claims.LoopStep : Prop :=
  ∀ (s : State) (h g : Nat) (f : Flight) (w : StepWord) (l : LoopLevel), Issues s (galKey h g) opLoop f w →
    f.loops[fld w 121 120]? = some l →
    let left := if l.active then l.remaining else fld w 119 104
    let idx := if l.active then l.idx else 0
    Completes (.loop h g false) s fun t => FlightMoves (galKey h g) f
      (if 0 < left then
        { f with pc := f.pc - fld w 103 88,
                 loops := f.loops.set (fld w 121 120) { active := true, remaining := left - 1, idx := idx + 1 } }
      else { f with pc := f.pc + 1, loops := f.loops.set (fld w 121 120) { active := false, remaining := 0, idx := 0 } }) s t

/-- The level of a loop after `n` executions of its LOOP step with COUNT_M1 = `count`, from an inactive level, and whether each of
these executions went back. -/
def Sys2Proof.Claims.loopRuns (count : Nat) : Nat → LoopLevel × List Bool
  | 0 => (LoopLevel.reset, [])
  | n + 1 => ((loopStep (loopRuns count n).1 count).1, (loopRuns count n).2 ++ [(loopStep (loopRuns count n).1 count).2])

/-- R82: the body runs COUNT_M1 + 1 times, with index k − 1 during the k-th run: the LOOP step goes back at its first COUNT_M1
executions, each of them leaving the index one higher, and falls through at the next, leaving the level as at reset. -/
def Sys2Proof.Claims.LoopBodyRunsCountPlusOne : Prop :=
  ∀ count k : Nat,
    (k ≤ count → (Sys2Proof.Claims.loopRuns count k).2 = List.replicate k true ∧
      (0 < k → (Sys2Proof.Claims.loopRuns count k).1 = { active := true, remaining := count - k, idx := k })) ∧
    Sys2Proof.Claims.loopRuns count (count + 1) = (LoopLevel.reset, List.replicate count true ++ [false])

/-- R73, R74, R79: a WAKE (or an ARM_REF) moves its flight on at once. Its DIST selects whether it acts at all. With no delay and no
other gallery as its target it acts on its own gallery now; otherwise it is under way until DELAY ns after issue plus 8 ns within a
hall and 40 ns to another hall. -/
def Sys2Proof.Claims.PowerSteps : Prop :=
  ∀ (s : State) (h g : Nat) (f : Flight) (w : StepWord) (arm : Bool),
    Issues s (galKey h g) (if arm then opArmRef else opWake) f w →
    let k := galKey h g
    let f' := { f with pc := f.pc + 1, issueAt := issueInstant s f + hallCycles 1 }
    let due := issueInstant s f + (if bit w 121 then (if fld w 120 118 = k / 512 then ns 8 else ns 40) else 0) + ns (fld w 106 91)
    Completes (if arm then .armRef h g false else .wake h g false) s fun t =>
      if fld w 108 107 = 0 ∨ fld w 108 107 = s.rfld (galReg k 0x08) 1 0 then
        if bit w 121 = false ∧ fld w 106 91 = 0 then
          GalleryBecomes k { Sys2Proof.Claims.powered (s.gal k) arm (issueInstant s f) with flight := some f' } (issueInstant s f) s t
        else
          t.powerSteps = s.powerSteps ++
            [{ target := if bit w 121 then galKey (fld w 120 118) (fld w 117 109) else k, arm := arm, due := due }] ∧
          GalleryBecomes k { s.gal k with flight := some f' } (issueInstant s f) s { t with powerSteps := s.powerSteps }
      else GalleryBecomes k { s.gal k with flight := some f' } (issueInstant s f) s t

/-- R73, R79: the power step that is due first reaches its target and takes effect there; no other gallery and no other power step
changes. -/
def Sys2Proof.Claims.PowerStepArrives : Prop :=
  ∀ (s : State) (p : PowerStep), p ∈ s.powerSteps → (∀ q, q ∈ s.powerSteps → q = p ∨ p.due < q.due) →
    Completes .remotePowerStepArrival s fun t =>
      t.powerSteps = s.powerSteps.erase p ∧
      GalleryBecomes p.target (Sys2Proof.Claims.powered (s.gal p.target) p.arm (max s.now p.due)) (max s.now p.due) s
        { t with powerSteps := s.powerSteps }

/-- R59, R72, R73: the timed power events of a gallery with an empty queue and no flight, each at its instant: a waking gallery is READY,
and a held ARM_REF turns its buffer on; the buffer is warm 2 µs after it came on; an idle READY gallery enters LIGHT after LIGHT_IDLE µs
with its buffer on; a LIGHT gallery whose landing is empty enters DEEP after DEEP_IDLE ms and loses its stager slots. -/
def Sys2Proof.Claims.PowerEvents : Prop :=
  ∀ (s : State) (h g u : Nat),
    let k := galKey h g
    (s.gal k).flight = none → (s.gal k).queue = [] → (s.gal k).newProfile = none →
    ((s.gal k).wakeDue = some u → Completes (.galleryReady h g) s fun t =>
      GalleryBecomes k { s.gal k with
        power := .ready, wakeDue := none, lightSince := none, idleSince := some (max s.now u), armHeld := false,
        refOn := if (s.gal k).armHeld then some ((s.gal k).refOn.getD (max s.now u)) else (s.gal k).refOn } (max s.now u) s t) ∧
    ((s.gal k).refOn = some u → Completes (.refReady h g) s fun t =>
      GalleryBecomes k (s.gal k) (max s.now (u + us 2)) s t) ∧
    ((s.gal k).idleSince = some u → (s.gal k).power = .ready → s.rfld (galReg k 0x0C) 9 0 ≠ 0 →
      Completes (.lightIdleExpiry h g) s fun t =>
        let v := max s.now (u + us (s.rfld (galReg k 0x0C) 9 0))
        GalleryBecomes k { s.gal k with
          power := .light, wakeDue := none, idleSince := none, lightSince := some v,
          refOn := some ((s.gal k).refOn.getD v) } v s t) ∧
    ((s.gal k).lightSince = some u → (s.gal k).power = .light → (s.gal k).wakeDue = none → (s.gal k).landingHolds = false →
      s.rfld (galReg k 0x0C) 25 16 ≠ 0 → Completes (.deepIdleExpiry h g) s fun t =>
        GalleryBecomes k { s.gal k with
          power := .deep, wakeDue := none, armHeld := false, refOn := none, idleSince := none, lightSince := none,
          slots := [none, none] } (max s.now (u + ms (s.rfld (galReg k 0x0C) 25 16))) s t)

/-- R84, R85, R330: a WAIT whose counter holds at least VALUE moves on, subtracting VALUE only when CONSUME is set, and is counted in the
ledger; where several galleries wait to consume, the counter is what the galleries below it in number leave of it;
a WAIT that a re-run counts as satisfied moves on without consuming; any other WAIT blocks at its step and notes since when. Every other
counter keeps its value. -/
def Sys2Proof.Claims.WaitStep : Prop :=
  ∀ (s : State) (h g : Nat) (f : Flight) (w : StepWord), Issues s (galKey h g) opWait f w →
    let k := galKey h g
    let key := cntKey (k / 512) (fld w 121 110)
    (0 < f.skipWait → Completes (.wait h g false) s fun t => FlightMoves k f { f with pc := f.pc + 1, skipWait := f.skipWait - 1 } s t) ∧
    let has := if bit w 93 then s.waitLeft k key else s.counter key
    (f.skipWait = 0 → fld w 109 94 ≤ has → Completes (.wait h g false) s fun t =>
      FlightMoves k f { f with pc := f.pc + 1, nWait := f.nWait + 1 } s { t with counters := s.counters } ∧
      t.counter key = s.counter key - (if bit w 93 then fld w 109 94 else 0) ∧ ∀ j, j ≠ key → t.counter j = s.counter j) ∧
    (f.skipWait = 0 → has < fld w 109 94 → Completes (.wait h g false) s fun t =>
      GalleryBecomes k { s.gal k with flight := some { f with waitSince := some (f.waitSince.getD (issueInstant s f)) } }
        (issueInstant s f) s t)

/-- R77, R85: a WAIT that has blocked for its TIMEOUT with its counter still below VALUE ends the flight with status TIMEOUT; one whose
counter has reached VALUE, or whose TIMEOUT is 0, never times out. -/
def Sys2Proof.Claims.WaitTimeoutEndsFlight : Prop :=
  ∀ (s : State) (h g u : Nat) (f : Flight) (w : StepWord), Issues s (galKey h g) opWait f w → f.waitSince = some u →
    let key := cntKey (galKey h g / 512) (fld w 121 110)
    (fld w 92 77 ≠ 0 → s.counter key < fld w 109 94 → (s.gal (galKey h g)).queue = [] → (s.gal (galKey h g)).newProfile = none →
      Completes (.waitTimeout h g) s fun t => FlightEnds (galKey h g) f stTimeout (max s.now (u + us (fld w 92 77))) s t) ∧
    (fld w 92 77 = 0 ∨ fld w 109 94 ≤ s.counter key → NoEffect (.waitTimeout h g) s)

/-- R84, R85: a SIGNAL sends one increment of INC to its counter on die DIE, behind every earlier outbound write of the gallery to that
die; a SIGNAL that a re-run suppresses sends nothing. -/
def Sys2Proof.Claims.SignalStep : Prop :=
  ∀ (s : State) (h g : Nat) (f : Flight) (w : StepWord), Issues s (galKey h g) opSignal f w →
    let k := galKey h g
    (0 < f.skipOut → Completes (.signal h g false) s fun t => FlightMoves k f { f with pc := f.pc + 1, skipOut := f.skipOut - 1 } s t) ∧
    (f.skipOut = 0 → Completes (.signal h g false) s fun t => ∃ p : PendWrite,
      t.writes = s.writes ++ [p] ∧ p.parts = [] ∧ p.incs = [{ key := cntKey (fld w 121 118) (fld w 117 106), amount := fld w 105 90 }] ∧
      p.due = issueInstant s f + hallWriteLatency (k / 512) (fld w 121 118) ∧ p.outbound = true ∧
      (∀ x, x ∈ s.writes → x.owner = .gallery k → x.mem = fld w 121 118 → x.outbound = true → x.id ∈ p.after) ∧
      FlightMoves k f { f with pc := f.pc + 1 } s { t with writes := s.writes, nextId := s.nextId })

/-- R80, R81, R324: STAGE loads 32 blocks of the parcel into its slot in 32 hall cycles, from the instant the slot is free, and the segment
serves an EVAL from the cycle after (log 12); one whose parcel overlaps a registered range issues at the range's release, which
SPM_SB_STALLS counts; a parcel outside base and bound or outside the scratchpad ends the flight with ACCESS_FAULT (R77). -/
def Sys2Proof.Claims.StageStep : Prop :=
  ∀ (s : State) (h g u : Nat) (f : Flight) (w : StepWord), Issues s (galKey h g) opStage f w →
    let k := galKey h g
    let line := strided (fld w 116 94) (fld w 93 92) (fld w 91 76) f.loops
    let a := hallBase (k / 512) + 64 * line.toNat
    let fmt := stageFormat (fld w 120 119)
    let v := max (issueInstant s f) u
    let okay := 0 ≤ line ∧ s.memOf a = some (k / 512) ∧ s.galAllowed k false a (64 * parcelLines fmt.width) = true
    let live := (s.at v).liveRanges (k / 512) (64 * line.toNat) (64 * parcelLines fmt.width)
    slotFreeAt (s.gal k).evals (fld w 121 121) = some u →
    (okay → live = [] → Completes (.stage h g false) s fun t =>
      GalleryBecomes k { s.gal k with
        slots := (s.gal k).slots.set (fld w 121 121) (some (s.readSegment a (bit w 117) fmt (bit w 118) (v + hallCycles 33)))
        flight := some { f with pc := f.pc + 1, issueAt := v + hallCycles 1, waitSince := none } } v s t) ∧
    (okay → live ≠ [] → Completes (.stage h g false) s fun t =>
      (∀ e, e ∈ live → e.until_ ≤ t.now) ∧ (∃ e, e ∈ live ∧ t.now = e.until_) ∧
      t.reg (0x78100 + 4 * (k / 512)) = s.reg (0x78100 + 4 * (k / 512)) + 1#32 ∧ OtherRegisters [0x78100 + 4 * (k / 512)] s t ∧
      GalleryBecomes k { s.gal k with
        slots := (s.gal k).slots.set (fld w 121 121) (some (s.readSegment a (bit w 117) fmt (bit w 118) (t.now + hallCycles 33)))
        flight := some { f with pc := f.pc + 1, issueAt := t.now + hallCycles 1, waitSince := none } } t.now s { t with bar0 := s.bar0 }) ∧
    (¬ okay → (s.gal k).queue = [] → (s.gal k).newProfile = none →
      Completes (.stage h g false) s fun t => FlightEnds k f stAccessFault v s t)

/-- R48 to R55, R81, R112, R130: EVAL appends one EVAL of the segment in its slot with the passes of its pass list, at the effective budget
and with the thresholds in force, once the segment is staged and the programmer has released the arrays. A poisoned segment or an empty
mask gives no pass. -/
def Sys2Proof.Claims.EvalStep : Prop :=
  ∀ (s : State) (h g : Nat) (f : Flight) (w : StepWord) (seg : Segment), Issues s (galKey h g) opEval f w →
    let k := galKey h g
    (∀ e, e ∈ (s.gal k).evals → e.carryDue = none) → s.poolMarked k (fld w 120 89) = false →
    (s.gal k).slots[fld w 121 121]? = some (some seg) →
    let u := max (issueInstant s f) (max seg.readyAt (s.heldUntil k (fld w 120 89)))
    let budget := min (fld w 88 87) (s.rfld (galReg k 0x44) 1 0)
    Completes (.eval h g false) s fun t => ∃ e : EvalRun,
      (t.gal k).evals = (s.gal k).evals ++ [e] ∧ e.id = (s.gal k).nextEval ∧ e.slot = fld w 121 121 ∧ e.mask = fld w 120 89 ∧ e.seg = seg ∧
      e.budgetCode = budget ∧ e.poison = segPoison seg ∧ e.carrySeg = none ∧ e.done = false ∧
      e.passes = (if segPoison seg = true ∨ fld w 120 89 = 0 then []
        else passList (segClasses seg) (mainCode seg (segClasses seg)) (budgetRows budget) (bit w 86) (bit w 85) false) ∧
      e.thresh = s.rfld (galReg k 0x60) 3 0 ∧ e.replicaMode = (if (s.gal k).forced then 2 else s.rfld (galReg k 0x60) 9 8) ∧
      (t.gal k).flight = some { f with pc := f.pc + 1, issueAt := u + hallCycles 1, waitSince := none } ∧ t.now = u ∧
      OtherGalleries k s t ∧ t = { s with now := t.now, galleries := t.galleries }

/-- R51, R53, R81: CARRY loads the carry segment beside the main segment of its slot and attaches it to the newest EVAL of the slot, and
CARRY_SEGMENT_LOADED adds that EVAL's carry passes, or poisons the EVAL when the segment is poisoned. -/
def Sys2Proof.Claims.CarrySteps : Prop :=
  ∀ (s : State) (h g : Nat),
    let k := galKey h g
    (∀ (f : Flight) (w : StepWord) (es : List EvalRun) (e : EvalRun), Issues s k opCarry f w →
      (s.gal k).evals = es ++ [e] → (∀ x, x ∈ es ++ [e] → x.carryDue = none) → e.slot = fld w 121 121 →
      let line := strided (fld w 119 97) (fld w 96 95) (fld w 94 79) f.loops
      let a := hallBase (k / 512) + 64 * line.toNat
      0 ≤ line → s.memOf a = some (k / 512) → s.galAllowed k false a (64 * parcelLines 4) = true →
      let due := issueInstant s f + hallCycles 32
      Completes (.carry h g false) s fun t => GalleryBecomes k { s.gal k with
        evals := es ++ [{ e with carrySeg := some (s.readSegment a (bit w 120) .a4 false due), carryDue := some due, done := false, carryEra := (s.gal k).breaks }]
        flight := some (stepped s f { f with pc := f.pc + 1 }) } (issueInstant s f) s t) ∧
    (∀ (es : List EvalRun) (e : EvalRun) (c : Segment) (u : Nat), (s.gal k).evals = es ++ [e] → (∀ x, x ∈ es → x.carryDue = none ∧ x.id ≠ e.id) →
      e.carryDue = some u → e.carrySeg = some c → e.mask ≠ 0 →
      Completes (.carrySegmentLoaded h g) s fun t => GalleryBecomes k { s.gal k with
        evals := es ++ [if segPoison c = true ∨ e.poison = true then { e with carryDue := none, poison := true, readyAt := max s.now u + hallCycles 1, passes := e.passes.filter (fun p => p.opened.isSome) }
          else { e with carryDue := none, readyAt := max s.now u + hallCycles 1, passes := e.passes ++ passList e.cls (carryCode e.seg c e.cls) (budgetRows e.budgetCode) e.high e.low true }] }
        (max s.now u) s t)

/-- R75, R76, R77, R127, R138, R261: a launch to a READY, idle gallery starts its flight at the launch's first step 8 ns after the entry
arrives, or once the background unit in progress has ended (R95); one to
a gallery that runs a flight waits in the queue; one to a DEEP gallery waits there and wakes it; one whose FLIGHT lies outside the
gallery's flights runs no step, discards what the gallery holds and sends its completion record with ACCESS_FAULT; one to a suspect
gallery by another than a management processor ends at once with DEVICE_FAULT. A stream processor posts no flight of a matrix on the wide
path, and no prefill launch of more than SLICE tokens or while decode waits. -/
def Sys2Proof.Claims.FlightLaunch : Prop :=
  ∀ (s : State) (h g : Nat) (entry : BitVec 256) (p : Poster) (work : Work),
    let k := galKey h g
    let l : Launch := { bits := entry, poster := p, work := work, arrived := s.now }
    (p = .sp → s.onWidePath k l = true → NoEffect (.flightLaunch h g entry p work) s) ∧
    (∀ n, p = .sp → work = .prefill n → s.mayPrefill k n = false → NoEffect (.flightLaunch h g entry p work) s) ∧
    (s.mayPost p = true → (p = .sp → s.onWidePath k l = false) → (∀ n, p = .sp → work = .prefill n → s.mayPrefill k n = true) →
      (s.gal k).newProfile = none →
    ((s.gal k).suspect = true → p ≠ .mp → Completes (.flightLaunch h g entry p work) s fun t =>
      (t.gal k).queue = (s.gal k).queue ∧ (t.gal k).flight = (s.gal k).flight ∧
      (∃ x : PendWrite, t.writes = s.writes ++ [x] ∧
        x.parts = [(centralBase + 64 * l.compAddr, completion16 l.tag stDeviceFault false false 0 s.time)] ∧
        x.incs = [{ key := cntKey 8 l.compCounter, amount := 1 }]) ∧
      OtherGalleries k s t ∧ t = { s with galleries := t.galleries, bar0 := t.bar0, writes := t.writes, nextId := t.nextId }) ∧
    ((s.gal k).suspect = false ∨ p = .mp → (s.gal k).flight.isSome = true → (s.gal k).queue.length < queueDepth →
      Completes (.flightLaunch h g entry p work) s fun t =>
        (t.gal k).queue = (s.gal k).queue ++ [l] ∧ (t.gal k).flight = (s.gal k).flight ∧ OtherGalleries k s t ∧
        t = { s with galleries := t.galleries }) ∧
    ((s.gal k).flight = none → (s.gal k).queue = [] → (s.gal k).suspect = false → (s.gal k).flightElsewhere l = false →
      s.testHolds k = false → (s.gal k).pairReset = none →
      ((s.gal k).flightInside l = true → (s.gal k).power = .ready → Completes (.flightLaunch h g entry p work) s fun t =>
        (t.gal k).flight = some (Flight.start l (max (s.now + ns 8) (s.bgUntil k))) ∧ (t.gal k).queue = [] ∧ (t.gal k).power = .ready ∧ OtherGalleries k s t ∧
        t = { s with galleries := t.galleries }) ∧
      ((s.gal k).flightInside l = true → (s.gal k).power = .deep → Completes (.flightLaunch h g entry p work) s fun t =>
        (t.gal k).queue = [l] ∧ (t.gal k).flight = none ∧ (t.gal k).power = .waking ∧ (t.gal k).wakeDue = some (s.now + ns 400) ∧
        (t.gal k).refOn = (s.gal k).refOn ∧ OtherGalleries k s t ∧ t = { s with galleries := t.galleries }) ∧
      ((s.gal k).flightInside l = false → Completes (.flightLaunch h g entry p work) s fun t =>
        (t.gal k).flight = none ∧ (t.gal k).queue = [] ∧ (t.gal k).groups = [] ∧ (t.gal k).inbox = [] ∧
        (t.gal k).slots = [none, none] ∧
        (∃ x : PendWrite, t.writes = s.writes ++ [x] ∧
          x.parts = [(centralBase + 64 * l.compAddr, completion16 l.tag stAccessFault false false 0 s.time)] ∧
          x.incs = [{ key := cntKey 8 l.compCounter, amount := 1 }]) ∧
        OtherGalleries k s t ∧ t = { s with galleries := t.galleries, bar0 := t.bar0, writes := t.writes, nextId := t.nextId })))

/-- R76, R77, R79: HALT ends the flight with status OK once its outbound operations have arrived, its passes are converted and the
checks of its EVALs have completed (log 12), and leaves it waiting until then. Without a SLEEP the gallery keeps its power state; a SLEEP names LIGHT or DEEP, and DEEP becomes LIGHT while
the landing holds something. -/
def Sys2Proof.Claims.HaltStep : Prop :=
  ∀ (s : State) (h g : Nat) (f : Flight) (w : StepWord), Issues s (galKey h g) opHalt f w →
    let k := galKey h g
    (s.outboundPending k = true ∨ (s.gal k).passesDone = false ∨ (s.gal k).checked = false → Completes (.halt h g false) s fun t =>
      GalleryBecomes k (s.gal k) (issueInstant s f) s t) ∧
    (s.outboundPending k = false → (s.gal k).passesDone = true → (s.gal k).checked = true → (s.gal k).queue = [] → (s.gal k).newProfile = none →
      Completes (.halt h g false) s fun t => FlightEnds k f stOk (issueInstant s f) s t ∧
        (t.gal k).power = (match f.sleep with
          | none => .ready
          | some deep => if deep = true ∧ (s.gal k).landingHolds = false then .deep else .light))

/-- R70, R84: when the pair reset ends the flight is ready to be re-run, or, with no flight, the queue's launches may start; FLIGHT_RERUN starts it at its first step with the ledger's
outbound operations to be suppressed and its WAITs satisfied; the stager is empty. -/
def Sys2Proof.Claims.RerunSteps : Prop :=
  ∀ (s : State) (h g u : Nat) (f : Flight),
    let k := galKey h g
    ((s.gal k).flight = none → (s.gal k).queue = [] → (s.gal k).newProfile = none → (s.gal k).pairReset = some u →
      Completes (.sequencerPairReset h g) s fun t => GalleryBecomes k { s.gal k with pairReset := none } (max s.now u) s t) ∧
    ((s.gal k).flight = some f → (s.gal k).pairReset = some u → Completes (.sequencerPairReset h g) s fun t =>
      GalleryBecomes k { s.gal k with pairReset := none, flight := some { f with rerunAt := some (max s.now u) } } (max s.now u) s t) ∧
    ((s.gal k).flight = some f → f.rerunAt = some u → Completes (.flightRerun h g) s fun t =>
      GalleryBecomes k { s.gal k with
        slots := [none, none]
        flight := some { f with
          pc := f.launch.flight, issueAt := max s.now u, loops := List.replicate 4 LoopLevel.reset, skipOut := f.nOut,
          skipWait := f.nWait, sleep := none, gapEnd := none, waitSince := none, rerun := true, rerunAt := none } } (max s.now u) s t)

/-- R69, R70, R84, R125, R126: whatever step the comparator finds a difference in, issuing or blocked, none of its effect happens. In a
first run without spent partials the flight stays at its step, its outbound operations that have not arrived are cut off, what it held in
the gallery is discarded but for the inbox, and the pair is reset for 2 µs. In a re-run, or with partials spent, the flight ends with
DEVICE_FAULT, the gallery is suspect with cause 4, and the pair is reset just so. -/
def Sys2Proof.Claims.ComparatorDifference : Prop :=
  ∀ (s : State) (h g op : Nat) (f : Flight) (w : StepWord) (c : Instr),
    let k := galKey h g
    (c, op) ∈ [(Instr.stage h g true, opStage), (.eval h g true, opEval), (.carry h g true, opCarry), (.land h g true, opLand),
      (.close h g true, opClose), (.chain h g true, opChain), (.signal h g true, opSignal), (.wake h g true, opWake),
      (.armRef h g true, opArmRef), (.sleep h g true, opSleep), (.wait h g true, opWait), (.fence h g true, opFence),
      (.branchRoute h g true, opBranch), (.loop h g true, opLoop), (.gap h g true, opGap), (.halt h g true, opHalt)] →
    Issues s k op f w →
    (f.rerun = true ∨ s.partialsSpent k = true → (s.gal k).suspect = false → (s.gal k).queue = [] → (s.gal k).newProfile = none →
      Completes c s fun t => (t.gal k).flight = none ∧ (t.gal k).suspect = true ∧ (t.gal k).cause = 4 ∧
        (t.gal k).pairReset = some (issueInstant s f + us 2) ∧ (t.gal k).groups = [] ∧ (t.gal k).inbox = [] ∧
        t.counters = s.counters ∧ t.mem = s.mem ∧ OtherGalleries k s t) ∧
    (f.rerun = false → s.partialsSpent k = false →
    Completes c s fun t =>
      (t.gal k).flight = some { f with rerunAt := none, gapEnd := none, waitSince := none } ∧
      (t.gal k).pairReset = some (issueInstant s f + us 2) ∧
      (t.gal k).groups = [] ∧ (t.gal k).slots = [none, none] ∧ (t.gal k).evals = [] ∧ (t.gal k).inbox = (s.gal k).inbox ∧
      t.writes = s.writes.filter (fun x => !(decide (x.owner = .gallery k) && x.outbound)) ∧
      t.partials = s.partials.filter (fun x => !(decide (x.src = k) && x.outbound)) ∧
      t.counters = s.counters ∧ t.mem = s.mem ∧ OtherGalleries k s t ∧ t.eventSeq = (s.eventSeq + 1) % 2 ^ 32)

/-- R94: at the next 1 ms boundary of the time base every background activity's used time of every gallery returns to zero; nothing else
of any gallery changes. -/
def Sys2Proof.Claims.BudgetPeriod : Prop :=
  ∀ (s : State) (u : Nat), s.tbStart = some u → u ≤ s.now → s.Inv →
    Completes .budgetPeriodBoundary s fun t =>
      (s.now < t.now ∧ t.now ≤ s.now + ms 1 ∧ (t.now - u) % ms 1 = 0) ∧ (∀ k, t.gal k = { s.gal k with used := [0, 0, 0, 0], usedPeriod := 0 }) ∧
      (∀ k kind, t.usedTime k kind = 0) ∧ t = { s with now := t.now, galleries := t.galleries }

/-- R57 to R61, R64, R67: the next pass of the gallery opens when its arrays are free and the buffer has been on for 2 µs, no earlier, and
its codes are due at the end of its sweep: 52 ns after its start, 192 ns for a transpose pass, the start following the opening by 12 ns
in a run and by 16 ns where a run begins. The pass is counted by its kind. A pass that finds the buffer off turns it on, marks the
flight late, sets LATE_ARM and does not open. -/
def Sys2Proof.Claims.PassOpens : Prop :=
  ∀ (s : State) (h g i : Nat) (e : EvalRun) (p : Pass),
    let k := galKey h g
    nextPass (s.gal k).evals = some (e, i) → e.passes[i]? = some p →
    ((s.gal k).refOn = none → Completes (.passWindowOpen h g) s fun t =>
      t.reg (galReg k 0x44) = setFld (s.reg (galReg k 0x44)) 10 10 1 ∧ OtherRegisters [galReg k 0x44] s t ∧ OtherGalleries k s t ∧
      t.gal k = { s.gal k with refOn := some s.now, flight := (s.gal k).flight.map (fun f => { f with lateArm := true }) } ∧
      t = { s with galleries := t.galleries, bar0 := t.bar0 }) ∧
    (∀ u, (s.gal k).refOn = some u → Completes (.passWindowOpen h g) s fun t => ∃ o st : Nat, ∃ e' : EvalRun,
      s.now ≤ o ∧ u + us 2 ≤ o ∧ s.heldUntil k e.mask ≤ o ∧ (∀ b, (s.gal k).bg = some b → b.endAt ≤ o) ∧
      ((st = o + ns 12 ∧ ∃ w, (s.gal k).sweeps.getLast? = some w ∧ w.endAt = st ∧ w.mask = e.mask ∧ w.transpose = e.transpose) ∨
        (st = o + ns 16 ∧ o % hallCycles 1 = 0 ∧
          ∀ w, w ∈ (s.gal k).sweeps → w.closeAt ≤ o ∧ (w.mask &&& e.mask ≠ 0 → w.lastSlot ≤ o))) ∧ t.now = o ∧
      e' ∈ (t.gal k).evals ∧ e'.id = e.id ∧
      e'.passes[i]? = some { p with opened := some o, readyAt := st + (if e.transpose then ns 192 else ns 52) } ∧
      (t.gal k).flight = (s.gal k).flight.map (fun f => { f with passes := f.passes + 1 }) ∧
      t.reg (galReg k 0x48) = s.reg (galReg k 0x48) + (if p.carry = false ∧ e.transpose = false then 1#32 else 0#32) ∧
      t.reg (galReg k 0x4C) = s.reg (galReg k 0x4C) + (if p.carry = true then 1#32 else 0#32) ∧
      t.reg (galReg k 0x50) = s.reg (galReg k 0x50) + (if p.cls = .low then 1#32 else 0#32) ∧
      t.reg (galReg k 0x54) = s.reg (galReg k 0x54) + (if e.transpose = true then 1#32 else 0#32) ∧
      OtherRegisters [galReg k 0x48, galReg k 0x4C, galReg k 0x50, galReg k 0x54] s t ∧ OtherGalleries k s t ∧
      t = { s with now := t.now, galleries := t.galleries, bar0 := t.bar0 })

/-- R54, R56, R60, R64: at the end of its sweep the oldest opened pass has a code for every column of every array of the mask, or for
every row in a transpose pass, each a signed 8-bit number. A pass that is a sample of the survey's focus (R193) is noted by the survey at that instant. -/
def Sys2Proof.Claims.PassCodes : Prop :=
  ∀ (s : State) (h g i : Nat) (e : EvalRun) (p : Pass),
    let k := galKey h g
    convertingPass (s.gal k).evals = some (e, i) → e.passes[i]? = some p →
    (s.isSample k e { p with done := true } = true → (s.arr (arrKey k (s.gal k).survey.focusArray)).record.isSome = true →
      Completes (.passCodesReady h g) s fun t =>
        t.now = max s.now p.readyAt ∧ (t.gal k).survey.lastSample = t.now ∧ OtherGalleries k s t) ∧
    (s.isSample k e { p with done := true } = false → Completes (.passCodesReady h g) s fun t => ∃ e' : EvalRun, ∃ p' : Pass,
      e' ∈ (t.gal k).evals ∧ e'.id = e.id ∧ e'.passes[i]? = some p' ∧ p' = { p with done := true, codes := p'.codes } ∧
      p'.codes.map Prod.fst = maskArrays e.mask ∧
      (∀ x, x ∈ p'.codes → x.2.length = (if e.transpose then 1024 else 1104) ∧ ∀ c, c ∈ x.2 → -128 ≤ c ∧ c ≤ 127) ∧
      t.now = max s.now p.readyAt ∧ OtherGalleries k s t ∧
      t = { s with now := t.now, galleries := t.galleries, free := t.free })

/-- What the checks of an EVAL find: how many passed, how many were skipped, and those that failed (R119 to R122). -/
def Sys2Proof.Claims.checks (s : State) (k : Nat) (e : EvalRun) : CheckResult :=
  ((maskArrays e.mask).map (fun a =>
    let r := (s.arr (arrKey k a)).record
    evalChecks e a ((r.map ArrayRec.gc).getD 0) ((r.map ArrayRec.rho).getD []) ((r.map ArrayRec.colSums).getD []))).foldl
      CheckResult.join { passed := 0, skipped := 0, fails := [] }

/-- R111, R119, R123, R124: the residual sums of the oldest EVAL become ready at their instant; an EVAL whose work is done gets its results
when every check passes or is skipped, and only then; a check that fails in a first run with nothing spent discards the EVALs of the
gallery and stops the flight for its re-run, and GAL_CHK_MISMATCH counts it. -/
def Sys2Proof.Claims.EvalResults : Prop :=
  ∀ (s : State) (h g : Nat) (e : EvalRun),
    let k := galKey h g
    ((s.gal k).evals.find? (fun e => !e.residDone) = some e → Completes (.residualSumsReady h g) s fun t =>
      GalleryBecomes k { s.gal k with
        evals := (s.gal k).evals.map (fun x => if x.id = e.id then { x with residDone := true } else x) } (max s.now e.residDue) s t) ∧
    ((s.gal k).evals.find? EvalRun.complete = some e → s.carryNext k e = false → (Sys2Proof.Claims.checks s k e).fails = [] →
      Completes (.evalResultsReady h g) s fun t =>
        t.now = max s.now e.resultsAt ∧
        (∃ e', e' ∈ (t.gal k).evals ∧ e'.id = e.id ∧ e'.done = true ∧ e'.readyAt = t.now ∧ e'.outs.map Prod.fst = maskArrays e.mask) ∧
        t.reg (galReg k 0x6C) = s.reg (galReg k 0x6C) + BitVec.ofNat 32 (Sys2Proof.Claims.checks s k e).passed ∧
        t.reg (galReg k 0x74) = s.reg (galReg k 0x74) + BitVec.ofNat 32 (Sys2Proof.Claims.checks s k e).skipped ∧
        OtherRegisters [galReg k 0x6C, galReg k 0x74] s t ∧ OtherGalleries k s t ∧
        t = { s with now := t.now, galleries := t.galleries, bar0 := t.bar0 }) ∧
    (∀ f : Flight, (s.gal k).evals.find? EvalRun.complete = some e → s.carryNext k e = false → (Sys2Proof.Claims.checks s k e).fails ≠ [] →
      (s.gal k).flight = some f → f.rerun = false → s.partialsSpent k = false → (s.gal k).mismatches.length < 2 →
      Completes (.evalResultsReady h g) s fun t =>
        t.now = max s.now e.resultsAt ∧ (t.gal k).evals = [] ∧ (t.gal k).groups = [] ∧
        (t.gal k).flight = some { f with rerunAt := some (t.now + ns 8), gapEnd := none, waitSince := none } ∧
        t.reg (galReg k 0x70) = s.reg (galReg k 0x70) + BitVec.ofNat 32 (Sys2Proof.Claims.checks s k e).fails.length ∧
        t.eventSeq = (s.eventSeq + 1) % 2 ^ 32 ∧ t.mem = s.mem)

/-- R86 to R89, R100: a LAND waits until every EVAL of its array is done; then it opens its group with the combined outputs of the array's
columns, or adds them to the open group element by element, at the instant the results are there and the tile's drain has ended. Each of
these EVALs has then landed in the array, one that has landed in every array of its mask is gone, and the correction pipeline is taken for
128 outputs a hall cycle behind the LANDs before. -/
def Sys2Proof.Claims.LandStep : Prop :=
  ∀ (s : State) (h g : Nat) (f : Flight) (w : StepWord), Issues s (galKey h g) opLand f w →
    let k := galKey h g
    let a := fld w 103 99
    let mine := (s.gal k).evals.filter (fun e => e.mask.testBit a && !(e.landed.testBit a))
    let vals := landedOutputs (s.gal k).evals a (fld w 98 89) (fld w 113 104 + 1)
    ((∃ e, e ∈ mine ∧ e.done = false) → Completes (.land h g false) s fun t =>
      GalleryBecomes k (s.gal k) (issueInstant s f) s t) ∧
    ((∀ e, e ∈ mine → e.done = true) → Completes (.land h g false) s fun t =>
      Tab.find (t.gal k).groups (fld w 121 119) = some (match Tab.find (s.gal k).groups (fld w 121 119) with
        | none => { tile := fld w 118 118, base := fld w 117 114, vals := vals, added := 0 }
        | some r => { r with vals := r.vals.zipWith F32.add vals }) ∧
      (∀ j, j ≠ fld w 121 119 → Tab.find (t.gal k).groups j = Tab.find (s.gal k).groups j) ∧
      let u := max (issueInstant s f) (mine.foldl (fun x e => max x e.readyAt) ((s.gal k).drainEnd.getD (fld w 118 118) 0))
      GalleryBecomes k { s.gal k with
        groups := (t.gal k).groups, landUntil := max u (s.gal k).landUntil + hallCycles (cdiv (fld w 113 104 + 1) 128)
        evals := ((s.gal k).evals.map (fun e => if e.mask.testBit a then { e with landed := e.landed ||| 2 ^ a } else e)).filter
          (fun e => !(e.done && decide (e.landed &&& e.mask = e.mask)))
        flight := some { f with pc := f.pc + 1, issueAt := u + hallCycles 1, waitSince := none } } u s t)

/-- R84, R88, R93: a CLOSE whose group has the partials it expects sends the group, in its format, to its destination with one increment of
its counter, closes the group and moves on; one that lacks a partial keeps the group and waits at its step (its group is drained behind its LANDs, its partials and the drain of its
tile, R89); one that a re-run
suppresses closes the group and writes nothing; one outside base and bound or outside the memory DEST ends the flight with ACCESS_FAULT
(R77). A CLOSE into its own hall issues once no registered range overlaps what it writes (R324). -/
def Sys2Proof.Claims.CloseStep : Prop :=
  ∀ (s : State) (h g : Nat) (f : Flight) (w : StepWord) (r : Group), Issues s (galKey h g) opClose f w →
    let k := galKey h g
    let gi := fld w 121 119
    let line := strided (fld w 110 86) (fld w 66 65) (fld w 64 49) f.loops
    let a := memBase (fld w 114 111) + 64 * line.toNat
    let len := groupExtent (fld w 84 82) (fld w 81 79) r.vals.length
    let okay := 0 ≤ line ∧ s.memOf a = some (fld w 114 111) ∧ s.galAllowed k true a len = true
    let live := if fld w 114 111 = k / 512 then
      (s.at (max (issueInstant s f) (s.gal k).addUntil)).liveRanges (k / 512) (64 * line.toNat) len else []
    Tab.find (s.gal k).groups gi = some r →
    (0 < f.skipOut → Completes (.close h g false) s fun t =>
      GalleryBecomes k { s.gal k with
        groups := Tab.del (s.gal k).groups gi, closing := none
        flight := some (stepped s f { f with pc := f.pc + 1, skipOut := f.skipOut - 1 }) } (issueInstant s f) s t) ∧
    (f.skipOut = 0 → okay → fld w 118 115 ≤ r.added → Completes (.close h g false) s fun t =>
      (∃ p : PendWrite, t.writes = s.writes ++ [p] ∧ p.owner = .gallery k ∧ p.mem = fld w 114 111 ∧ p.outbound = true ∧
        p.parts = groupParts a (fld w 84 82) (fld w 85 85) (fld w 81 79) r.vals ∧
        p.incs = [{ key := cntKey (fld w 114 111) (fld w 78 67), amount := 1 }] ∧
        p.due = max (max t.now (s.gal k).landUntil) ((s.gal k).drainEnd.getD r.tile 0) + hallCycles (cdiv r.vals.length 128) + (if 2 ≤ fld w 84 82 then ns 8 else 0) +
          hallWriteLatency (k / 512) (fld w 114 111)) ∧
      Tab.find (t.gal k).groups gi = none ∧ (∀ j, j ≠ gi → Tab.find (t.gal k).groups j = Tab.find (s.gal k).groups j) ∧
      (t.gal k).flight = some { f with pc := f.pc + 1, issueAt := t.now + hallCycles 1, waitSince := none } ∧
      (live = [] → t.now = max (issueInstant s f) (s.gal k).addUntil ∧ t.bar0 = s.bar0) ∧
      (live ≠ [] → (∀ e, e ∈ live → e.until_ ≤ t.now) ∧ (∃ e, e ∈ live ∧ t.now = e.until_) ∧
        t.reg (0x78100 + 4 * (k / 512)) = s.reg (0x78100 + 4 * (k / 512)) + 1#32) ∧ OtherGalleries k s t ∧
      t = { s with now := t.now, galleries := t.galleries, bar0 := t.bar0, writes := t.writes, nextId := t.nextId }) ∧
    (f.skipOut = 0 → okay → r.added < fld w 118 115 → (∀ p, p ∈ (s.gal k).inbox → ¬ (p.group = gi ∧ p.pos = r.added + 1)) →
      Completes (.close h g false) s fun t =>
        GalleryBecomes k { s.gal k with closing := some (gi, fld w 118 115) } (issueInstant s f) s t) ∧
    (f.skipOut = 0 → ¬ okay → fld w 118 115 ≤ r.added → (s.gal k).queue = [] → (s.gal k).newProfile = none →
      Completes (.close h g false) s fun t => FlightEnds k f stAccessFault (issueInstant s f) s t)

/-- R84, R88, R90, R91: a CHAIN whose group has the partials it expects sends the whole group to a group of the target gallery, never
sooner than 24 ns after it leaves, closes the group and moves on; one that lacks a partial waits at its step; one that a re-run suppresses closes the group and sends
nothing. -/
def Sys2Proof.Claims.ChainStep : Prop :=
  ∀ (s : State) (h g : Nat) (f : Flight) (w : StepWord) (r : Group), Issues s (galKey h g) opChain f w →
    let k := galKey h g
    let gi := fld w 121 119
    Tab.find (s.gal k).groups gi = some r →
    (0 < f.skipOut → Completes (.chain h g false) s fun t =>
      GalleryBecomes k { s.gal k with
        groups := Tab.del (s.gal k).groups gi, closing := none
        flight := some (stepped s f { f with pc := f.pc + 1, skipOut := f.skipOut - 1 }) } (issueInstant s f) s t) ∧
    (f.skipOut = 0 → fld w 118 115 ≤ r.added → Completes (.chain h g false) s fun t =>
      (∃ p : Partial, t.partials = s.partials ++ [p] ∧ p.src = k ∧ p.dst = galKey (fld w 114 112) (fld w 111 103) ∧
        p.group = fld w 102 100 ∧ p.pos = fld w 99 96 ∧ p.vals = r.vals ∧ issueInstant s f + ns 24 ≤ p.due) ∧
      Tab.find (t.gal k).groups gi = none ∧ (∀ j, j ≠ gi → Tab.find (t.gal k).groups j = Tab.find (s.gal k).groups j) ∧
      (t.gal k).flight = some { f with pc := f.pc + 1, issueAt := t.now + hallCycles 1, waitSince := none } ∧
      t.now = max (issueInstant s f) (s.gal k).addUntil ∧ OtherGalleries k s t ∧
      t = { s with now := t.now, galleries := t.galleries, partials := t.partials, nextId := t.nextId }) ∧
    (f.skipOut = 0 → r.added < fld w 118 115 → (∀ p, p ∈ (s.gal k).inbox → ¬ (p.group = gi ∧ p.pos = r.added + 1)) →
      Completes (.chain h g false) s fun t =>
        GalleryBecomes k { s.gal k with closing := some (gi, fld w 118 115) } (issueInstant s f) s t)

/-- R73, R88, R92, R93: a chained partial that the inbox can take is held there, counts as arrived for its sender and wakes the gallery; one
that it cannot take stays with its sender; a tile's drain ends at its instant. -/
def Sys2Proof.Claims.PartialArrival : Prop :=
  ∀ (s : State) (h g : Nat) (p : Partial),
    let k := galKey h g
    (p ∈ s.partials → p.dst = k → p.src ≠ k → p.outbound = true → (∀ q, q ∈ s.partials → q.dst = k → q = p) →
      ((s.gal k).accepts p = true → (s.gal k).closing = none → Completes (.chainedPartialArrival h g) s fun t =>
        t.partials = s.partials.erase p ∧ t.now = max s.now (max p.due ((s.gal k).inboxTake + hallCycles (cdiv p.vals.length 128))) ∧
        t.gal k = Sys2Proof.Claims.powered { s.gal k with inbox := (s.gal k).inbox ++ [p], inboxTake := t.now } false t.now ∧
        t.gal p.src = { s.gal p.src with flight := (s.gal p.src).flight.map (fun f => { f with nOut := f.nOut + 1 }) } ∧
        (∀ j, j ≠ k → j ≠ p.src → t.gal j = s.gal j) ∧
        t = { s with now := t.now, galleries := t.galleries, partials := t.partials }) ∧
      ((s.gal k).accepts p = false → NoEffect (.chainedPartialArrival h g) s)) ∧
    (∀ tile u, (s.gal k).drainEnd.getD tile 0 = u → u ≠ 0 → Completes (.tileDrainEnd h g tile) s fun t =>
      GalleryBecomes k { s.gal k with drainEnd := (s.gal k).drainEnd.set tile 0 } (max s.now u) s t)

/-- A background unit of an activity is charged to gallery `k` and holds it and an array mask: it began at `start` and lasts `len` (R94). -/
def Sys2Proof.Claims.charged (k kind arrays start len : Nat) (s t : State) : Prop :=
  (t.gal k).bg = some { kind := kind, arrays := arrays, endAt := start + len } ∧
  t.usedTime k kind = (s.at start).usedTime k kind + len / 12 ∧
  ∀ j, j < 4 → j ≠ kind → t.usedTime k j = (s.at start).usedTime k j

/-- R94, R190 to R192, R194, R204: a SURVEY_UNIT that may run takes the next unit of the cycle once the buffer is warm, is charged to the
survey for its 68 ns (64 ns for ROWZERO), counted, and ends by the close of a GAP it runs in; an off buffer is armed, with LATE_ARM. With
the budget spent it only sets its WAITED bit. A focus that took no sample for
FOCUS_TIMEOUT drops its partial sums, and no coefficient changes. An array whose AGE_EQ has reached MAX_AGE becomes due, with one
event; before that nothing happens. -/
def Sys2Proof.Claims.SurveySteps : Prop :=
  ∀ (s : State) (h g : Nat),
    let k := galKey h g
    (∀ a u, s.maySurvey k = true → s.mayTouchup k = false → s.budgetLeft k 0 = true → s.nextUnit k = some (a, u) →
      Completes (.surveyUnit h g) s fun t =>
        let len := if 7 ≤ u then ns 64 else ns 68
        Sys2Proof.Claims.charged k 0 (2 ^ a) t.now len s t ∧ s.now ≤ t.now ∧
        (∀ v, (s.gal k).refOn = some v → v + us 2 ≤ t.now) ∧
        ((s.gal k).refOn = none → s.now + us 2 ≤ t.now ∧ bit (t.reg (galReg k 0x44)) 10 = true) ∧
        (∀ w, w ∈ (s.gal k).sweeps → w.mask.testBit a = true → w.lastSlot ≤ t.now) ∧
        (∀ f v, (s.gal k).flight = some f → f.gapEnd = some v → t.now + len ≤ v) ∧
        (if (s.unitFrom k a (u + 1)).isSome then (t.gal k).survey.cycleArray = a ∧ (t.gal k).survey.cycleUnit = u + 1
          else (t.gal k).survey.cycleArray = 0 ∧ (t.gal k).survey.cycleUnit = 0 ∧ (t.gal k).survey.budgetsSeen = 0) ∧
        t.reg (galReg k 0x8C) = s.reg (galReg k 0x8C) + 1#32 ∧ OtherGalleries k s t) ∧
    (s.maySurvey k = true → s.mayTouchup k = false → s.budgetLeft k 0 = false → s.bgLimit k 0 ≠ 0 →
      Completes (.surveyUnit h g) s fun t =>
        t.reg (galReg k 0x2C) = setFld (s.reg (galReg k 0x2C)) 0 0 1 ∧ OtherRegisters [galReg k 0x2C] s t ∧ t = { s with bar0 := t.bar0 }) ∧
    (s.maySurvey k = false → NoEffect (.surveyUnit h g) s) ∧
    ((s.owner k).isSome = true → (s.gal k).survey.initialDone = true → (s.gal k).survey.ready = false →
      Completes (.focusTimeoutExpiry h g) s fun t =>
        t.now = max s.now ((s.gal k).survey.lastSample + ms (s.rfld (galReg k 0x80) 23 16)) ∧
        (t.gal k).survey.aAcc = [] ∧ (t.gal k).survey.bAcc = [] ∧ (t.gal k).survey.nAcc = [] ∧ (t.gal k).survey.lastSample = t.now ∧
        OtherGalleries k s t ∧ t = { s with now := t.now, galleries := t.galleries }) ∧
    (∀ a, (s.arr (arrKey k a)).record.isSome = true → s.maxAge k ≤ (s.arr (arrKey k a)).ageEq → (s.arr (arrKey k a)).due = false →
      Completes (.maxAgeExpiry h g a) s fun t =>
        t.arr (arrKey k a) = { s.arr (arrKey k a) with due := true } ∧ (∀ i, i ≠ arrKey k a → t.arr i = s.arr i) ∧
        t.eventSeq = (s.eventSeq + 1) % 2 ^ 32 ∧ t.galleries = s.galleries ∧ t.mem = s.mem) ∧
    (∀ a, (s.arr (arrKey k a)).ageEq < s.maxAge k → NoEffect (.maxAgeExpiry h g a) s)

/-- R201, R202, R206, R207: the initial survey of a gallery whose arrays are all programmed takes its units' time on every array and leaves
the gallery in first use with forced replicas. A margin evaluation falls due 24 h after the one before; it touches owned galleries only,
and lowers a margin level by at most one. -/
def Sys2Proof.Claims.InitialSurveyAndMargins : Prop :=
  ∀ (s : State) (h g : Nat),
    let k := galKey h g
    (s.pkg = 3 → s.initialBad k = false → (s.owner k).isSome = true → s.recArrays k ≠ [] → (s.gal k).survey.initialDone = false → (s.gal k).suspect = false →
      (∀ a, a ∈ s.recArrays k → (s.arr (arrKey k a)).job = none ∧
        ∀ r, (s.arr (arrKey k a)).record = some r → r.codes ≠ []) →
      Completes (.initialSurvey h g) s fun t =>
        (t.gal k).survey.initialDone = true ∧ (t.gal k).survey.firstUse = true ∧ (t.gal k).forced = true ∧
        (t.gal k).survey.marginLevel = (s.gal k).survey.marginLevel ∧ t.now = s.now + (s.recArrays k).length * (832 * ns 68 + 256 * ns 64) ∧
        t.reg (galReg k 0x8C) = s.reg (galReg k 0x8C) + BitVec.ofNat 32 ((s.recArrays k).length * 1088) ∧ OtherGalleries k s t) ∧
    (Completes .marginEvaluation s fun t =>
      t.lastMargin = t.now ∧ t.now = max s.now (s.lastMargin + sec 86400) ∧
      (∀ j, s.owner j = none → t.gal j = s.gal j ∧ t.reg (galReg j 0xA4) = s.reg (galReg j 0xA4)) ∧
      (∀ j, (s.gal j).survey.marginLevel ≤ (t.gal j).survey.marginLevel + 1) ∧
      t.mem = s.mem ∧ t.arrays = s.arrays ∧ t.cells = s.cells)

/-- R94, R128, R170 to R172, R177, R183, R205: a scrub unit that may run is charged to the scrub for 68 ns and counted, one whose budget is
spent only sets its WAITED bit. A touch-up row that may run programs one row of its array, is charged to touch-up for the time the row
takes, counts one more row in the array's wear record and changes no cell of any other row; at the end of the last row the array is no
longer due and its age starts anew. -/
def Sys2Proof.Claims.ScrubAndTouchup : Prop :=
  ∀ (s : State) (h g a : Nat),
    let k := galKey h g
    let i := arrKey k a
    (s.mayScrub k = true → s.mayTouchup k = false → s.maySurvey k = false ∨ s.budgetLeft k 0 = false →
      (s.budgetLeft k 1 = true → s.scrubTarget k = a → Completes (.scrubUnit h g) s fun t =>
        Sys2Proof.Claims.charged k 1 (2 ^ a) t.now (ns 68) s t ∧ t.reg (galReg k 0x7C) = s.reg (galReg k 0x7C) + 1#32 ∧ s.now ≤ t.now ∧
        (∀ w, w ∈ (s.gal k).sweeps → w.mask.testBit a = true → w.lastSlot ≤ t.now) ∧ OtherGalleries k s t) ∧
      (s.budgetLeft k 1 = false → s.bgLimit k 1 ≠ 0 → Completes (.scrubUnit h g) s fun t =>
        t.reg (galReg k 0x2C) = setFld (s.reg (galReg k 0x2C)) 1 1 1 ∧ OtherRegisters [galReg k 0x2C] s t ∧ t = { s with bar0 := t.bar0 })) ∧
    (∀ (rec : ArrayRec) (j : ProgJob), s.testWindow (k / 512) = s → s.touchupLast k = none → s.touchupArray k = some a →
      s.mayTouchup k = true → (s.arr i).record = some rec → (s.arr i).job = some j → j.row < 1024 →
      Completes (.touchupRow h g) s fun t =>
        let held := (t.arr i).heldUntil
        t.now = max s.now (s.bgUntil k) ∧ t.now ≤ held ∧ t.wear i = wearRow (s.wear i) ∧
        Sys2Proof.Claims.charged k 2 (2 ^ a) t.now (held - t.now) s t ∧ OtherGalleries k s t ∧
        (∀ x col row, col < 1104 → row < 1024 → (x ≠ i ∨ row ≠ j.row) → t.cellQ x col row = s.cellQ x col row) ∧
        (t.arr i).job = some { j with row := j.row + 1, readyAt := held } ∧ (t.arr i).due = (s.arr i).due) ∧
    (∀ u, s.testWindow (k / 512) = s → s.touchupLast k = some (a, u) → Completes (.touchupRow h g) s fun t =>
      t.now = max s.now u ∧ (t.arr i).job = none ∧ (t.arr i).due = false ∧ (t.arr i).ageEq = 0 ∧ (t.arr i).lastProgrammed = t.now ∧
      t.cells = s.cells)

/-- R373, R411 to R413: a scan unit that may run is charged to the scan for 1 µs, or 2 µs when it is repeated; a single difference raises
nothing and leaves the gallery as trusted as it was, a second one counts in FLT_SCAN_FAILS and makes the gallery suspect with cause 7.
A rotation that is not complete 86,400 s after it should have begun sets LATE. -/
def Sys2Proof.Claims.ScanSteps : Prop :=
  ∀ (s : State) (h g d : Nat),
    let k := galKey h g
    (s.mayScan k = true → s.budgetLeft k 3 = true → Completes (.scanUnit h g d) s fun t =>
      (∃ m, Sys2Proof.Claims.charged k 3 m t.now (us (if d = 0 then 1 else 2)) s t) ∧ OtherGalleries k s t ∧
      t.now = max s.now (s.bgUntil k) ∧
      (if 2 ≤ d then (t.gal k).suspect = true ∧ ((s.gal k).suspect = false → (t.gal k).cause = 7) ∧
          t.reg 0xA0014 = s.reg 0xA0014 + 1#32
        else (t.gal k).suspect = (s.gal k).suspect ∧ t.reg 0xA0014 = s.reg 0xA0014 ∧ t.eventSeq = s.eventSeq)) ∧
    (s.mayScan k = false → NoEffect (.scanUnit h g d) s) ∧
    (s.quiet (k / 512) = false → (s.gal k).retired = false → bit (s.reg (galReg k 0xD0)) 17 = false →
      Completes (.scanRotationLate h g) s fun t =>
        t.reg (galReg k 0xD0) = setFld (s.reg (galReg k 0xD0)) 17 17 1 ∧ OtherRegisters [galReg k 0xD0] s t ∧
        t.now = max s.now (max (s.gal k).scanLast (max (s.power.ready.getD 0) (s.power.quietLeft.getD (k / 512) 0)) + sec 86400) ∧
        t = { s with now := t.now, bar0 := t.bar0 })

/-- R184, R417 to R419: a diagnosis of a suspect gallery begins when no flight runs on it and no test holds it. When it ends, a failure of
the shared logic retires the gallery and all its arrays, failing arrays are retired and leave the gallery in use, and a gallery that
passes, with fewer than three suspects in 24 h, is suspect no longer; GALLERY_RETIRED is raised for a retirement only. A management
processor may ask that a gallery be suspect (cause 6, R126), and the management function may retire an array (R184). -/
def Sys2Proof.Claims.DiagnosisSteps : Prop :=
  ∀ (s : State) (h g : Nat),
    let k := galKey h g
    ((s.gal k).suspect = true → (s.gal k).retired = false → (s.gal k).flight = none → s.testOn k = false → k ∉ s.diags → s.stopped = false →
      Completes (.diagnostic h g false 0) s fun t => t = { s with diags := s.diags ++ [k] }) ∧
    ((s.gal k).suspect = false → (s.gal k).flight = none → (s.gal k).queue = [] → (s.gal k).newProfile = none →
      Completes (.diagnostic h g true 0) s fun t =>
        (t.gal k).suspect = true ∧ (t.gal k).cause = 6 ∧ OtherGalleries k s t ∧ t.eventSeq = (s.eventSeq + 1) % 2 ^ 32 ∧
        ((s.gal k).retired = false → s.testOn k = false → s.stopped = false → k ∈ t.diags)) ∧
    (∀ retire a, a < 32 → retire.testBit a = true → Completes (.diagnostic h g false retire) s fun t =>
      wearState (t.wear (arrKey k a)) = 2 ∧ t.galleries = s.galleries ∧ t.mem = s.mem) ∧
    (k ∈ s.diags → s.owner k = none → s.recArrays k = [] →
      (∀ failed, Completes (.diagnosticEnd h g true failed) s fun t =>
        (t.gal k).retired = true ∧ (t.gal k).suspect = false ∧ (∀ a, a < 32 → wearState (t.wear (arrKey k a)) = 2) ∧
        t.diags = s.diags.erase k ∧ t.eventSeq = (s.eventSeq + 1) % 2 ^ 32 ∧ t.reg 0xA0018 = s.reg 0xA0018 + 1#32) ∧
      (∀ a conv, a < 32 → (s.arr (arrKey k a)).record = none → Completes (.diagnosticEnd h g false [(a, conv)]) s fun t =>
        (t.gal k).retired = (s.gal k).retired ∧ (t.gal k).suspect = false ∧ wearState (t.wear (arrKey k a)) = 2 ∧
        (∀ b, b < 32 → b ≠ a → t.wear (arrKey k b) = s.wear (arrKey k b)) ∧ t.eventSeq = (s.eventSeq + 1) % 2 ^ 32) ∧
      ((s.gal k).suspects < 3 → Completes (.diagnosticEnd h g false []) s fun t =>
        t.gal k = { s.gal k with suspect := false } ∧ OtherGalleries k s t ∧ t = { s with diags := s.diags.erase k, galleries := t.galleries }))

/-- R423, R424: the watchdog of a stream processor in use takes it out of FLT_SP and records failure 0x54nn; the active management
processor beats every 10 µs in RUN, and 30 µs without a beat make the standby active and leave no standby. -/
def Sys2Proof.Claims.ProcessorSteps : Prop :=
  ∀ s : State,
    (∀ n, n < 32 → bit (s.reg 0xA0004) n = true → Completes (.spWatchdogTimeout n) s fun t =>
      t.reg 0xA0004 = setFld (s.reg 0xA0004) n n 0 ∧ fld (t.reg 0x10004) 15 0 = 0x5400 + n ∧ t.galleries = s.galleries ∧ t.mem = s.mem ∧
      t.now = s.now) ∧
    (∀ n, 32 ≤ n → NoEffect (.spWatchdogTimeout n) s) ∧
    (s.pkg = 3 → Completes .mpHeartbeat s fun t =>
      t.now = max s.now (s.mpBeat + us 10) ∧ t.mpBeat = t.now ∧ t = { s with now := t.now, mpBeat := t.mpBeat }) ∧
    (s.pkg = 3 → s.power.phase = .rest → bit (s.reg 0xA0000) 2 = true → Completes .mpHeartbeatTimeout s fun t =>
      t.now = max s.now (s.mpBeat + us 30) ∧ t.mpBeat = t.now ∧ t.rfld 0xA0000 1 1 = 1 - s.rfld 0xA0000 1 1 ∧
      bit (t.reg 0xA0000) 2 = false ∧ fld (t.reg 0x10004) 15 0 = 0x5500 + s.rfld 0xA0000 1 1 ∧ t.pkg = 3) ∧
    (s.pkg = 3 → s.power.phase = .rest → bit (s.reg 0xA0000) 2 = false → Completes .mpHeartbeatTimeout s fun t =>
      t.pkg = 4 ∧ t.power.cause = 3)

/-- R415, R416: started by the management function while no test runs, a test that is not refused sets BUSY and clears RESULT; one that is
refused only sets RESULT to 2; a START while BUSY, or one by another function, changes at most TE_CTRL.TEST. At its end a test clears
BUSY, sets DONE, leaves RESULT 1 and the failing place when it failed, and is counted; it retires nothing. -/
def Sys2Proof.Claims.TestEngineSteps : Prop :=
  ∀ (s : State) (fn n : Nat) (c : Instr),
    ((c, n) ∈ [(Instr.sramMarch fn, 1), (.tierMarch fn, 2), (.loopback fn, 3), (.reference fn, 4), (.scan fn, 5), (.link fn, 6), (.tmon fn, 7)] →
      (s.isMgmt fn = false → NoEffect c s) ∧
      (s.isMgmt fn = true → s.test.isSome = true → Completes c s fun t =>
        t.rfld 0xC0000 3 0 = n ∧ OtherRegisters [0xC0000] s t ∧ t = { s with bar0 := t.bar0 }) ∧
      (s.isMgmt fn = true → s.test = none → s.testRefused n = true → Completes c s fun t =>
        t.rfld 0xC0000 3 0 = n ∧ t.rfld 0xC0014 2 1 = 2 ∧ OtherRegisters [0xC0000, 0xC0014] s t ∧ t = { s with bar0 := t.bar0 }) ∧
      (s.isMgmt fn = true → s.test = none → s.testRefused n = false → Completes c s fun t =>
        (∃ r, t.test = some r ∧ r.test = n ∧ r.startAt = s.now) ∧ bit (t.reg 0xC0014) 0 = true ∧ t.rfld 0xC0014 2 1 = 0 ∧ t.mem = s.mem ∧
        t.eventSeq = s.eventSeq)) ∧
    (∀ (r : TestRun) (failed : Option Nat), s.test = some r → r.test ≠ 5 → Completes (.testEnd failed) s fun t =>
      t.test = none ∧ bit (t.reg 0xC0014) 0 = false ∧ bit (t.reg 0xC0014) 3 = true ∧ t.rfld 0xC0014 2 1 = (if failed.isSome then 1 else 0) ∧
      t.reg 0xC0020 = s.reg 0xC0020 + 1#32 ∧ (∀ x, failed = some x → t.reg 0xC0018 = BitVec.ofNat 32 x ∧ t.reg 0xC001C = BitVec.ofNat 32 (x / 2 ^ 32)) ∧
      OtherRegisters [0xC0014, 0xC0018, 0xC001C, 0xC0020] s t ∧ t = { s with bar0 := t.bar0, test := t.test })

/-- WAKING begins with REG_CHECK at rail `r`, the first of rails 1 to 6 that is not on and good (R353, R363, R365). -/
def Sys2Proof.Claims.wakes (r : Nat) (s t : State) : Prop :=
  t.pkg = 2 ∧ t.wakeStep = 1 ∧ t.attempt = 0 ∧ t.incarnation = (s.incarnation + 1) % 65536 ∧
  t.nvLE 0x303FF8 2 = (s.incarnation + 1) % 65536 ∧ t.railEn r = true ∧ t.power.phase = (if s.railPg r then .settle r else .rail r) ∧
  t.galleries = s.galleries ∧ t.mem = s.mem ∧ OtherRegisters [0x10000, 0x10008, 0x80000] s t

/-- Rail `r` is the first of rails 1 to 6 after `q` that is not on and good. -/
def Sys2Proof.Claims.firstRail (q r : Nat) (s : State) : Prop :=
  q < r ∧ r ≤ 6 ∧ ¬ (s.railEn r = true ∧ s.railPg r = true) ∧ ∀ x, q < x → x < r → s.railEn x = true ∧ s.railPg x = true

/-- R353, R362, R363, R378, R384: VDD_AON brings STANDBY; 2 ms later AON_ON samples the straps, takes INCARNATION from the NV log and
rests while MAIN_OK is low, wakes when it is high. A rise of MAIN_OK in STANDBY or HALTED, and RETRY in HALTED, start WAKING with the
next INCARNATION; in any other state a rise only sets MAIN_OK. The crystal sets its flag. -/
def Sys2Proof.Claims.PowerUpSteps : Prop :=
  ∀ s : State,
    (s.power.phase = .off → Completes .vddAonGood s fun t =>
      t.pkg = 1 ∧ t.power.phase = .aonOn ∧ t.power.since = s.now ∧ OtherRegisters [0x10000] s t ∧
      t = { s with bar0 := t.bar0, power := t.power }) ∧
    (∀ straps, s.power.phase = .aonOn → Completes (.aonOn straps) s fun t =>
      t.now = max s.now (s.power.since + ms 2) ∧ t.reg 0x14 = BitVec.ofNat 32 (straps % 8) ∧
      (s.mainOk = false → t.power.phase = .rest ∧ t.pkg = s.pkg ∧ t.incarnation = s.nvLE 0x303FF8 2 ∧ t.power.aonAt = t.now) ∧
      (s.mainOk = true → straps.testBit 2 = false → t.pkg = 2 ∧ t.incarnation = (s.nvLE 0x303FF8 2 + 1) % 65536)) ∧
    (∀ r, s.power.phase = .rest → s.power.hold = false → s.power.latch = false → bit (s.reg 0x14) 2 = false →
      Sys2Proof.Claims.firstRail 0 r s →
      (s.pkg = 5 → Completes .retry s fun t => Sys2Proof.Claims.wakes r s t ∧ t.mainOk = s.mainOk) ∧
      (s.mainOk = false → s.pkg = 1 ∨ s.pkg = 5 → Completes .mainOkRise s fun t => Sys2Proof.Claims.wakes r s t ∧ t.mainOk = true)) ∧
    (s.power.phase ≠ .off → s.mainOk = false → s.pkg ≠ 1 → s.pkg ≠ 5 → Completes .mainOkRise s fun t =>
      t.mainOk = true ∧ t.pkg = s.pkg ∧ t.power = { s.power with mainSince := some s.now } ∧ OtherRegisters [0x10000] s t ∧
      t = { s with bar0 := t.bar0, power := t.power }) ∧
    (s.pkg ≠ 5 → NoEffect .retry s) ∧
    (s.power.phase ≠ .off → Completes .crystalRuns s fun t =>
      t.xtalOk = true ∧ bit (t.reg 0x10000) 9 = (decide (s.pkg = 5) || decide (s.power.phase = .aonOn)) ∧ t.pkg = s.pkg ∧
      OtherRegisters [0x10000, 0x20000] s t ∧ t = { s with bar0 := t.bar0 })

/-- R365, R375, R376: a rail that was awaited settles when its power-good rises, and 100 µs later the next rail that is not on and good is
enabled, or OSC_CHECK begins; a rail without power-good for 25 ms is switched off for 10 ms and tried again, and the fourth failure
records 0x11nn. -/
def Sys2Proof.Claims.RegulatorSteps : Prop :=
  ∀ (s : State) (r : Nat),
    (1 ≤ r → r ≤ 7 → s.railEn r = true → s.railPg r = false → Completes (.powerGoodRise r) s fun t =>
      t.railPg r = true ∧ t.railEn r = true ∧ t.power.phase = (if s.power.phase = .rail r then .settle r else s.power.phase) ∧
      OtherRegisters [0x10008] s t ∧ t = { s with bar0 := t.bar0, power := t.power }) ∧
    (s.power.phase = .settle r →
      (∀ q, Sys2Proof.Claims.firstRail r q s → Completes .railSettleDelay s fun t =>
        t.now = max s.now (s.power.since + us 100) ∧ t.railEn q = true ∧ t.power.phase = (if s.railPg q then .settle q else .rail q) ∧
        OtherRegisters [0x10008] s t) ∧
      ((∀ x, r < x → x ≤ 6 → s.railEn x = true ∧ s.railPg x = true) → Completes .railSettleDelay s fun t =>
        t.now = max s.now (s.power.since + us 100) ∧ t.wakeStep = 2 ∧ t.attempt = 0 ∧ t.power.phase = .osc ∧ t.pkg = s.pkg)) ∧
    (s.power.phase = .rail r → 1 ≤ r → r ≤ 6 →
      (s.wakeStep = 1 → s.attempt < 3 → Completes .railPgTimeout s fun t =>
        t.now = max s.now (s.power.since + ms 25) ∧ t.railEn r = false ∧ t.power.phase = .retry 1 r ∧ t.power.retries = s.power.retries + 1 ∧
        OtherRegisters [0x10008] s t) ∧
      (s.attempt = 3 → Completes .railPgTimeout s fun t => fld (t.reg 0x10004) 15 0 = 0x1100 + r)) ∧
    (s.power.phase = .retry 1 r → s.attempt < 3 → r ≤ 6 → Completes .wakeRetryDelay s fun t =>
      t.now = max s.now (s.power.since + ms 10) ∧ t.attempt = s.attempt + 1 ∧ t.railEn r = true ∧
      t.power.phase = (if s.railPg r then .settle r else .rail r)) ∧
    (s.power.phase = .retry 2 r → s.attempt < 3 → Completes .wakeRetryDelay s fun t =>
      t.now = max s.now (s.power.since + ms 10) ∧ t.attempt = s.attempt + 1 ∧ t.wakeStep = 2 ∧ t.power.phase = .osc)

/-- R366, R368: in RUN the fall of the power-good of a rail 1 to 6 enters HOLDUP with cause 1 and records 0x52nn. While rails go down the
highest one still enabled is deasserted next, VPROG before all others, after its predecessor's power-good has fallen or 5 ms; with
none left the package is in HALTED or STANDBY, or MAIN_OK is awaited. -/
def Sys2Proof.Claims.RailsGoDown : Prop :=
  ∀ (s : State) (r : Nat),
    (1 ≤ r → r ≤ 6 → s.railPg r = true → s.pkg = 3 → s.power.phase = .rest → Completes (.powerGoodFall r) s fun t =>
      t.pkg = 4 ∧ t.railPg r = false ∧ t.power.cause = 1 ∧ t.power.phase = .handover ∧ fld (t.reg 0x10004) 15 0 = 0x5200 + r) ∧
    (∀ st, s.power.phase = .down r st →
      (∀ q, 1 ≤ q → q ≤ 7 → s.railEn q = true → (∀ x, q < x → x ≤ 7 → s.railEn x = false) → Completes .railOffTimeout s fun t =>
        t.railEn q = false ∧ t.power.phase = .down q st ∧ t.now = (if s.railPg r then max s.now (s.power.since + ms 5) else s.now)) ∧
      ((∀ x, 1 ≤ x → x ≤ 7 → s.railEn x = false) →
        (st = 5 → Completes .railOffTimeout s fun t => t.pkg = 5 ∧ t.power.phase = .rest) ∧
        (st = 4 → Completes .railOffTimeout s fun t => t.pkg = s.pkg ∧ t.power.phase = .holdWait) ∧
        (st = 1 → s.mainOk = false → Completes .railOffTimeout s fun t => t.pkg = 1 ∧ t.wakeStep = 0 ∧ t.power.phase = .rest)))

/-- R370, R374 to R376, R380: OSC_CHECK fails without a crystal after 1 ms and without every PLL locked after 2 ms; once all lock, the time
base starts at 0 and BIST begins; BIST and SURVEY_BASELINE fail at their time limits; a BIST whose findings let the package start leads
to SURVEY_BASELINE, and its end to READY in RUN. A failure before the fourth attempt tries the step again, the fourth records its code. -/
def Sys2Proof.Claims.WakeStepsToReady : Prop :=
  ∀ (s : State) (found : Bist) (failed : List Nat) (locked : Nat),
    (s.power.phase = .osc → s.xtalOk = false → s.wakeStep = 2 → s.attempt < 3 → Completes .crystalEdgeTimeout s fun t =>
      t.now = max s.now (s.power.since + ms 1) ∧ t.power.phase = .retry 2 0 ∧ t.power.retries = s.power.retries + 1) ∧
    (s.power.phase = .osc → s.xtalOk = true → Completes .pllLocked s fun t =>
      t.tbStart = some s.now ∧ t.time = 0#64 ∧ t.now = s.now ∧ t.wakeStep = 3 ∧ t.attempt = 0 ∧ t.power.phase = .bist ∧
      fld (t.reg 0x20000) 28 0 = 2 ^ 29 - 1 ∧ t.pkg = s.pkg) ∧
    (∀ i, i < 29 → locked.testBit i = false → (∀ j, j < i → locked.testBit j = true) → s.power.phase = .osc →
      (s.attempt = 3 → Completes (.pllLockTimeout locked) s fun t => fld (t.reg 0x10004) 15 0 = 0x2200 + i) ∧
      (s.wakeStep = 2 → s.attempt < 3 → Completes (.pllLockTimeout locked) s fun t =>
        t.now = max s.now (s.power.since + ms 2) ∧ t.power.phase = .retry 2 0)) ∧
    (s.power.phase = .bist →
      (s.bistFails found = none → Completes (.bistDone found) s fun t =>
        t.power.found = found ∧ t.wakeStep = 4 ∧ t.attempt = 0 ∧ t.power.phase = .baseline ∧ t.pkg = s.pkg ∧
        ∀ p, p ∈ found.deadConvs → wearState (t.wear p.1) = 2) ∧
      (∀ code, s.bistFails found = some code → s.attempt = 3 → Completes (.bistDone found) s fun t => fld (t.reg 0x10004) 15 0 = code) ∧
      (s.attempt = 3 → Completes .wakeStepTimeout s fun t => fld (t.reg 0x10004) 15 0 = 0x3600) ∧
      (s.wakeStep = 3 → s.attempt < 3 → Completes .wakeStepTimeout s fun t =>
        t.now = max s.now (s.power.since + sec 2) ∧ t.attempt = s.attempt + 1 ∧ t.power.phase = .bist ∧ t.power.since = t.now)) ∧
    (s.power.phase = .baseline →
      (s.attempt = 3 → Completes .wakeStepTimeout s fun t => fld (t.reg 0x10004) 15 0 = 0x4600) ∧
      (Completes (.surveyBaselineDone failed) s fun t =>
        t.pkg = 3 ∧ t.wakeStep = 0 ∧ t.attempt = 0 ∧ t.power.phase = .rest ∧ t.power.ready = some s.now ∧ bit (t.reg 0x10) 0 = true ∧
        (∀ k, k < 4096 → k ∈ failed → (t.gal k).retired = true) ∧
        (∀ k, k < 4096 → k / 512 ∉ s.power.hallsOut → t.reg (galReg k 0x8C) = s.reg (galReg k 0x8C) + 6144#32) ∧
        t.eventSeq = (s.eventSeq + 1) % 2 ^ 32 ∧ t.now = s.now))

/-- R362, R363, R366, R382 to R386: the fall of MAIN_OK in RUN, and a HANDOVER of the sideband or of the management function, enter HOLDUP:
every gallery is in DEEP with nothing running, no engine, attention or sparse job is left, and no command is outstanding; memory and cells
stay where no row is being programmed (R176). In WAKING
the fall powers the rails down. The hand-over's end writes its report and keeps every wear record; MAIN_OK high for 100 ms after it
wakes the package; without VDD_AON only cells, NV log and drives are left. -/
def Sys2Proof.Claims.HandoverSteps : Prop :=
  ∀ s : State,
    (∀ c cause, (c = Instr.mainOkFall ∧ cause = 0 ∧ s.mainOk = true) ∨ (c = .handover none ∧ cause = 2) ∨
        (∃ f, c = .handover (some f) ∧ cause = 2 ∧ s.isMgmt f = true) →
      s.Inv → s.pkg = 3 → s.power.phase = .rest → Completes c s fun t =>
        t.pkg = 4 ∧ t.power.phase = .handover ∧ t.power.cause = cause ∧ t.power.holdAt = s.now ∧ t.accepted = [] ∧ t.attRuns = [] ∧
        t.spe = [] ∧ t.engines = [] ∧ t.railEn 7 = false ∧ t.progActive = [] ∧ bit (t.reg 0x10) 0 = false ∧
        (∀ k, (t.gal k).flight = none ∧ (t.gal k).queue = [] ∧ (t.gal k).power = .deep) ∧
        ((∀ i x, (s.arr i).cut = some x → x.endAt ≤ s.now) → t.mem = s.mem ∧ t.cells = s.cells)) ∧
    (∀ f, s.isMgmt f = false → NoEffect (.handover (some f)) s) ∧
    (∀ q, s.mainOk = true → s.pkg = 2 → s.stopped = false → 1 ≤ q → q ≤ 7 → s.railEn q = true →
      (∀ x, q < x → x ≤ 7 → s.railEn x = false) → Completes .mainOkFall s fun t =>
        t.mainOk = false ∧ t.railEn q = false ∧ t.power.phase = .down q 1 ∧ t.power.mainSince = none) ∧
    (∀ dur w wear, s.Inv → s.power.phase = .handover → s.power.railLost = false → s.openStreams.length < 2 ^ 17 →
      Completes (.handoverEnd dur w wear) s fun t =>
        t.now = max s.now (s.power.holdAt + us (10 * min dur 1100)) ∧ fld (t.reg 0x10018) 31 21 = min dur 1100 ∧
        (s.power.cause ≠ 3 → fld (t.reg 0x10018) 16 0 = s.openStreams.length) ∧ (∀ i, i < 131072 → t.wear i = s.wear i)) ∧
    (∀ u, s.power.phase = .holdWait → s.power.mainSince = some u → s.power.hold = false → s.power.latch = false →
      bit (s.reg 0x14) 2 = false → Completes .mainOkStable s fun t =>
        t.now = max s.now (u + ms 100) ∧ t.pkg = 2 ∧ t.incarnation = (s.incarnation + 1) % 65536 ∧
        t.power.exits.length = s.power.exits.length + 1 ∧ t.eventSeq = (s.eventSeq + 1) % 2 ^ 32) ∧
    (Completes .vddAonLoss s fun t =>
      t.pkg = 0 ∧ t.power.phase = .off ∧ t.cells = s.cells ∧ t.tier2 = s.tier2 ∧ t.mem = [] ∧ t.galleries = [] ∧
      (∀ x, x ≠ 0x37F00E → t.nvByte x = s.nvByte x) ∧ (s.power.phase ≠ .handover → t.nv = s.nv))

/-- R378: a sideband read returns its register in every state but OFF, and changes nothing else. -/
def Sys2Proof.Claims.SidebandReads : Prop :=
  ∀ (s : State) (c : Instr) (v : Nat),
    (c, v) ∈ [(Instr.smbReadPwrStatus, (s.reg 0x10000).toNat), (.smbReadPwrFail, (s.reg 0x10004).toNat),
      (.smbReadPwrRails, (s.reg 0x10008).toNat), (.smbReadPwrBoot, (s.reg 0x1000C).toNat), (.smbReadIncarnation, s.incarnation)] →
    (s.power.phase ≠ .off → Completes c s fun t => t = { s with lastRead := BitVec.ofNat 64 v }) ∧ (s.power.phase = .off → NoEffect c s)

/-- R183, R275, R367, R371 to R373, R379: the clocks' and supplies' smaller events: a port out of PERST# is noted; the core clock follows
the profiles and is counted; TB_SKEW keeps the largest correction, at most 2 ns, and each copy's difference shrinks by its correction; a hall's PLL has relocked; VPROG without power-good
for 25 ms ends all programming with failure 0x5207; VPROG is switched off when its delay ends; the wear table goes to the NV log every
600 s and no array's wear record changes by it. -/
def Sys2Proof.Claims.SupplyAndClockSteps : Prop :=
  ∀ s : State,
    (∀ port speed width cxl, s.tbStart = none → Completes (.perstDeassert port speed width cxl) s fun t =>
      t = { s with power := { s.power with perst := s.power.perst.set (port % 2) (some (speed, width, cxl)) } }) ∧
    (s.pkg = 3 → s.economy ≠ s.coreSlow → Completes .coreClockChange s fun t =>
      t.coreSlow = s.economy ∧ bit (t.reg 0x20000) 29 = s.economy ∧ t.rfld 0x20004 31 16 = (s.rfld 0x20004 31 16 + 1) % 65536 ∧
      OtherRegisters [0x20000, 0x20004] s t ∧ t = { s with bar0 := t.bar0, coreSlow := t.coreSlow }) ∧
    (s.economy = s.coreSlow → NoEffect .coreClockChange s) ∧
    (∀ diffs : List Int, s.tbStart.isSome = true → Completes (.timebaseTick diffs) s fun t =>
      s.rfld 0x20010 7 0 ≤ t.rfld 0x20010 7 0 ∧ t.rfld 0x20010 7 0 ≤ max 2 (s.rfld 0x20010 7 0) ∧
      (∀ d : Int, d ∈ diffs → min 2 d.natAbs ≤ t.rfld 0x20010 7 0) ∧ OtherRegisters [0x20010] s t ∧
      t.tbDiffs.length = diffs.length ∧
      (∀ (i : Nat) (d : Int), diffs[i]? = some d → ∃ r : Int, t.tbDiffs[i]? = some r ∧ r.natAbs = d.natAbs - min 2 d.natAbs) ∧
      t = { s with bar0 := t.bar0, tbDiffs := t.tbDiffs }) ∧
    (∀ h, Completes (.hallPllRelock h) s fun t =>
      h ∉ t.power.relock ∧ (∀ x, x ≠ h → (x ∈ t.power.relock ↔ x ∈ s.power.relock)) ∧
      t = { s with power := { s.power with relock := t.power.relock } }) ∧
    (∀ u, s.Inv → s.vprogAt = some u → s.railEn 7 = true → s.railPg 7 = false → Completes .vprogPgTimeout s fun t =>
      t.now = max s.now (u + ms 25) ∧ t.railEn 7 = false ∧ t.progActive = [] ∧ t.progWait = [] ∧ (∀ i, (t.arr i).job = none) ∧
      fld (t.reg 0x10004) 15 0 = 0x5207) ∧
    (∀ u, s.vprogOff = some u → Completes .vprogOffDelay s fun t =>
      t.now = max s.now u ∧ t.railEn 7 = false ∧ t.vprogOff = none ∧ t.vprogAt = none ∧ OtherRegisters [0x10008] s t ∧
      t = { s with now := t.now, bar0 := t.bar0, vprogOff := none, vprogAt := none }) ∧
    (s.Inv → Completes .wearTableWrite s fun t =>
      t.now = max s.now (s.lastWear + sec 600) ∧ t.lastWear = t.now ∧ (∀ i, i < 131072 → t.wear i = s.wear i ∧ (t.arr i).wear = none) ∧
      ((∀ i, 131072 ≤ i → (s.arr i).wear = none) → ∀ x, 0x200000 ≤ x → t.nvByte x = s.nvByte x) ∧
      t = { s with now := t.now, nv := t.nv, arrays := t.arrays, lastWear := t.lastWear })

/-- R390 to R393, R405: TMON_REQ takes a request of a management processor or of the management function only and queues it; an urgent one
goes before all that are not urgent and aborts the conversion in progress, which TMON_ABORTS counts; VR_ALERT queues the urgent request
of every powered converter that has it enabled and touches no other converter. A reference buffer that is switched on is ready 100 µs
later. -/
def Sys2Proof.Claims.ConverterRequests : Prop :=
  ∀ (s : State) (fn : Option Nat) (d k v : Nat),
    let q : ConvReq := { ch := v % 32, gain := v / 32 % 4, urgent := false }
    (converterOk d k = true →
      (s.mayTmon fn = true → s.diePowered d = true → Completes (.tmonRequest fn d k v) s fun t =>
        t.reg (tmonReg d k 4) = BitVec.ofNat 32 (v % 128) ∧ (t.tmon d k).queue = (s.tmon d k).queue ++ [q] ∧
        ((s.tmon d k).queue ≠ [] → (t.tmon d k).due = (s.tmon d k).due) ∧
        ((s.tmon d k).queue = [] → (t.tmon d k).due = s.now + us 1 + ns 1500) ∧ OtherRegisters [tmonReg d k 4] s t ∧
        (∀ i, i ≠ 2 * d + k → Tab.get Tmon.reset t.tmons i = Tab.get Tmon.reset s.tmons i) ∧ t = { s with bar0 := t.bar0, tmons := t.tmons }) ∧
      (s.mayTmon fn = true → s.diePowered d = true → (∀ x, x ∈ (s.tmon d k).queue → x.urgent = false) → ∀ running : Bool,
        Completes (.tmonUrgentRequest fn d k v running) s fun t =>
          (t.tmon d k).queue = { q with urgent := true } :: (s.tmon d k).queue ∧
          t.reg (tmonReg d k 0x2C) = s.reg (tmonReg d k 0x2C) + (if running = true ∨ (s.tmon d k).queue ≠ [] then 1#32 else 0#32) ∧
          OtherRegisters [tmonReg d k 4, tmonReg d k 0x2C] s t ∧ t = { s with bar0 := t.bar0, tmons := t.tmons }) ∧
      (s.mayTmon fn = false → NoEffect (.tmonRequest fn d k v) s ∧ NoEffect (.tmonUrgentRequest fn d k v true) s) ∧
      (∀ f, s.isMgmt f = true → s.diePowered d = true → Completes (.tmonRefEnable f d k) s fun t =>
        bit (t.reg (tmonReg d k 0)) 0 = true ∧ (t.tmon d k).refOn = some ((s.tmon d k).refOn.getD s.now) ∧
        OtherRegisters [tmonReg d k 0] s t ∧ t = { s with bar0 := t.bar0, tmons := t.tmons }) ∧
      (∀ u, (s.tmon d k).refOn = some u → Completes (.tmonRefReady d k) s fun t =>
        t.now = max s.now (u + us 100) ∧ bit (t.reg (tmonReg d k 0)) 1 = true ∧ OtherRegisters [tmonReg d k 0] s t ∧
        t = { s with now := t.now, bar0 := t.bar0 })) ∧
    (∀ running, Completes (.vrAlert running) s fun t => ∀ d k, converterOk d k = true →
      let w := s.reg (tmonReg d k 0x30)
      if bit w 7 = true ∧ s.diePowered d = true then
        ∃ x, x ∈ (t.tmon d k).queue ∧ x.urgent = true ∧ x.ch = fld w 4 0 ∧ x.gain = fld w 6 5
      else t.tmon d k = s.tmon d k)

/-- R390, R393, R405: a conversion ends at its instant, TMON_RESULT names its channel and is new, TMON_CONVS counts it. Of a present channel,
with the buffer ready, two conversions after its gain last changed, DATA is the calibrated code and no error is set. -/
def Sys2Proof.Claims.ConversionResult : Prop :=
  ∀ (s : State) (d k : Nat) (q : ConvReq) (rest : List ConvReq) (raw : Int),
    (s.tmon d k).queue = q :: rest → s.diePowered d = true → converterOk d k = true →
    ((s.tmon d k).cal = none ∧ s.testTmon d k = false ∨ q.urgent = true) →
    let g := if chanSigned q.ch then q.gain else 0
    Completes (.tmonConversionDone d k raw) s fun t =>
      t.now = max s.now (s.tmon d k).due ∧ (t.tmon d k).queue = rest ∧ bit (t.reg (tmonReg d k 8)) 27 = true ∧
      fld (t.reg (tmonReg d k 8)) 20 16 = q.ch % 32 ∧ t.reg (tmonReg d k 0x28) = s.reg (tmonReg d k 0x28) + 1#32 ∧
      (chanPresent d q.ch = true → bit (s.reg (tmonReg d k 0)) 1 = true → s.autoranged d k q.ch = false →
        (s.tmon d k).last = some (q.ch, g) → 2 ≤ (s.tmon d k).settled →
        bit (t.reg (tmonReg d k 8)) 24 = false ∧
        (bit (s.reg (tmonReg d k 0)) 2 = false → fld (t.reg (tmonReg d k 8)) 15 0 = unsigned 16 (s.calibrate d k q.ch g raw))) ∧
      OtherRegisters [tmonReg d k 8, tmonReg d k 0x28] s t ∧ t = { s with now := t.now, bar0 := t.bar0, tmons := t.tmons }

/-- R395: the management function starts ZERO, FULL and SAVE on an idle converter of a powered die, which is BUSY for 64 µs; anything else
is ignored. ZERO then keeps the mean as the candidate offset; FULL writes the calibration pair when its gain lies in range and sets
ERR otherwise; SAVE writes the four pairs to the NV log. -/
def Sys2Proof.Claims.CalibrationCommands : Prop :=
  ∀ (s : State) (fn d k g : Nat) (raws : List Int), g < 4 → converterOk d k = true →
    (∀ c op, (c, op) ∈ [(Instr.zero fn d k g raws, 1), (.full fn d k g raws, 2)] →
      (s.isMgmt fn = true → s.diePowered d = true → (s.tmon d k).cal = none → Completes c s fun t =>
        t.tmon d k = { s.tmon d k with cal := some (op, g), calAt := s.now, raws := raws } ∧ bit (t.reg (tmonReg d k 0x20)) 4 = true ∧
        OtherRegisters [tmonReg d k 0x20] s t ∧ t = { s with bar0 := t.bar0, tmons := t.tmons }) ∧
      (s.isMgmt fn = false ∨ s.diePowered d = false ∨ (s.tmon d k).cal.isSome = true → NoEffect c s)) ∧
    (s.isMgmt fn = true → s.diePowered d = true → (s.tmon d k).cal = none → Completes (.save fn d k) s fun t =>
      t.tmon d k = { s.tmon d k with cal := some (3, s.rfld (tmonReg d k 0x20) 3 2), calAt := s.now, raws := [] } ∧
      bit (t.reg (tmonReg d k 0x20)) 4 = true ∧ OtherRegisters [tmonReg d k 0x20] s t) ∧
    (∀ op, (s.tmon d k).cal = some (op, g) →
      let m := calMean (s.tmon d k).raws
      let offs := (Tab.find (s.tmon d k).offs g).getD (signed 16 (s.rfld (tmonReg d k (0x10 + 4 * g)) 15 0))
      (Completes (.tmonCalDone d k) s fun t =>
        t.now = max s.now ((s.tmon d k).calAt + us 64) ∧ (t.tmon d k).cal = none ∧ bit (t.reg (tmonReg d k 0x20)) 4 = false ∧
        t.reg (tmonReg d k 0x28) = s.reg (tmonReg d k 0x28) + BitVec.ofNat 32 (s.tmon d k).raws.length) ∧
      (op = 1 → Completes (.tmonCalDone d k) s fun t =>
        Tab.find (t.tmon d k).offs g = some m ∧ OtherRegisters [tmonReg d k 0x20, tmonReg d k 0x28] s t) ∧
      (∀ x, op = 2 → calGain m offs = some x → 12288 ≤ x → x ≤ 20480 → Completes (.tmonCalDone d k) s fun t =>
        t.reg (tmonReg d k (0x10 + 4 * g)) = BitVec.ofNat 32 (unsigned 16 offs + x.toNat * 2 ^ 16) ∧
        bit (t.reg (tmonReg d k 0x20)) 5 = bit (s.reg (tmonReg d k 0x20)) 5) ∧
      (op = 2 → (∀ x, calGain m offs = some x → x < 12288 ∨ 20480 < x) → Completes (.tmonCalDone d k) s fun t =>
        t.reg (tmonReg d k (0x10 + 4 * g)) = s.reg (tmonReg d k (0x10 + 4 * g)) ∧ bit (t.reg (tmonReg d k 0x20)) 5 = true) ∧
      (op = 3 → Completes (.tmonCalDone d k) s fun t =>
        ∀ i, i < 4 → t.nvLE (calOffset d k i) 4 = (s.reg (tmonReg d k (0x10 + 4 * i))).toNat))

/-- R394, R396: the scan, the cross-check and its repeat run at their instants. The scan gives every die its power and an unpowered die
none; the first failing check of a die is only noted for its repeat, 100 µs later, and raises nothing; a repeat that fails counts on
both converters and raises one event; a converter without a result counts as failing. Without a valid inlet reading for 1 s INLET_MAX
is used. -/
def Sys2Proof.Claims.ScansAndCrosschecks : Prop :=
  ∀ (s : State) (codes : List (Nat × Nat × List Int)),
    (s.power.phase ≠ .off → s.power.phase ≠ .aonOn →
      (Completes (.tmonScan codes) s fun t =>
        t.now = max s.now (s.thermal.lastScan + us 100) ∧ t.thermal.lastScan = t.now ∧
        t.thermal.p = tabulate modelDies (fun d => F32.ofRat (t.diePower d)) ∧
        (∀ d, d < logicDies → s.diePowered d = false → t.diePower d = 0 ∧ t.reg (0x40220 + 4 * d) = 0#32) ∧
        t = { s with now := t.now, bar0 := t.bar0, tmons := t.tmons, thermal := t.thermal }) ∧
      (Completes (.tmonCrosscheck codes) s fun t =>
        t.now = max s.now (s.thermal.lastCheck + ms 10) ∧ t.thermal.lastCheck = t.now ∧
        (∀ d, d ∈ t.thermal.recheck → d < logicDies ∧ s.diePowered d = true) ∧ t.eventSeq = s.eventSeq)) ∧
    (s.thermal.recheck ≠ [] → s.thermal.recheck.Nodup → Completes (.crosscheckRepeat codes) s fun t =>
      t.now = max s.now (s.thermal.checkAt + us 100) ∧ (∀ d, d ∈ t.thermal.recheck → d ∈ s.thermal.recheck) ∧
      (∀ d, 3 ≤ (codesOf codes d 0).length → 3 ≤ (codesOf codes d 1).length → d ∉ t.thermal.recheck)) ∧
    (∀ d k other, converterOk d k = true → s.diePowered d = true →
      (d ∉ s.thermal.recheck → Completes (.crosscheckNoResult d k other) s fun t =>
        t.thermal = { s.thermal with recheck := s.thermal.recheck ++ [d], checkAt := s.now } ∧ t = { s with thermal := t.thermal }) ∧
      (d ∈ s.thermal.recheck → d ∉ s.thermal.bad → Completes (.crosscheckNoResult d k other) s fun t =>
        d ∉ t.thermal.recheck ∧ t.thermal.bad = s.thermal.bad ++ [d] ∧ t.eventSeq = (s.eventSeq + 1) % 2 ^ 32 ∧
        t.reg (tmonReg d 0 0x24) = s.reg (tmonReg d 0 0x24) + 1#32 ∧ t.reg (tmonReg d 1 0x24) = s.reg (tmonReg d 1 0x24) + 1#32)) ∧
    (s.thermal.tValid = false → s.thermal.useMax = false → s.thermal.tIn.isSome = true → Completes .inletHoldExpiry s fun t =>
      t.now = max s.now (s.thermal.tAt + sec 1) ∧ t.thermal = { s.thermal with useMax := true } ∧ OtherRegisters [0x40008] s t ∧
      t = { s with now := t.now, bar0 := t.bar0, thermal := t.thermal })

/-- R398, R399, R401 to R403: an update of the thermal model comes 100 µs after the previous one, counts in THERM_UPDATES, and adds to the
history exactly when every powered die has a power value and T_in is valid. Throttling begins at an update whose hottest estimate
has reached THROTTLE_C and at no other, and does not end at an update; it ends 1 s after every estimate has been 5 °C below. At 110 °C
in RUN the latch is set and the hand-over begins. -/
def Sys2Proof.Claims.ThermalModel : Prop :=
  ∀ s : State,
    (s.power.phase ≠ .off → s.power.phase ≠ .aonOn → Completes .thermalModelUpdate s fun t =>
      t.now = max s.now (s.thermal.lastUpdate + us 100) ∧ t.thermal.lastUpdate = t.now ∧
      t.thermal.history = s.thermal.history + (if s.historyCounts then 1 else 0) ∧ t.reg 0x4001C = s.reg 0x4001C + 1#32 ∧
      (s.throttled = true → t.throttled = true) ∧
      (s.throttled = false → (t.throttled = true ↔ s.throttleAt ≤ t.thermal.hottest.2.2)) ∧
      (440 ≤ t.thermal.hottest.2.2 → s.power.latch = false → s.pkg = 3 → s.power.phase = .rest →
        t.power.latch = true ∧ t.power.phase = .handover ∧ t.power.cause = 4)) ∧
    (∀ u, s.throttled = true → s.thermal.coolSince = some u → Completes .throttleExit s fun t =>
      t.now = max s.now (u + sec 1) ∧ t.throttled = false ∧ t.eventSeq = (s.eventSeq + 1) % 2 ^ 32 ∧ t.thermal = s.thermal ∧
      t.galleries = s.galleries ∧ t.mem = s.mem)

/-- The completion record of a DME job that ends at `endAt` and the count of jobs (R76, R137): after the writes `before` it follows,
waiting for `after`; a record outside the poster's windows is not written (R328). -/
def Sys2Proof.Claims.dmeDone (d : DmeDesc) (task status lines endAt : Nat) (before : List PendWrite) (after : List Nat) (s t : State) : Prop :=
  t.reg 0xA4010 = s.reg 0xA4010 + 1#32 ∧
  (if d.compAddr = 0 ∨ centralSize ≤ 64 * d.compAddr ∨ s.allowed task true (centralBase + 64 * d.compAddr) 16 = false then t.writes = s.writes ++ before
    else ∃ w : PendWrite, t.writes = s.writes ++ before ++ [w] ∧ w.owner = .dme ∧ w.incs = [] ∧ w.after = after ∧
      w.parts = [(centralBase + 64 * d.compAddr, completion16 d.tag status false false lines ({ s with now := endAt } : State).time)])

/-- R132: the management queue takes the jobs of the management processors, the normal queue those of the other posters, each up to 256; a
poster that finds its queue full waits. One job runs at a time, to its end; the next is the oldest management job, or the oldest
normal job where there is none. R138, R143: a stream processor posts a job on a wide copy while its matrix has PATH = 1 only, and collects
it while a job of the matrix is queued; what was collected is posted when a job with those weights starts. -/
def Sys2Proof.Claims.DmeQueues : Prop :=
  ∀ (s : State) (desc : BitVec 512) (task : Nat) (p : Poster),
    let j : DmeJob := { desc := desc, task := task }
    let wAddr := (DmeDesc.of desc).wAddr
    (p = .mp → s.mayPost p = true → s.dme.mgmtQueue.length < 256 → s.dme.mgmtWait = [] →
      exec (.dmeJobPost desc task p) s = .next { s with dme := { s.dme with mgmtQueue := s.dme.mgmtQueue ++ [j] } }) ∧
    (p ≠ .mp → s.mayPost p = true → s.dme.queue.length < 256 →
      (p = .sp → ∀ c m, s.wideMatrix wAddr = some (c, m) →
        (s.dispatchOf (s.ctx c) m).path = true ∧ ((s.ctx c).saturated = true ∨ s.matrixQueued (c, m) = false)) →
      exec (.dmeJobPost desc task p) s = .next { s with dme := { s.dme with queue := s.dme.queue ++ [j] } }) ∧
    (256 ≤ (if p = .mp then s.dme.mgmtQueue else s.dme.queue).length → (p = .sp → s.wideMatrix wAddr = none) →
      NoEffect (.dmeJobPost desc task p) s) ∧
    (∀ c m, p = .sp → s.wideMatrix wAddr = some (c, m) → (s.dispatchOf (s.ctx c) m).path = false → NoEffect (.dmeJobPost desc task p) s) ∧
    (∀ c m, p = .sp → s.mayPost p = true → s.wideMatrix wAddr = some (c, m) → (s.dispatchOf (s.ctx c) m).path = true →
      (s.ctx c).saturated = false → s.matrixQueued (c, m) = true → s.dme.collected = [] → (DmeDesc.of desc).m ≤ 4096 →
      exec (.dmeJobPost desc task p) s = .next { s with dme := { s.dme with collected := [j] } }) ∧
    (s.dme.run.isSome = true → NoEffect .dmeJobStart s) ∧
    (s.dme.run = none → s.newWork = true →
      (∀ q, s.dme.mgmtQueue = j :: q → (∀ x, x ∈ s.dme.collected → (DmeDesc.of x.desc).wAddr ≠ wAddr) → Completes .dmeJobStart s fun t =>
        t.dme.mgmtQueue = q ++ s.dme.mgmtWait.take (256 - q.length) ∧ t.dme.mgmtWait = s.dme.mgmtWait.drop (256 - q.length) ∧
        t.dme.queue = s.dme.queue ∧ t.dme.collected = s.dme.collected ∧ (∀ r, t.dme.run = some r → r.job = j)) ∧
      (∀ q, s.dme.mgmtQueue = [] → s.dme.queue = j :: q →
        ((∀ x, x ∈ s.dme.collected → (DmeDesc.of x.desc).wAddr ≠ wAddr) → Completes .dmeJobStart s fun t =>
          t.dme.mgmtQueue = [] ∧ t.dme.queue = q ∧ (∀ r, t.dme.run = some r → r.job = j)) ∧
        (∀ x, s.dme.collected = [x] → (DmeDesc.of x.desc).wAddr = wAddr → q.length < 256 → Completes .dmeJobStart s fun t =>
          t.dme.queue = q ++ [x] ∧ t.dme.collected = [] ∧ (∀ r, t.dme.run = some r → r.job = j))))

/-- R133 to R135, R137: a job is checked whole before any term: one that fails ends with ACCESS_FAULT and writes no tile and no output. One
that passes starts when the drain of its tile has ended and holds its output element by element, the terms added to the open group
or the first one written. At its end its values stand in its entries of the tile and no other entry changes; one with CLOSE drains its
tile, and sends its rows with one increment of its counter and then its completion record, whose TIME is the arrival of that write (R136);
its group closes when that write arrives. -/
def Sys2Proof.Claims.DmeJobs : Prop :=
  ∀ (s : State) (j : DmeJob) (e : Dme),
    let d := DmeDesc.of j.desc
    let key := fun i => 16384 * d.tile + 64 * d.base + i
    let group := (Tab.find s.dme.groups d.group).getD { tile := d.tile, base := d.base, m := d.m, n := d.n, closing := none }
    let holds := fun (r : DmeRun) (t : State) =>
      (∀ i v, r.vals[i]? = some v → Tab.get 0#32 t.dme.tiles (key i) = v) ∧
      (∀ x, (∀ i, i < r.vals.length → x ≠ key i) → Tab.get 0#32 t.dme.tiles x = Tab.get 0#32 s.dme.tiles x)
    (s.dme.run = none → s.newWork = true → s.dme.take = some (j, e) → (∀ x, x ∈ s.dme.collected → (DmeDesc.of x.desc).wAddr ≠ d.wAddr) →
      (s.dmeOk j = false → Completes .dmeJobStart s fun t =>
        t.dme = e ∧ Sys2Proof.Claims.dmeDone d j.task stAccessFault 0 s.now [] [] s t ∧ t.now = s.now ∧ OtherRegisters [0xA4010] s t ∧
        t = { s with dme := t.dme, bar0 := t.bar0, writes := t.writes, nextId := t.nextId }) ∧
      (∀ af wf, s.dmeOk j = true → aFormat d.aFmt = some af → wFormat d.wFmt = some wf → Completes .dmeJobStart s fun t =>
        t.now = max s.now (s.dme.drainEnd.getD d.tile 0) ∧
        (∃ r : DmeRun, t.dme = { e with run := some r } ∧ r.job = j ∧ r.vals.length = d.m * d.n ∧ r.endAt = t.now + s.dmeTime d af wf ∧
          ∀ m n, m < d.m → n < d.n → r.vals[m * d.n + n]? = some (s.dmeElement d af wf
            (if (Tab.find s.dme.groups d.group).isSome then some (Tab.get 0#32 s.dme.tiles (key (m * d.n + n))) else none) m n)) ∧
        t = { s with now := t.now, dme := t.dme })) ∧
    (∀ r : DmeRun, s.dme.run = some r → r.job = j →
      (d.close = false → Completes .dmeJobEnd s fun t =>
        t.now = max s.now r.endAt ∧
        t.dme = { s.dme with run := none, groups := Tab.put s.dme.groups d.group group, tiles := t.dme.tiles } ∧ holds r t ∧
        Sys2Proof.Claims.dmeDone d j.task stOk r.lines t.now [] [] s t ∧ t.reg 0xA4014 = s.reg 0xA4014 + BitVec.ofNat 32 r.lines ∧
        OtherRegisters [0xA4010, 0xA4014] s t ∧
        t = { s with now := t.now, dme := t.dme, bar0 := t.bar0, writes := t.writes, nextId := t.nextId }) ∧
      (d.close = true → Completes .dmeJobEnd s fun t => ∃ w : PendWrite,
        t.now = max s.now r.endAt ∧ w.id = s.nextId ∧ w.owner = .dme ∧ w.parts = dmeParts d r.vals ∧
        w.incs = [{ key := cntKey (s.counterMem d.outAddr) d.counter, amount := 1 }] ∧
        Sys2Proof.Claims.dmeDone d j.task stOk r.lines w.due [w] [s.nextId] s t ∧ holds r t ∧
        Tab.find t.dme.groups d.group = some { group with closing := some s.nextId } ∧
        (∀ i, i ≠ d.group → Tab.find t.dme.groups i = Tab.find s.dme.groups i) ∧ t.dme.run = none ∧
        t.dme.drainEnd = s.dme.drainEnd.set d.tile (r.endAt + cdiv (d.m * d.n) 128 * s.coreCycle) ∧
        t.dme.mgmtQueue = s.dme.mgmtQueue ∧ t.dme.queue = s.dme.queue ∧ t.reg 0xA4014 = s.reg 0xA4014 + BitVec.ofNat 32 r.lines ∧
        OtherRegisters [0xA4010, 0xA4014] s t ∧
        t = { s with now := t.now, dme := t.dme, bar0 := t.bar0, writes := t.writes, nextId := t.nextId }))

/-- R140 (the FALLBACK command), R144, R145: FALLBACK ends with ACCESS_FAULT for operands outside the loaded context, with OK for a scope
without a matrix on galleries, with NO_CAPACITY where none of those has a wide copy; one that names a matrix of both kinds sets or
clears CAUSE_HOST, PATH follows the causes, and no byte outside the dispatch entry changes. A step of a saturated context sets N_live
to the largest number of streams whose predicted time, with the key-value bytes of the longest of them, keeps within STEP_TARGET, at least
1, and takes the oldest streams in DECODE. -/
def Sys2Proof.Claims.FallbackCommandAndStep : Prop :=
  ∀ (s : State) (e : SubEntry) (c : Nat),
    let x := s.ctx (e.byte 16)
    let m := e.num 20 21
    let enter := decide (e.byte 18 = 1)
    let longest := fun n => (((s.oldestDecode c).take n).map s.kvBytes).foldl max 0
    (e.opcode = cmdFallback → s.commandOk e = true →
      (x.live = false ∨ 2 ≤ e.byte 18 ∨ 3 ≤ e.byte 17 ∨ (e.byte 17 = 0 ∧ x.matrices ≤ m) ∨ (e.byte 17 = 1 ∧ x.layers ≤ e.byte 19) →
        exec (.fallback e) s = .next (s.complete e stAccessFault 0)) ∧
      (∀ ms, x.live = true → e.byte 18 < 2 → s.fallbackScope (e.byte 16) (e.byte 17) (e.byte 19) m = some ms →
        ((∀ i, i ∈ ms → x.galleries i = []) → exec (.fallback e) s = .next (s.complete e stOk 0)) ∧
        ((∃ i, i ∈ ms ∧ x.galleries i ≠ []) → (∀ i, i ∈ ms → x.galleries i ≠ [] → (s.dispatchOf x i).wide = false) →
          exec (.fallback e) s = .next (s.complete e stNoCapacity 0))) ∧
      (x.live = true → e.byte 18 < 2 → e.byte 17 = 0 → m < x.matrices → x.galleries m ≠ [] → (s.dispatchOf x m).wide = true →
        x.entry m + 16 ≤ centralSize → Completes (.fallback e) s fun t =>
          (t.dispatchOf x m).causeHost = enter ∧ (t.dispatchOf x m).causeGallery = (s.dispatchOf x m).causeGallery ∧
          (t.dispatchOf x m).path = (enter || (s.dispatchOf x m).causeGallery) ∧ (t.dispatchOf x m).wide = true ∧
          (t.dispatchOf x m).layer = (s.dispatchOf x m).layer ∧ (t.dispatchOf x m).wideAddr = (s.dispatchOf x m).wideAddr ∧
          OtherBytes (x.entry m) 16 s t ∧ t.galleries = s.galleries ∧ t.streams = s.streams ∧ t.dme = s.dme)) ∧
    ((s.ctx c).saturated = true → Completes (.fallbackStep c) s fun t => ∃ n : Nat,
      t.ctx c = { s.ctx c with nLive := n, liveSet := (s.oldestDecode c).take n } ∧ (∀ i, i ≠ c → t.ctx i = s.ctx i) ∧
      1 ≤ n ∧ (1 < n → s.stepTime (s.ctx c) (longest n) n ≤ (s.rfld 0xA4000 11 0 : Nat)) ∧
      (n < 65536 → ((s.rfld 0xA4000 11 0 : Nat) : Rat) < s.stepTime (s.ctx c) (longest (n + 1)) (n + 1)) ∧ t = { s with contexts := t.contexts }) ∧
    ((s.ctx c).saturated = false → NoEffect (.fallbackStep c) s)

/-- R140 to R142: a suspect gallery's trigger sets CAUSE_GALLERY and PATH on every matrix of its owner with a part on the gallery and a wide
copy, aborts the unfinished flights that contribute to an affected column block, each with a record of status ABORTED, and posts the
replacement jobs that stand for a CLOSE of theirs in order to the management queue, all that `delay` ticks after the gallery became suspect; a
gallery that is not suspect or has no owner changes nothing. -/
def Sys2Proof.Claims.FallbackTrigger : Prop :=
  ∀ (s : State) (h g c delay : Nat) (jobs : List (BitVec 512)),
    let k := galKey h g
    let us := s.affectedBy k
    ((s.gal k).suspect = false ∨ s.owner k = none → NoEffect (.fallbackTrigger h g delay jobs) s) ∧
    ((s.gal k).suspect = true → s.owner k = some c → Completes (.fallbackTrigger h g delay jobs) s fun t =>
      t.now = max s.now ((s.gal k).suspectSince + delay) ∧
      (s.dme.mgmtWait = [] → s.dme.mgmtQueue.length + jobs.length ≤ 256 → t.dme = { s.dme with
        mgmtQueue := s.dme.mgmtQueue ++ (jobs.filter (s.replaces c us)).map (fun j => { desc := j, task := 64 }) }) ∧
      (∀ u f, us = [u] → (s.gal u.key).flight = some f → f.launch = u.launch → (s.gal u.key).queue = [] → (s.gal u.key).newProfile = none →
        (t.gal u.key).flight = none ∧ ∃ w : PendWrite, w ∈ t.writes ∧
          w.parts = [(centralBase + 64 * u.launch.compAddr, completion16 u.launch.tag stAborted f.rerun f.lateArm f.passes t.time)] ∧
          w.incs = [{ key := cntKey 8 u.launch.compCounter, amount := 1 }]) ∧
      (us = [] → (s.ctx c).live = true →
        (∀ i, i < 65536 → (s.ctx c).entry i + 16 ≤ centralSize) → (∀ p, p ∈ (s.ctx c).parts → p.1 < 65536) →
        ∀ m, k ∈ (s.ctx c).galleries m → (s.dispatchOf (s.ctx c) m).wide = true →
          (t.dispatchOf (s.ctx c) m).causeGallery = true ∧ (t.dispatchOf (s.ctx c) m).path = true ∧
          (t.dispatchOf (s.ctx c) m).causeHost = (s.dispatchOf (s.ctx c) m).causeHost))

/-- What the SPE leaves when a descriptor has run: the element writes `els` in order, then the increment of the counter once they have
arrived, then the completion record with the status and the count (R149, R152). -/
def Sys2Proof.Claims.speDone (d : SpeDesc) (task : Nat) (els : List (Nat × List Byte)) (count status : Nat) (s t : State) : Prop :=
  t.spe = s.spe.drop 1 ∧ t.reg 0xA4018 = s.reg 0xA4018 + 1#32 ∧
  (∃ (ws : List PendWrite) (w : PendWrite) (rs : List PendWrite), t.writes = s.writes ++ ws ++ [w] ++ rs ∧
    ws.map PendWrite.parts = els.map (fun x => [x]) ∧ (∀ x, x ∈ ws → x.incs = [] ∧ x.owner = .spe) ∧
    w.parts = [] ∧ w.incs = [{ key := cntKey (s.counterMem d.dst) d.counter, amount := 1 }] ∧ w.after = ws.map PendWrite.id ∧
    (if d.compAddr = 0 ∨ s.allowed task true d.compAddr 16 = false then rs = []
      else ∃ r : PendWrite, rs = [r] ∧ r.parts = [(d.compAddr, completion16 d.tag status false false count s.time)] ∧
        r.after = w.id :: ws.map PendWrite.id)) ∧
  OtherRegisters [0xA4018, 0xA401C] s t ∧
  t = { s with spe := t.spe, speHold := none, bar0 := t.bar0, writes := t.writes, nextId := t.nextId, free := t.free }

/-- Are the parameters of a descriptor inside the ranges of R150 and R153? -/
def Sys2Proof.Claims.inRange (d : SpeDesc) : Prop :=
  (d.op = 1 ∨ d.op = 2 → d.p 0 ≤ 6) ∧ (d.op = 4 → 1 ≤ d.p16 ∧ d.p16 ≤ 1024) ∧
  (d.op = 6 → 1 ≤ d.p 0 ∧ d.p 0 ≤ 64 ∧ 1 ≤ d.p 1 ∧ d.p 1 ≤ 8 ∧ d.count ≤ 4096 ∧
    (d.p 2 = 0 ∨ d.p 1 ≤ d.p 2 ∧ d.p 2 ≤ d.p 0))

/-- R148 to R152: the SPE's queue takes 512 descriptors, and a full one leaves the poster waiting; a descriptor with an undefined OP is
refused; parameters in their stated ranges are run as they stand (others with a free value in the range, log 30). GATHER writes one element for each index, zeros with ACCESS_FAULT for an index outside the table. SCATTER writes or adds the
elements whose index lies in the table and skips the others. A denied index stops a GATHER before it writes. -/
def Sys2Proof.Claims.SpeGatherScatter : Prop :=
  ∀ (s : State) (j : SpeJob) (rest : List SpeJob) (desc : BitVec 512) (task : Nat) (p : Poster),
    let d := (SpeDesc.of j.desc).eff s.free
    let z := 2 ^ d.p 0
    let good := fun i => decide (s.u32 d.src1 i < d.aux)
    let op := dnum desc 0 0
    (1 ≤ op → op ≤ 6 → s.mayPost p = true → (p = .sp → s.routesLive (SpeDesc.of desc) task = true) → s.spe.length < 512 →
      exec (.speDescriptorPost desc task p) s = .next { s with spe := s.spe ++ [{ desc := desc, task := task }] }) ∧
    (1 ≤ op → op ≤ 6 → 512 ≤ s.spe.length → NoEffect (.speDescriptorPost desc task p) s) ∧
    (op = 0 ∨ 7 ≤ op → exec (.speDescriptorPost desc task p) s = .refused .undefinedSpeDescriptor) ∧
    (∀ x n, Sys2Proof.Claims.inRange x → SpeDesc.eff x n = x) ∧
    (s.spe = j :: rest → s.newWork = true →
      (d.op = 1 → (∀ i, i < d.count → s.mayRead j.task (d.src1 + 4 * i) 4 = true ∧ s.mayWrite j.task (d.dst + z * i) z = true ∧
          (good i = true → s.mayRead j.task (d.src0 + z * s.u32 d.src1 i) z = true)) →
        Completes .gather s fun t => Sys2Proof.Claims.speDone d j.task
          ((List.range d.count).map (fun i => (d.dst + z * i, if good i then s.bytes (d.src0 + z * s.u32 d.src1 i) z else List.replicate z 0#8)))
          d.count (if (List.range d.count).all good then stOk else stAccessFault) s t) ∧
      (d.op = 1 → 0 < d.count → s.mayRead j.task d.src1 4 = false → Completes .gather s fun t =>
        Sys2Proof.Claims.speDone d j.task [] 0 stAccessFault s t) ∧
      (d.op = 2 → (∀ i, i < d.count → s.mayRead j.task (d.src1 + 4 * i) 4 = true ∧ s.mayRead j.task (d.src0 + z * i) z = true ∧
          (good i = true → s.mayWrite j.task (d.dst + z * s.u32 d.src1 i) z = true)) →
        (d.flags.testBit 0 = true → d.p 0 = 2 ∧ ∀ a b, a < d.count → b < d.count → s.u32 d.src1 a = s.u32 d.src1 b → a = b) →
        Completes .scatter s fun t => Sys2Proof.Claims.speDone d j.task
          (((List.range d.count).filter good).map (fun i => (d.dst + z * s.u32 d.src1 i,
            if d.flags.testBit 0 then natLE z (F32.add (s.f32At (d.dst + z * s.u32 d.src1 i)) (s.f32At (d.src0 + z * i))).toNat
            else s.bytes (d.src0 + z * i) z)))
          ((List.range d.count).filter good).length (if (List.range d.count).all good then stOk else stAccessFault) s t) ∧
      (d.op = 2 → (∀ i, i < d.count → s.mayRead j.task (d.src1 + 4 * i) 4 = true ∧ s.mayRead j.task (d.src0 + z * i) z = true ∧
          (good i = true → s.mayWrite j.task (d.dst + z * s.u32 d.src1 i) z = true)) →
        Completes .scatter s fun t => ∃ els : List (Nat × List Byte),
          els.map Prod.fst = ((List.range d.count).filter good).map (fun i => d.dst + z * s.u32 d.src1 i) ∧
          (∀ x, x ∈ els → x.2.length = z) ∧ Sys2Proof.Claims.speDone d j.task els
            ((List.range d.count).filter good).length (if (List.range d.count).all good then stOk else stAccessFault) s t))

/-- Elements in both lists, in the order of the first. -/
def Sys2Proof.Claims.common (xs ys : List Nat) : List Nat := xs.filter (fun x => ys.contains x)

/-- R150 to R153: SEGREDUCE writes for each segment the reduction of its products in ascending k, the identity for an empty one and
ACCESS_FAULT for one that ends before it begins; TOPK writes the k best pairs, best first; INTERSECT writes the common elements of two
strictly ascending arrays up to its capacity, PARTIAL when it reaches it; ROUTE writes a route word and the gate weights of each token. -/
def Sys2Proof.Claims.SpeReductions : Prop :=
  ∀ (s : State) (j : SpeJob) (rest : List SpeJob), s.spe = j :: rest → s.newWork = true →
    let d := (SpeDesc.of j.desc).eff s.free
    let rd := fun a => s.mayRead j.task a 4
    let len := fun i => s.u32 d.src0 (i + 1) - s.u32 d.src0 i
    let term := fun k => if d.flags.testBit 2 then s.f32At (d.aux + 4 * s.u32 d.src1 k)
      else F32.mul (s.f32At (d.src2 + 4 * k)) (s.f32At (d.aux + 4 * s.u32 d.src1 k))
    let best := topK (d.flags.testBit 0) d.p16 (tabulate d.count (fun i => s.f32At (d.src0 + 4 * i)))
    let xs := tabulate d.count (s.u32 d.src0)
    let ys := tabulate d.aux (s.u32 d.src1)
    let both := Sys2Proof.Claims.common xs ys
    (d.op = 3 → (∀ i, i < d.count → s.mayRead j.task (d.src0 + 4 * i) 8 = true ∧ s.mayWrite j.task (d.dst + 4 * i) 4 = true ∧
        ∀ k, k < len i → rd (d.src1 + 4 * (s.u32 d.src0 i + k)) = true ∧
          (d.flags.testBit 2 = false → rd (d.src2 + 4 * (s.u32 d.src0 i + k)) = true) ∧
          rd (d.aux + 4 * s.u32 d.src1 (s.u32 d.src0 i + k)) = true) →
      let status := if (List.range d.count).any (fun i => decide (s.u32 d.src0 (i + 1) < s.u32 d.src0 i)) then stAccessFault else stOk
      Completes .segreduce s fun t => (∃ els : List (Nat × List Byte), els.map Prod.fst = (List.range d.count).map (fun i => d.dst + 4 * i) ∧
          (∀ x, x ∈ els → x.2.length = 4) ∧ Sys2Proof.Claims.speDone d j.task els d.count status s t) ∧
        (d.flags % 4 ≠ 3 → Sys2Proof.Claims.speDone d j.task
        ((List.range d.count).map (fun i => (d.dst + 4 * i, natLE 4 ((((List.range (len i)).map (fun k => term (s.u32 d.src0 i + k))).foldl
          (reduceStep (d.flags % 4)) none).getD (reduceEmpty (d.flags % 4))).toNat)))
        d.count status s t)) ∧
    (d.op = 4 → (∀ i, i < d.count → rd (d.src0 + 4 * i) = true) → (∀ i, i < best.length → s.mayWrite j.task (d.dst + 8 * i) 8 = true) →
      Completes .topk s fun t => Sys2Proof.Claims.speDone d j.task
        (best.zipIdx.map (fun x => (d.dst + 8 * x.2, natLE 4 x.1.1.toNat ++ natLE 4 x.1.2))) best.length stOk s t) ∧
    (d.op = 5 → (∀ i, i < d.count → rd (d.src0 + 4 * i) = true) → (∀ i, i < d.aux → rd (d.src1 + 4 * i) = true) →
      (∀ i, i < d.p32 → s.mayWrite j.task (d.dst + 4 * i) 4 = true) → xs.Pairwise (· < ·) → ys.Pairwise (· < ·) →
      Completes .intersect s fun t => Sys2Proof.Claims.speDone d j.task
        ((both.take d.p32).zipIdx.map (fun x => (d.dst + 4 * x.2, natLE 4 x.1))) (min d.p32 both.length)
        (if d.p32 ≤ both.length then stPartial else stOk) s t) ∧
    let d := s.withCap d j.task
    (d.op = 6 → d.flags.testBit 0 = false → s.speHold = none → d.p 1 ≤ d.p 0 →
      (∀ i, i < d.count → s.mayRead j.task (d.src0 + 4 * d.p 0 * i) (4 * d.p 0) = true ∧ s.mayWrite j.task (d.dst + 8 * i) 8 = true ∧
        s.mayWrite j.task (d.aux + 32 * i) (4 * d.p 1) = true) →
      let keep := cappedExperts (d.p 0) (d.p 2) (tabulate d.count (s.routeLogits d))
      ∀ targets, Completes (.route targets) s fun t => Sys2Proof.Claims.speDone d j.task
        ((List.range d.count).flatMap (fun i =>
          let sel := selectExperts (d.p 1) keep (s.routeLogits d i)
          [(d.dst + 8 * i, natLE 8 (routeWord sel)), (d.aux + 32 * i, (gateWeights (s.routeLogits d i) sel).flatMap (fun g => natLE 4 g.toNat))]))
        d.count stOk s t) ∧
    (d.op = 6 → d.flags.testBit 0 = true → s.speHold = none → ∀ targets, Completes (.route targets) s fun t =>
      ((t.spe = rest ∧ t.speHold = none ∧ t.reg 0xA4018 = s.reg 0xA4018 + 1#32) ∨
        (t.spe = s.spe ∧ t.reg 0xA4018 = s.reg 0xA4018 ∧ ∃ x, t.speHold = some x ∧ x.launches ≠ [])) ∧
      ((∀ k, (s.gal k).queue.length + d.p24hi ≤ queueDepth) → t.spe = rest ∧ t.speHold = none))

/-- A load is the same but for the instant since when it waits for a window (R175). -/
def Sys2Proof.Claims.sameLoad (x y : Option Load) : Prop :=
  x.map (fun l => { l with waitSince := none }) = y.map (fun l => { l with waitSince := none })

/-- The load of context `c` ends with `status` from state `u`: what it holds is released, its command completes, and the wear counts are written
(R169, R178, R183). -/
def Sys2Proof.Claims.loadEnds (c : Nat) (l : Load) (status : Nat) (u t : State) : Prop :=
  t = ((u.releaseLoad c).complete l.cmd status 0).writeWear ∧ t.load c = none ∧ t.ctx c = Context.reset ∧
  ∀ i, i ≠ c → t.ctx i = u.ctx i ∧ t.load i = u.load i

/-- R167, R169, R178, R291: ATLAS_LOAD with operands out of range ends with ACCESS_FAULT and one whose context has a load with
NO_CAPACITY; otherwise the load waits for its image. Data that arrive before the header is whole extend the image. A header that fails its
checks is read again once and then ends the load with ACCESS_FAULT, and one that asks for more than is free ends it with NO_CAPACITY;
neither leaves a context behind. A broadcast load takes its data from the fabric only, and ends with ABORTED when no data have come for
100 ms. A load whose programming waits for a window that stays shut for LOAD_WAIT ends with PROGRAM_WINDOW. -/
def Sys2Proof.Claims.AtlasImageArrives : Prop :=
  ∀ (s : State) (e : SubEntry) (c : Nat) (l : Load) (data : List Byte),
    let k := (if e.byte 18 = 1 then 64 else 0) + e.byte 16
    let s1 := s.setLoad c { l with image := data, lastData := s.now }
    (e.opcode = cmdAtlasLoad → s.commandOk e = true →
      (255 < e.num 20 21 ∨ 2 < e.byte 17 ∨ 63 < e.byte 16 ∨ 1 < e.byte 18 → exec (.atlasLoad e) s = .next (s.complete e stAccessFault 0)) ∧
      (e.num 20 21 ≤ 255 → e.byte 17 ≤ 2 → e.byte 16 ≤ 63 → e.byte 18 ≤ 1 → (e.byte 17 = 1 → e.num 24 27 ≤ 7) →
        ((s.load k).isSome = true → exec (.atlasLoad e) s = .next (s.complete e stNoCapacity 0)) ∧
        (s.load k = none → Completes (.atlasLoad e) s fun t => ∃ n : Load, t.load k = some n ∧ n.cmd = e ∧ n.context = e.byte 16 ∧
          n.source = e.byte 17 ∧ n.addr = e.num 40 47 ∧ n.tree = e.num 20 21 ∧ n.image = [] ∧ n.stage = 0 ∧ n.done = false ∧
          (∀ i, i ≠ k → t.load i = s.load i) ∧ t = { s with loads := t.loads }))) ∧
    (s.load c = some l → l.done = false → l.stage = 0 → l.image = [] → l.sendOnly = false → l.tree = 0 → data ≠ [] →
      (l.source = 2 → NoEffect (.imageDataArrival c data) s) ∧
      (l.source = 1 → s.volFailed l.nsid = false →
        (data.length < 256 → exec (.imageDataArrival c data) s = .next s1) ∧
        (Image.headIn data = true → Image.headerOk data (bit (s.reg (0xA5100 + 4 * c)) 0) = false →
          (l.retried = false → Completes (.imageDataArrival c data) s fun t =>
            t.load c = some { l with image := [], retried := true, lastData := s.now } ∧ t = { s with loads := t.loads }) ∧
          (l.retried = true → Completes (.imageDataArrival c data) s (Sys2Proof.Claims.loadEnds c l stAccessFault s1))) ∧
        (Image.headIn data = true → Image.headerOk data (bit (s.reg (0xA5100 + 4 * c)) 0) = true → s1.headRoom c data = false →
          Completes (.imageDataArrival c data) s (Sys2Proof.Claims.loadEnds c l stNoCapacity s1)))) ∧
    (s.load c = some l → l.source = 2 → l.done = false → l.sendOnly = false → l.total = none →
      Completes (.broadcastRxTimeout c) s (Sys2Proof.Claims.loadEnds c l stAborted { s with now := max s.now (l.lastData + ms 100) })) ∧
    ((∀ l', s.load c = some l' → l'.source ≠ 2) → NoEffect (.broadcastRxTimeout c) s) ∧
    (∀ l', s.load c = some l' → l'.waitSince = none → NoEffect (.loadWaitExpiry c) s) ∧
    (∀ u b a, s.load c = some l → l.waitSince = some u → l.done = false → l.sendOnly = false → b ∈ l.bound →
      s.windowOpen.getD b.vhall false = false → s.hallEst b.vhall < 68 ∨ 292 < s.hallEst b.vhall → a < 32 →
      (s.arr (arrKey b.key a)).job.isSome = true → Completes (.loadWaitExpiry c) s fun t =>
        t.now = max s.now (u + sec (s.rfld 0xA5000 19 12)) ∧ (∃ v, Sys2Proof.Claims.loadEnds c l stProgramWindow v t) ∧
        ∀ i, i ≠ c → t.ctx i = s.ctx i ∧ Sys2Proof.Claims.sameLoad (t.load i) (s.load i))

/-- R144, R169 to R175, R181, R183, R184: one row of an array that the arbiter has admitted is programmed inside the window: the job moves to the
next row, the array's wear counts one row more, only this gallery's pool changes in memory. After its last row the job ends, unless a
weight column is dead. A load whose galleries have all had their survey becomes live and is done, and one that still waits stays as it
is. A pool gallery that may leave its layer takes the next one, and its arrays are to be programmed. -/
def Sys2Proof.Claims.AtlasProgramsAndCompletes : Prop :=
  ∀ (s : State) (h g a c : Nat) (l : Load),
    let k := galKey h g
    let i := arrKey k (a % 32)
    (∀ j rec, (s.arr i).job = some j → (s.arr i).record = some rec → j.mode ≠ 2 → i ∈ s.progActive → (s.gal k).suspect = false →
      (s.windowOpen.getD (k / 512) false = true → 60 ≤ s.hallEst (k / 512) → s.hallEst (k / 512) ≤ 300 → s.pkg = 3 → s.railPg 7 = true →
        k / 512 ∉ s.power.relock → j.row < 1024 →
        let cols := if j.sweep.isEmpty then programmedCols (s.sparesOf k (a % 32)) else j.sweep
        (∀ n, n ≤ (s.emapOf k (a % 32)).length + cols.length → (s.poolPlace k (a % 32) n).isSome = true) →
        Completes (.programRow h g a) s fun t => ∃ u : Nat,
          t.now = max s.now j.readyAt ∧ t.now ≤ u ∧ (t.arr i).job = some { j with row := j.row + 1, readyAt := u } ∧ (t.arr i).heldUntil = u ∧
          (t.arr i).record = some rec ∧ t.wear i = wearRow (s.wear i) ∧ (t.gal k).progRows = (s.gal k).progRows + 1 ∧ OtherGalleries k s t ∧
          (∀ x, x ≠ i → t.arr x = s.arr x) ∧ OtherBytes (s.poolBase k) (4 * s.poolWords) s t ∧
          t = { s with now := t.now, free := t.free, mem := t.mem, marks := t.marks, dir := t.dir, galleries := t.galleries, cells := t.cells,
                       arrays := t.arrays }) ∧
      (1024 ≤ j.row → (j.sweep = [] → deadColumns (s.emapOf k (a % 32)) = []) → Completes (.programRow h g a) s fun t =>
        t.now = max s.now j.readyAt ∧ (t.arr i).job = none ∧ (t.arr i).record = some rec ∧ (t.arr i).ageEq = 0 ∧
        (t.arr i).lastProgrammed = t.now ∧ t.wear i = s.wear i ∧ t.cells = s.cells)) ∧
    ((s.arr i).job = none → NoEffect (.programRow h g a) s) ∧
    (s.load c = some l → l.done = false → l.sendOnly = false → l.stage ≠ 0 → Image.sections l.image < l.stage → s.pkg = 3 →
      ((∀ b, b ∈ l.bound → (s.gal b.key).suspect = false ∧ (s.gal b.key).survey.initialDone = true) →
        Completes (.loadComplete c) s fun t =>
          t.load c = some { l with done := true } ∧ (t.ctx c).live = true ∧
          t.ctx c = { s.ctx c with live := true, saturated := (t.ctx c).saturated, nLive := (t.ctx c).nLive, liveSet := (t.ctx c).liveSet } ∧
          (∀ x, x ≠ c → t.ctx x = s.ctx x ∧ t.load x = s.load x) ∧ t.now = s.now ∧ t.streams = s.streams ∧
          (∀ x, let y := t.gal x
            y = { s.gal x with flightBase := y.flightBase, flightSteps := y.flightSteps, otherFlights := y.otherFlights })) ∧
      (∀ b, b ∈ l.bound → (s.gal b.key).survey.initialDone = false → (∀ y, y ∈ l.bound → (s.gal y.key).suspect = false) →
        (∃ r, Image.recOf l.image b = some r ∧ popcount r.arrays ≠ 0) → NoEffect (.loadComplete c) s)) ∧
    (s.pkg ≠ 3 → NoEffect (.loadComplete c) s) ∧
    (∀ b ly r perm, s.owner k = some c → s.load c = some l → l.done = true → l.bound.find? (fun b => decide (b.key = k)) = some b →
      Image.nextLayer l.image b = some ly → b.layer ≠ 0xFFFF → s.mayRotate k l.image (s.ctx c) b = true →
      Image.recOf l.image { b with layer := ly, ready := false } = some r → s.fitArrays k (Image.wants l.image r) = some perm →
      Completes (.rotationReprogram h g) s fun t =>
        t.load c = some { l with bound := l.bound.map (fun x => if x = b then { b with layer := ly, ready := false, perm := perm } else x) } ∧
        (∀ x, x ∈ Image.arraysOf l.image r → ∃ j, (t.arr (arrKey k (permArray perm x.varray))).job = some j ∧ j.mode = 3 ∧ j.row = 0) ∧
        t.now = s.now ∧ t.contexts = s.contexts ∧ ∀ x, x ≠ c → Sys2Proof.Claims.sameLoad (t.load x) (s.load x)) ∧
    (s.owner k = none → NoEffect (.rotationReprogram h g) s)

/-- The state that each command of the atlas may change, by field; every other field stays (R156 to R181). -/
def Sys2Proof.Claims.AtlasFrames : Prop :=
  ∀ s : State,
    (∀ e t, exec (.atlasLoad e) s = .next t → t = { s with
      fns := t.fns, rings := t.rings, accepted := t.accepted, hostMem := t.hostMem, loads := t.loads, orphans := t.orphans }) ∧
    (∀ c data t, exec (.imageDataArrival c data) s = .next t → t = { s with
      nextId := t.nextId, bar0 := t.bar0, fns := t.fns, rings := t.rings, accepted := t.accepted, eventSeq := t.eventSeq, held
      := t.held, heldLost := t.heldLost, hostMem := t.hostMem, mem := t.mem, marks := t.marks, galleries := t.galleries, arrays
      := t.arrays, nv := t.nv, contexts := t.contexts, progActive := t.progActive, progWait := t.progWait, progHall :=
      t.progHall, vprogAt := t.vprogAt, vprogOff := t.vprogOff, staged := t.staged, loads := t.loads, orphans := t.orphans, dir
      := t.dir, fabOut := t.fabOut, fabNo := t.fabNo, power := t.power }) ∧
    (∀ h g a t, exec (.programRow h g a) s = .next t → t = { s with
      now := t.now, free := t.free, nextId := t.nextId, bar0 := t.bar0, fns := t.fns, rings := t.rings, accepted := t.accepted,
      eventSeq := t.eventSeq, held := t.held, heldLost := t.heldLost, hostMem := t.hostMem, mem := t.mem, marks := t.marks,
      writes := t.writes, galleries := t.galleries, cells := t.cells, arrays := t.arrays, nv := t.nv, contexts := t.contexts,
      windowOpen := t.windowOpen, progActive := t.progActive, progWait := t.progWait, progHall := t.progHall, vprogAt :=
      t.vprogAt, vprogOff := t.vprogOff, loads := t.loads, profileCmd := t.profileCmd, orphans := t.orphans, dir := t.dir, power
      := t.power }) ∧
    (∀ c t, exec (.loadComplete c) s = .next t → t = { s with
      bar0 := t.bar0, fns := t.fns, rings := t.rings, accepted := t.accepted, eventSeq := t.eventSeq, held := t.held, heldLost
      := t.heldLost, hostMem := t.hostMem, mem := t.mem, marks := t.marks, galleries := t.galleries, arrays := t.arrays, nv :=
      t.nv, contexts := t.contexts, progActive := t.progActive, progWait := t.progWait, progHall := t.progHall, vprogAt :=
      t.vprogAt, vprogOff := t.vprogOff, loads := t.loads, orphans := t.orphans, dir := t.dir, power := t.power }) ∧
    (∀ c t, exec (.loadWaitExpiry c) s = .next t → t = { s with
      now := t.now, bar0 := t.bar0, fns := t.fns, rings := t.rings, accepted := t.accepted, eventSeq := t.eventSeq, held :=
      t.held, heldLost := t.heldLost, hostMem := t.hostMem, mem := t.mem, marks := t.marks, galleries := t.galleries, arrays :=
      t.arrays, nv := t.nv, contexts := t.contexts, windowOpen := t.windowOpen, progActive := t.progActive, progWait :=
      t.progWait, progHall := t.progHall, vprogOff := t.vprogOff, loads := t.loads, orphans := t.orphans, dir := t.dir }) ∧
    (∀ c t, exec (.broadcastRxTimeout c) s = .next t → t = { s with
      now := t.now, bar0 := t.bar0, fns := t.fns, rings := t.rings, accepted := t.accepted, eventSeq := t.eventSeq, held :=
      t.held, heldLost := t.heldLost, hostMem := t.hostMem, mem := t.mem, marks := t.marks, galleries := t.galleries, arrays :=
      t.arrays, nv := t.nv, contexts := t.contexts, progActive := t.progActive, progWait := t.progWait, progHall := t.progHall,
      vprogOff := t.vprogOff, loads := t.loads, orphans := t.orphans, dir := t.dir }) ∧
    (∀ h g t, exec (.rotationReprogram h g) s = .next t → t = { s with
      bar0 := t.bar0, fns := t.fns, rings := t.rings, accepted := t.accepted, eventSeq := t.eventSeq, held := t.held, heldLost
      := t.heldLost, hostMem := t.hostMem, mem := t.mem, marks := t.marks, galleries := t.galleries, arrays := t.arrays, nv :=
      t.nv, contexts := t.contexts, progActive := t.progActive, progWait := t.progWait, progHall := t.progHall, vprogAt :=
      t.vprogAt, vprogOff := t.vprogOff, loads := t.loads, orphans := t.orphans, dir := t.dir, power := t.power }) ∧
    (∀ e t, exec (.contextUnload e) s = .next t → t = { s with
      free := t.free, nextId := t.nextId, bar0 := t.bar0, fns := t.fns, rings := t.rings, accepted := t.accepted, eventSeq :=
      t.eventSeq, held := t.held, heldLost := t.heldLost, hostMem := t.hostMem, mem := t.mem, marks := t.marks, galleries :=
      t.galleries, arrays := t.arrays, nv := t.nv, contexts := t.contexts, progActive := t.progActive, progWait := t.progWait,
      progHall := t.progHall, vprogOff := t.vprogOff, loads := t.loads, prefillJobs := t.prefillJobs, kvCache := t.kvCache,
      fetches := t.fetches, kvUsed := t.kvUsed, parks := t.parks, tokenisers := t.tokenisers, tokWait := t.tokWait, profileCmd
      := t.profileCmd, unloads := t.unloads, streams := t.streams, orphans := t.orphans, dir := t.dir, fabOut := t.fabOut, fabNo
      := t.fabNo }) ∧
    (∀ h g t, exec (.initialSurvey h g) s = .next t → t = { s with
      now := t.now, free := t.free, bar0 := t.bar0, fns := t.fns, rings := t.rings, accepted := t.accepted, eventSeq :=
      t.eventSeq, held := t.held, heldLost := t.heldLost, hostMem := t.hostMem, mem := t.mem, marks := t.marks, galleries :=
      t.galleries, arrays := t.arrays, nv := t.nv, contexts := t.contexts, progActive := t.progActive, progWait := t.progWait,
      progHall := t.progHall, vprogOff := t.vprogOff, loads := t.loads, orphans := t.orphans, dir := t.dir })

/-- R220, R221: the attention engines' queue takes 1,024 jobs and a poster that finds it full waits. The first job in the queue that conflicts
with no run and whose input has arrived starts: it consumes its counter, and a job that fails its checks ends with ACCESS_FAULT before
anything is read or written. A job whose input has not arrived leaves the queue as it is. -/
def Sys2Proof.Claims.AttentionQueue : Prop :=
  ∀ (s : State) (desc : BitVec 512) (task : Nat) (j : AttJob) (rest : List AttJob),
    let d := AttDesc.of j.desc
    (s.mayPost .sp = true → s.attQueue.length < 1024 → exec (.attentionJobPost desc task) s =
      .next { s with attQueue := s.attQueue ++ [{ id := s.nextId, desc := desc, task := task }], nextId := s.nextId + 1,
                     prefillJobs := s.prefillPosted (AttDesc.of desc) }) ∧
    ((AttDesc.of desc).op ≠ 2 → s.prefillPosted (AttDesc.of desc) = s.prefillJobs) ∧
    (s.mayPost .sp = false ∨ 1024 ≤ s.attQueue.length → NoEffect (.attentionJobPost desc task) s) ∧
    (s.newWork = true → s.attQueue = j :: rest → s.inputReady d = true → (∀ r, r ∈ s.attRuns → s.conflict r.job j = false) →
      (s.attOk j = true → (d.nokv = false → ∀ x, x ∈ s.attStreams j → s.kvControlMarked x d.layer = false) →
        Completes .attentionJobStart s fun t =>
          t.now = s.now ∧ t.attQueue = rest ∧ (∃ r : AttRun, t.attRuns = s.attRuns.filter (AttRun.unfinished s.now) ++ [r] ∧ r.job = j ∧
            r.startAt = s.now ∧ r.built = false ∧ r.units = [] ∧ r.ended = none) ∧
          (d.inWait = true → t.counter (cntKey 8 d.inCounter) = s.counter (cntKey 8 d.inCounter) - d.inValue) ∧
          (∀ i, d.inWait = false ∨ i ≠ cntKey 8 d.inCounter → t.counter i = s.counter i) ∧
          t = { s with counters := t.counters, attQueue := t.attQueue, attRuns := t.attRuns, kvCache := t.kvCache }) ∧
      (s.attOk j = false → Completes .attentionJobStart s fun t =>
          t.now = s.now ∧ t.attQueue = rest ∧ t.attRuns = s.attRuns.filter (AttRun.unfinished s.now) ∧ t.reg 0x98414 = s.reg 0x98414 + 1#32 ∧
          (if d.comp = 0 ∨ centralSize < 64 * d.comp + 16 then t.writes = s.writes
            else ∃ w : PendWrite, t.writes = s.writes ++ [w] ∧ w.incs = [] ∧ w.parts =
              [(centralBase + 64 * d.comp, completion16 d.tag stAccessFault false false 0 s.time)]) ∧
          OtherRegisters [0x98414] s t ∧
          t = { s with bar0 := t.bar0, counters := t.counters, writes := t.writes, nextId := t.nextId, attQueue := t.attQueue, attRuns := t.attRuns })) ∧
    (s.attQueue = [j] → s.inputReady d = false → NoEffect .attentionJobStart s)

/-- R213, R222, R231, R237, R240, R247: a started DECODE appends its token and forms its units over the pages it attends; every page that
its units miss is fetched on demand. A PREFILL forms its units over its entries once they have been appended. An entry that would pass
1,048,576 positions ends its job with NO_CAPACITY before anything is appended; a job whose next page finds no slot waits while
pages can spill. A started BACKWARD forms a query and a key unit for each KV head and tile. Nothing is started twice. -/
def Sys2Proof.Claims.AttentionJobsFormUnits : Prop :=
  ∀ (s : State) (r : AttRun),
    let d := AttDesc.of r.job.desc
    let built := fun (us : List AttUnit) (n : Nat) =>
      s.attRuns.map (fun x => if x.job.id = r.job.id then { x with built := true, units := us, fitted := n } else x)
    let noCapacity := fun (t : State) =>
      t.attRuns = s.attRuns.map (fun x => if x.job.id = r.job.id then { x with built := true, ended := some s.now } else x) ∧
      t.reg 0x98414 = s.reg 0x98414 + 1#32 ∧ OtherRegisters [0x98414] s t ∧
      t = { s with bar0 := t.bar0, writes := t.writes, nextId := t.nextId, attRuns := t.attRuns }
    (∀ e s1, s.toBuild 1 = some r → s.attEntries d = [e] → e.first < 1048576 → s.appendEntry d e = some s1 → Completes .decode s fun t =>
      let us := s1.decodeUnits d (e.first + 1)
      t.attRuns = built us 1 ∧ t.now = s.now ∧ t.streams = s.streams ∧ t.kvUsed = s1.kvUsed ∧ OtherRegisters [0x9841C] s t ∧
      t.writes = s.writes ∧ t.galleries = s.galleries ∧
      (∀ u p, u ∈ us → p ∈ u.pages → let i : PageId := { stream := d.stream, layer := d.layer, head := u.head, page := p }
        (s1.pte i).cached = false → ∃ f, f ∈ t.fetches ∧ f.id = i ∧ f.index = false ∧ f.demand = true) ∧
      ((∀ u p, u ∈ us → p ∈ u.pages → (s1.pte { stream := d.stream, layer := d.layer, head := u.head, page := p }).cached = true) →
        bit (s.reg 0x98400) 18 = false → t.mem = s1.mem ∧ (∀ f, f ∈ t.fetches ↔ f ∈ s1.fetches) ∧ t.reg 0x9841C = s.reg 0x9841C)) ∧
    (∀ e, s.toBuild 1 = some r → s.attEntries d = [e] → 1048576 ≤ e.first → Completes .decode s noCapacity) ∧
    (∀ e, s.toBuild 1 = some r → s.attEntries d = [e] → e.first < 1048576 → s.appendEntry d e = none →
      (s.canSpill = true → NoEffect .decode s) ∧ (s.canSpill = false → Completes .decode s noCapacity)) ∧
    (∀ s1, s.toBuild 2 = some r → d.nokv = false → s.attEntries d ≠ [] → (∀ e, e ∈ s.attEntries d → e.first + e.len ≤ 1048576) →
      s.appendEntries d (s.attEntries d) r.fitted = ((s.attEntries d).length, s1) → Completes .prefill s fun t =>
        let us := s1.prefillUnits d (s.attEntries d)
        t.attRuns = s1.attRuns.map (fun x => if x.job.id = r.job.id then
          { x with built := true, units := us, fitted := (s.attEntries d).length } else x) ∧
        t.kvUsed = s1.kvUsed ∧ t.now = s.now ∧ t.writes = s.writes ∧ t.galleries = s.galleries ∧ t.streams = s.streams ∧
        ((∀ u p, u ∈ us → p ∈ u.pages →
            let x := (((s.attEntries d)[u.entry]?).map AttEntry.stream).getD 0
            (s1.pte { stream := x, layer := d.layer, head := u.head, page := p }).cached = true) →
          t.mem = s1.mem ∧ ∀ f, f ∈ t.fetches ↔ f ∈ s1.fetches)) ∧
    (∀ e, s.toBuild 2 = some r → d.nokv = false → e ∈ s.attEntries d → 1048576 < e.first + e.len → Completes .prefill s noCapacity) ∧
    (s.toBuild 2 = some r → d.nokv = true → s.attEntries d ≠ [] → Completes .prefill s fun t =>
      t.attRuns = built (s.prefillUnits d (s.attEntries d)) (s.attEntries d).length ∧ t = { s with attRuns := t.attRuns }) ∧
    (∀ e, s.toBuild 3 = some r → s.attEntries d = [e] → Completes .backward s fun t => ∃ us : List AttUnit,
      t.attRuns = built us 1 ∧ us.length = d.hkv * (2 * cdiv e.len 16) ∧
      (∀ u, u ∈ us → u.done = false ∧ u.entry = 0 ∧ u.head < d.hkv ∧ u.pages = s.backTiles d e (cdiv e.len 16) u.idx) ∧
      t = { s with attRuns := t.attRuns }) ∧
    (s.toBuild 1 = none → NoEffect .decode s) ∧ (s.toBuild 2 = none → NoEffect .prefill s) ∧ (s.toBuild 3 = none → NoEffect .backward s)

/-- R219 to R222, R226, R227, R240: the first unit in order whose pages are cached runs on the engine that is free first, the units before
it that wait for a page holding an engine each; nothing runs while no unit may begin. The last unit of a forward job sends its output
rows to every destination with one increment of OUT_COUNTER each, and the job ends; a DECODE job moves its stream's step to the next
layer. -/
def Sys2Proof.Claims.AttentionUnitRuns : Prop :=
  ∀ s : State,
    ((∀ x, x ∈ s.openUnits.take 32 → s.mayBegin x.1 x.2.1 = false) → NoEffect .attentionUnit s) ∧
    (∀ (r : AttRun) (u : AttUnit) (k waiting : Nat) (e : AttEntry), s.nextUnitOf = some (r, u, k, waiting) → (s.runEntries r)[u.entry]? = some e →
      let d := AttDesc.of r.job.desc
      let es := s.runEntries r
      let u1 := (s.unitPages r u).1
      let g := firstEngine s.attBusy waiting
      let start := max s.now (max (s.attBusy.getD g 0) (r.startAt + ns 24))
      let res := if d.op = 3 then [] else s.unitResult d es u1
      let us := r.units.set k { u1 with done := true, res := res }
      let endAt := start + unitTime d u1 (if d.op = 1 then 1 else 16) (d.op ≠ 3 || decide (u.idx < cdiv e.len 16))
      Completes .attentionUnit s (fun t => t.now = start ∧ t.attBusy = s.attBusy.set g endAt ∧
        t.reg 0x98418 = s.reg 0x98418 + BitVec.ofNat 32 (if d.nokv then 0 else u1.pages.length) ∧ OtherRegisters [0x98414, 0x98418] s t ∧
        (∃ r1, r1 ∈ t.attRuns ∧ r1.job = r.job ∧ r1.units = us ∧ r1.reads = r.reads + (if d.nokv then 0 else u1.pages.length) ∧
          r1.standIns = (s.unitPages r u).2 ∧ r1.lastEnd = max r.lastEnd endAt ∧
          (us.all AttUnit.done = false → r1.ended = r.ended) ∧ (us.all AttUnit.done = true → r1.ended.isSome = true)) ∧
        (us.all AttUnit.done = false → t.writes = s.writes ∧ t.streams = s.streams) ∧
        (us.all AttUnit.done = true → d.op ≠ 3 → ∀ a, a ∈ d.dests → ∃ w : PendWrite, w ∈ t.writes ∧ w.owner = .attention ∧
          w.parts = rowsParts a d.outFmt d.rank (128 * d.heads) (tabulate (attTokens es) (fun q =>
            (tabulate d.heads (fun i => headOf us q i)).flatMap Softmax.out)) ∧
          w.incs = [{ key := cntKey ((s.memOf a).getD 8) d.outCounter, amount := 1 }]) ∧
        (d.op ≠ 1 → t.streams = s.streams) ∧
        (us.all AttUnit.done = true → d.op = 1 → (s.stream d.stream).work.layer = d.layer →
          (t.stream d.stream).work.layer = d.layer + 1 ∧ Sys2Proof.Claims.otherStreams d.stream s t) ∧
        t = { s with now := t.now, bar0 := t.bar0, writes := t.writes, nextId := t.nextId, attRuns := t.attRuns, attBusy := t.attBusy,
                     kvCache := t.kvCache, streams := t.streams }))

/-- R237 to R242, R248: a fetched page of tier 0 or 1 that arrives without an error takes a free slot of the page cache, which then holds its
bytes; its entry names the slot and is MOVING no more. A fetch of a page that is gone or cached already, or of an index chunk whose stream
holds no tables, only leaves the queue. While neither tier is below its mark nothing spills; the first page in order that may leave
tier 0 moves to tier 1. -/
def Sys2Proof.Claims.PageFetchAndSpill : Prop :=
  ∀ s : State,
    (∀ f rest bad, s.fetches = f :: rest →
      (f.index = false → (s.pte f.id).valid = false ∨ (s.pte f.id).cached = true → exec (.pageFetchDone bad) s = .next { s with fetches := rest }) ∧
      (f.index = true → (s.stream f.id.stream).kvDir = 0 → exec (.pageFetchDone bad) s = .next { s with fetches := rest }) ∧
      (∀ c a, f.index = false → (s.pte f.id).valid = true → (s.pte f.id).cached = false → s.cacheVictim = some c → Tab.find s.kvCache c = none →
        c < 2 ^ 18 → s.entryAddr f.id = some a → s.t1Retired = [] → bad = false →
        s.slotMarked (s.pte f.id).tier (s.pte f.id).slot 0 slotBytes = false →
        ((s.pte f.id).tier = 0 ∨ ((s.pte f.id).tier = 1 ∧ s.promotes = false)) →
        Completes (.pageFetchDone bad) s fun t =>
          let copy := t.slotRead (s.pte f.id).tier (s.pte f.id).slot 0 slotBytes
          t.fetches = rest ∧
          Tab.find t.kvCache c = some { id := f.id, part := none, lastRead := s.now, held := !f.demand, copy := copy } ∧
          (∀ i, i ≠ c → Tab.find t.kvCache i = Tab.find s.kvCache i) ∧
          PtEntry.of (t.readLE a 8) = { s.pte f.id with moving := false, cached := true, cslot := c } ∧ OtherBytes a 8 s t ∧
          t = { s with mem := t.mem, marks := t.marks, dir := t.dir, fetches := t.fetches, kvCache := t.kvCache })) ∧
    (s.fetches = [] → ∀ bad, NoEffect (.pageFetchDone bad) s) ∧
    (s.freeBelow 1 0 (s.rfld 0x98404 23 16) = false → s.freeBelow 0 0 (s.rfld 0x98404 7 0) = false → NoEffect .pageSpill s) ∧
    (∀ pre i rest s1, s.freeBelow 1 0 (s.rfld 0x98404 23 16) = false → s.freeBelow 0 0 (s.rfld 0x98404 7 0) = true →
      s.spillStreams.flatMap s.pagesOf = pre ++ i :: rest → (∀ x, x ∈ pre → s.spillable 0 x = false) → s.spillable 0 i = true →
      s.movePage i 1 = some s1 → s.freeBelow 0 0 (s.rfld 0x98404 15 8) = true → s1.freeBelow 0 0 (s.rfld 0x98404 15 8) = false →
      Completes .pageSpill s fun t => t = s1.bump 0x98420 1)

/-- R243 to R245, R252: a park whose jobs are done, whose stream is not within a step and whose target has room leaves the stream PARKED with its
tables freed and completes; while jobs or a step are left, or the target has no room, it waits. A resume restores the state the stream
parked from, or ends with NO_CAPACITY when nothing can be moved. A park that has expired while no resume of it is in progress frees
the stream and every slot it held. -/
def Sys2Proof.Claims.ParkAndResume : Prop :=
  ∀ (s : State) (st : Nat) (p : Park), s.park st = some p →
    (p.parked = true ∨ s.inStep st = true ∨ s.jobsClear st = none → NoEffect (.parkComplete st) s) ∧
    (∀ u, p.parked = false → s.inStep st = false → s.jobsClear st = some u →
      ((s.at u).parkStream st p = none → NoEffect (.parkComplete st) s) ∧
      (∀ s1 e, p.cmd = some e → (s.at u).parkStream st p = some s1 → Completes (.parkComplete st) s fun t =>
        t = s1.complete e stOk 0 ∧ (t.stream st).state = .parked ∧ (t.stream st).parkedFrom = (s.stream st).state ∧ (t.stream st).kvDir = 0 ∧
        (∃ q, t.park st = some q ∧ q.parked = true ∧ q.cmd = none ∧ q.tier = p.tier) ∧ t.reg 0x98428 = s.reg 0x98428 + 1#32 ∧
        (∀ i, i ≠ st → t.stream i = s.stream i ∧ t.park i = s.park i) ∧ t.now = max s.now u)) ∧
    (∀ s1 e, p.parked = true → p.resume = some e → s.resumeStream st p = some s1 → Completes (.resumeComplete st) s fun t =>
      (t.stream st).state = (s.stream st).parkedFrom ∧ t.park st = none ∧ t.mem = s1.mem ∧ t.kvUsed = s1.kvUsed ∧ t.now = s.now ∧
      (∀ i, i ≠ st → t.stream i = s.stream i ∧ t.park i = s.park i)) ∧
    (∀ e, p.parked = true → p.resume = some e → s.resumeStream st p = none →
      (s.canSpill = true → NoEffect (.resumeComplete st) s) ∧
      (s.canSpill = false → exec (.resumeComplete st) s = .next ((s.setPark st { p with resume := none }).complete e stNoCapacity 0))) ∧
    (p.parked = true → p.resume = none → Completes (.parkExpiry st) s fun t =>
      t.now = max s.now (s.tbStart.getD 0 + 12 * p.expires) ∧ t.stream st = Stream.reset ∧ t.park st = none ∧
      (∀ x, x ∈ t.kvUsed → x ∈ s.kvUsed ∧ x.2 ≠ st + 1) ∧ t.reg 0x9842C = s.reg 0x9842C + 1#32 ∧ OtherRegisters [0x9842C] s t ∧
      (∀ i, i ≠ st → t.stream i = s.stream i ∧ t.park i = s.park i) ∧
      t = { s with now := t.now, bar0 := t.bar0, kvUsed := t.kvUsed, kvCache := t.kvCache, fetches := t.fetches, streams := t.streams,
                   parks := t.parks }) ∧
    (p.parked = false ∨ p.resume.isSome = true → NoEffect (.parkExpiry st) s) ∧ (p.parked = false → NoEffect (.resumeComplete st) s)

/-- R250, R251, R254 to R256, R263, R267, R423: STREAM_OPEN with a parameter out of range ends with ACCESS_FAULT; where no entry is free or the
context admits no more, with NO_CAPACITY; with no stream processor in service, with DEVICE_FAULT; otherwise the lowest FREE entry is ADMITTED with its operands and its tokens in the history, and the
command's result is its number. STREAM_CONTINUE takes a DONE stream back to PREFILL with its new input, and no other. -/
def Sys2Proof.Claims.StreamOpenAndContinue : Prop :=
  ∀ (s : State) (e : SubEntry) (params : BitVec 512) (input : List Byte) (ids : List Nat),
    let c := e.byte 16
    let p : Stream := { Stream.reset.withParams (List.replicate 72 0#8 ++ natLE 64 params.toNat) with
      context := c, flags := e.byte 17, tokenRing := e.num 18 19, maxNew := e.num 20 23 }
    let bad := s.tokenRingOk p.tokenRing c (some (s.ring e.sq)) = false ∨ 32 ≤ p.flags ∨ samplingOk p = false ∨ s.stopsOk p = false ∨
      fld params 511 480 ≠ 0 ∨ e.num 24 27 = 0 ∨ 1048576 < ids.length
    (e.opcode = cmdStreamOpen → s.commandOk e = true → s.noProcessor = true →
      exec (.streamOpen e params input) s = .next (s.complete e stDeviceFault 0)) ∧
    (e.opcode = cmdStreamOpen → s.commandOk e = true → s.noProcessor = false → s.inputTokens c p.text (e.num 24 27) input = some ids →
      (bad → exec (.streamOpen e params input) s = .next (s.complete e stAccessFault 0)) ∧
      (¬ bad → (s.freeEntry = none ∨ s.admits c = false) → exec (.streamOpen e params input) s = .next (s.complete e stNoCapacity 0)) ∧
      (∀ st, ¬ bad → s.freeEntry = some st → s.admits c = true → Completes (.streamOpen e params input) s fun t =>
        (s.stream st).state = .free ∧ (t.stream st).state = .admitted ∧ (t.stream st).context = c ∧ (t.stream st).flags = e.byte 17 ∧
        (t.stream st).tokenRing = e.num 18 19 ∧ (t.stream st).maxNew = e.num 20 23 ∧ (t.stream st).promptLen = ids.length ∧
        (t.stream st).generated = 0 ∧ (t.stream st).admitTime = s.time ∧ (t.stream st).work.queued = true ∧
        (t.stream st).seed = (if p.flags.testBit 4 then s.time else BitVec.ofNat 64 (e.num 32 39)) ∧
        (s.t1Retired = [] → ∀ i x, ids[i]? = some x → t.historyAt st i = x % 2 ^ 32) ∧
        t.reg 0xA605C = s.reg 0xA605C + 1#32 ∧ OtherRegisters [0xA605C] s t ∧ Sys2Proof.Claims.otherStreams st s t ∧
        ∃ s1 : State, t = s1.complete e stOk st ∧ s1 = { s with bar0 := s1.bar0, mem := s1.mem, marks := s1.marks, dir := s1.dir, streams := s1.streams })) ∧
    (e.opcode = cmdStreamContinue → s.mustWait e = false → s.commandOk e = true →
      let st := e.num 16 17
      let x := s.stream st
      let wrong := samplingOk x = false ∨ s.stopsOk x = false ∨ e.num 24 27 = 0 ∨ 1048576 < x.positions + ids.length
      (s.cmdState st ≠ .done → exec (.streamContinue e input) s = .next (s.complete e stAccessFault 0)) ∧
      (s.cmdState st = .done → s.noProcessor = false → s.inputTokens x.context x.text (e.num 24 27) input = some ids →
        (wrong → exec (.streamContinue e input) s = .next (s.complete e stAccessFault 0)) ∧
        (¬ wrong → ((s.ctx x.context).saturated = true ∨ (s.ctx x.context).live = false) →
          exec (.streamContinue e input) s = .next (s.complete e stNoCapacity 0)) ∧
        (¬ wrong → (s.ctx x.context).saturated = false → (s.ctx x.context).live = true → Completes (.streamContinue e input) s fun t =>
          (t.stream st).state = .prefill ∧ (t.stream st).promptLen = x.promptLen + ids.length ∧ (t.stream st).generated = x.generated ∧
          (t.stream st).maxNew = e.num 20 23 ∧ (t.stream st).endReason = 0 ∧ (t.stream st).work.queued = true ∧
          Sys2Proof.Claims.otherStreams st s t ∧ OtherRegisters [] s t ∧
          ∃ s1 : State, t = s1.complete e stOk 0 ∧ s1 = { s with mem := s1.mem, marks := s1.marks, dir := s1.dir, streams := s1.streams })))

/-- R144, R243 to R245, R250, R252 to R254, R288, R291, R300: a command behind another of its stream waits. STREAM_CANCEL ends an ADMITTED
stream, one in PREFILL without jobs and one in DECODE that may not run at once with reason 5; elsewhere the cancel waits for the jobs or the
step, and a PREFILL job formed meanwhile leaves the stream out. CLOSE frees a DONE stream only. PARK and RESUME wait for their ends.
QUERY writes the stream's entry to the host and READ_TOKENS the tokens asked for, PARTIAL where fewer exist; neither writes through a
function that was reset after it accepted the command. -/
def Sys2Proof.Claims.StreamCommands : Prop :=
  ∀ (s : State) (e : SubEntry),
    let st := e.num 16 17
    let x := s.stream st
    let host := fun (u : State) (i : Nat) => Tab.get 0#8 u.hostMem ((s.ring e.sq).port * 2 ^ 64 + e.num 40 47 + i)
    (s.mustWait e = true → NoEffect (.streamCancel e) s ∧ NoEffect (.streamClose e) s ∧ NoEffect (.streamPark e) s ∧ NoEffect (.streamResume e) s ∧
      NoEffect (.streamQuery e) s ∧ NoEffect (.streamReadTokens e) s ∧ (∀ input, NoEffect (.streamContinue e input) s) ∧ ∀ answer, NoEffect (.streamMirror e answer) s) ∧
    (s.mustWait e = false → s.commandOk e = true →
    (e.opcode = cmdStreamCancel → x.work.cancel = none →
      (s.cmdState st = .admitted ∨ (s.cmdState st = .prefill ∧ s.jobsOf st = false) → Completes (.streamCancel e) s fun t =>
        (t.stream st).state = .done ∧ (t.stream st).endReason = 5 ∧ (t.stream st).work.cancel = none ∧
        (t.stream st).promptLen = x.work.basePrompt ∧ Sys2Proof.Claims.otherStreams st s t) ∧
      ((s.cmdState st = .prefill ∧ s.jobsOf st = true) ∨ (s.cmdState st = .decode ∧ s.mayRun st = true) → Completes (.streamCancel e) s fun t =>
        t.stream st = { x with work := { x.work with cancel := some e } } ∧ Sys2Proof.Claims.otherStreams st s t ∧
        (s.cmdState st = .prefill → ∀ q n, q ∈ t.prefillJobs → n ∈ q.entries → n.1 ≠ st) ∧
        (s.cmdState st = .decode → t.prefillJobs = s.prefillJobs) ∧ t = { s with streams := t.streams, prefillJobs := t.prefillJobs }) ∧
      (s.cmdState st = .decode → s.mayRun st = false → Completes (.streamCancel e) s fun t =>
        (t.stream st).state = .done ∧ (t.stream st).endReason = 5 ∧ Sys2Proof.Claims.otherStreams st s t) ∧
      (s.cmdState st ∉ [StreamState.admitted, .prefill, .decode] → exec (.streamCancel e) s = .next (s.complete e stAccessFault 0))) ∧
    (e.opcode = cmdStreamClose →
      (s.cmdState st = .done → Completes (.streamClose e) s fun t =>
        t.stream st = Stream.reset ∧ t.park st = none ∧ (∀ y, y ∈ t.kvUsed → y.2 ≠ st + 1) ∧ Sys2Proof.Claims.otherStreams st s t) ∧
      (s.cmdState st ≠ .done → exec (.streamClose e) s = .next (s.complete e stAccessFault 0))) ∧
    (e.opcode = cmdStreamPark →
      let bad := (x.state ≠ .decode ∧ x.state ≠ .done) ∨ (s.park st).isSome = true ∨ e.byte 18 < 1 ∨ 2 < e.byte 18 ∨
        e.num 20 23 < 1 ∨ 604800 < e.num 20 23
      (bad → exec (.streamPark e) s = .next (s.complete e stAccessFault 0)) ∧
      (¬ bad → Completes (.streamPark e) s fun t => (t.stream st).state = x.state ∧ (t.stream st).mirrored = false ∧
        (∃ p, t.park st = some p ∧ p.cmd = some e ∧ p.tier = e.byte 18 ∧ p.ttl = e.num 20 23 ∧ p.parked = false ∧ p.resume = none) ∧
        (∀ i, i ≠ st → t.park i = s.park i) ∧ Sys2Proof.Claims.otherStreams st s t)) ∧
    (e.opcode = cmdStreamResume →
      (s.park st = none → exec (.streamResume e) s = .next (s.complete e stAccessFault 0)) ∧
      (∀ p, s.park st = some p → p.resume = none → (p.parked = true → x.state = .parked) → (p.parked = true → s.time.toNat < p.expires) →
        ((s.ctx x.context).saturated = true → exec (.streamResume e) s = .next (s.complete e stNoCapacity 0)) ∧
        ((s.ctx x.context).saturated = false → exec (.streamResume e) s = .next (s.setPark st { p with resume := some e })))) ∧
    (e.opcode = cmdStreamQuery → Completes (.streamQuery e) s fun t => ∃ s1 : State, t = s1.complete e stOk 0 ∧
      (e ∉ s.orphans → ∀ i b, x.entryBytes[i]? = some b → host s1 i = b) ∧ (e ∈ s.orphans → t.hostMem = s.hostMem) ∧
      s1 = { s with free := s1.free, hostMem := s1.hostMem }) ∧
    (e.opcode = cmdStreamReadTokens →
      let n := min (e.num 24 27) (x.generated - e.num 20 23)
      let ids := tabulate n (fun i => s.historyAt st (x.posOf (e.num 20 23 + i)))
      let text := (e.byte 18).testBit 0
      let out := if text then ids.flatMap (s.tokString x.context) else ids.flatMap (natLE 4)
      (s.cmdState st ∈ [StreamState.decode, .done, .mirroring] → (text = true → (s.tokeniser x.context).isSome = true) →
        Completes (.streamReadTokens e) s fun t => ∃ s1 : State, (e ∉ s.orphans → ∀ i b, out[i]? = some b → host s1 i = b) ∧
          (e ∈ s.orphans → t.hostMem = s.hostMem) ∧ s1 = { s with hostMem := s1.hostMem } ∧
          t = s1.complete e (if n = e.num 24 27 then stOk else stPartial) (if text then out.length else n)) ∧
      (s.cmdState st ∉ [StreamState.decode, .done, .mirroring] → exec (.streamReadTokens e) s = .next (s.complete e stAccessFault 0))))

/-- R252, R260, R271 to R274: a set-up that the peer accepts mirrors the stream there, one it refuses ends with the peer's status, and
DIRECTION 0 ends the mirroring. The acknowledgement of a token log moves the acknowledged ordinal. Heartbeats go to every standby each
100 µs. A checkpoint completes the set-up, or becomes current on the standby once every page below its position has arrived there.
Without heartbeats a standby without a checkpoint is
freed and one with a checkpoint decodes. A stream that has been shipped whole is freed. -/
def Sys2Proof.Claims.StreamMirroring : Prop :=
  ∀ (s : State) (st : Nat),
    let x := s.stream st
    (∀ e answer, e.opcode = cmdStreamMirror → s.mustWait e = false → s.commandOk e = true → st = e.num 16 17 →
      (s.cmdState st ∉ [StreamState.decode, .done] → exec (.streamMirror e answer) s = .next (s.complete e stAccessFault 0)) ∧
      (s.cmdState st ∈ [StreamState.decode, .done] →
        (e.byte 18 = 0 → Completes (.streamMirror e answer) s fun t => (t.stream st).mirrored = false ∧ (t.stream st).state = x.state ∧
          Sys2Proof.Claims.otherStreams st s t) ∧
        (1 < e.byte 18 → exec (.streamMirror e answer) s = .next (s.complete e stAccessFault 0)) ∧
        (e.byte 18 = 1 → answer = 1 → exec (.streamMirror e answer) s = .next (s.complete e stAccessFault 0)) ∧
        (e.byte 18 = 1 → 2 ≤ answer → exec (.streamMirror e answer) s = .next (s.complete e stNoCapacity 0)) ∧
        (e.byte 18 = 1 → answer = 0 → Completes (.streamMirror e answer) s fun t =>
          (t.stream st).mirrored = true ∧ (t.stream st).peer = e.num 20 21 % 4096 ∧ (t.stream st).work.mirrorCmd = some e ∧
          (t.stream st).work.acked = x.generated ∧ (t.stream st).state = x.state ∧ Sys2Proof.Claims.otherStreams st s t))) ∧
    (∀ o, (x.mirrored = true → o < x.generated → Completes (.tokenLogAck st o) s fun t =>
        (t.stream st).work.acked = max x.work.acked (o + 1) ∧ (t.stream st).state = x.state ∧ Sys2Proof.Claims.otherStreams st s t) ∧
      (x.mirrored = false ∨ x.generated ≤ o → NoEffect (.tokenLogAck st o) s)) ∧
    (Completes .mirrorHeartbeat s fun t =>
      let peers := ((s.streams.filter (fun p => p.2.mirrored)).map (fun p => p.2.peer)).eraseDups
      t.now = max s.now (s.lastBeat + us 100) ∧ t.lastBeat = t.now ∧
      (∃ ms : List FabMsg, t.fabOut = s.fabOut ++ ms ∧ ms.map FabMsg.dest = peers ∧ ∀ m, m ∈ ms → m.kind = 2) ∧
      t = { s with now := t.now, free := t.free, nextId := t.nextId, fabOut := t.fabOut, fabNo := t.fabNo, lastBeat := t.lastBeat }) ∧
    (∀ j cp,
      (∀ e, x.work.mirrorCmd = some e → exec (.checkpointComplete st j cp) s =
        .next ((s.setStream st { x with work := { x.work with mirrorCmd := none } }).complete e stOk 0)) ∧
      (∀ w, x.work.mirrorCmd = none → x.work.standby = some w → x.state = .mirroring → cp.pos = 0 ∨ s.allPages st cp.pos = true →
        Completes (.checkpointComplete st j cp) s fun t =>
        (∃ w', w' = { w with buffers := w.buffers.set (j % 2) (some cp), current := some (j % 2) } ∧
          t.stream st = { x with work := { x.work with spans := cp.spans, standby := some w' } }) ∧
        Sys2Proof.Claims.otherStreams st s t ∧ t = { s with mem := t.mem, marks := t.marks, dir := t.dir, streams := t.streams }) ∧
      (x.work.mirrorCmd = none → cp.pos ≠ 0 → s.allPages st cp.pos = false → NoEffect (.checkpointComplete st j cp) s)) ∧
    (∀ w, x.work.standby = some w → x.state = .mirroring → Completes (.mirrorTimeout st) s fun t =>
      t.now = max s.now (w.lastBeat + us 100 * s.rfld 0xA6004 15 8) ∧ Sys2Proof.Claims.otherStreams st s t ∧
      (w.current = none → t.stream st = Stream.reset) ∧
      (∀ i cp, w.current = some i → w.buffers[i]? = some (some cp) → (t.stream st).state = .decode ∧ (t.stream st).tokenRing = w.ring)) ∧
    (x.work.standby = none → NoEffect (.mirrorTimeout st) s) ∧
    (x.state = .shipping → Completes (.shipmentAck st) s fun t => t.stream st = Stream.reset ∧ t.park st = none ∧
      (∀ y, y ∈ t.kvUsed → y.2 ≠ st + 1) ∧ t.reg 0xA6060 = s.reg 0xA6060 + 1#32 ∧ OtherRegisters [0xA6060] s t ∧
      Sys2Proof.Claims.otherStreams st s t) ∧
    (x.state ≠ .shipping → NoEffect (.shipmentAck st) s)

/-- The token R262 draws for stream `st` from its `v` logits at `addr`. -/
def Sys2Proof.Claims.drawn (s : State) (st addr v : Nat) : Option Nat :=
  let used := (List.range countRecords).filterMap (fun i => let n := s.countNum st i
    if n = 0 then none else some (s.countTok st i, n))
  sampleToken (s.stream st) (tabulate v (fun i => penalise (s.stream st) (s.f32At (addr + 4 * i))
    (match used.find? (fun p => decide (p.1 = i)) with | some p => p.2 | none => 0))) (s.stream st).generated (Config.freeNat s.free)

/-- R233, R234, R252, R257, R258, R262 to R266, R277, R295: the scheduler takes the oldest stream of the next context in turn into PREFILL, and forms
PREFILL jobs of up to 64 entries of one length bucket, no entry longer than 32,768 tokens. A draw gives the stream one token more, in
DECODE at the first layer of its next step, or ends it: reason 3 for an end token, 1 at MAX_NEW, 4 at the position limit,
5 for a cancel, in this order, and 6 where every logit is NaN. A stream that may not run, has a job open, has not been through every
layer of its step, or has 64 tokens beyond its records is left. -/
def Sys2Proof.Claims.SchedulerAndSampler : Prop :=
  ∀ (s : State) (st : Nat),
    let x := s.stream st
    ((∀ p, p ∈ s.streams → p.2.work.cancel = none ∧ p.2.work.origin = none) → s.unloads = [] →
      ((∀ c, c < 64 → s.takeable c = []) → Completes .prefillSchedule s fun t =>
        (∃ js : List PrefillJob, t.prefillJobs = s.prefillJobs ++ js ∧ ∀ q, q ∈ js →
          q.entries ≠ [] ∧ q.entries.length ≤ 64 ∧ 7 ≤ q.bucket ∧ q.bucket ≤ 15 ∧ q.entries.length * 2 ^ q.bucket ≤ 65536 ∧
          ∀ n, n ∈ q.entries → 1 ≤ n.2.2 ∧ n.2.2 ≤ 2 ^ q.bucket ∧ (s.stream n.1).state = .prefill) ∧
        t = { s with prefillJobs := t.prefillJobs }) ∧
      (∀ i rest, i < 64 → (∀ j, j < i → s.takeable ((s.prefillTurn + 1 + j) % 64) = []) → s.takeable ((s.prefillTurn + 1 + i) % 64) = st :: rest →
        x.kvDir ≠ 0 → Completes .prefillSchedule s fun t =>
          (t.stream st).state = .prefill ∧ (t.stream st).work.queued = false ∧ t.prefillTurn = x.context ∧
          (t.stream st).promptLen = x.promptLen ∧ Sys2Proof.Claims.otherStreams st s t ∧ OtherRegisters [] s t ∧
          t = { s with free := t.free, nextId := t.nextId, mem := t.mem, marks := t.marks, dir := t.dir, streams := t.streams,
                       prefillJobs := t.prefillJobs, prefillTurn := t.prefillTurn, fabOut := t.fabOut, fabNo := t.fabNo })) ∧
    (∀ v, (s.jobsOf st = true ∨ x.delivered + 64 ≤ x.generated ∨ (x.state = .decode ∧ x.work.layer ≠ s.dirLayers x.kvDir)) → s.mayDraw st v = false) ∧
    (∀ addr v, (s.mayDraw st v = false → NoEffect (.samplerDraw st addr v) s) ∧
      (s.mayDraw st v = true → x.mirrored = false → x.work.standby = none → Tab.find s.unloads x.context = none → Completes (.samplerDraw st addr v) s fun t =>
        (t.stream st).lastStep = s.time ∧ t.now = s.now ∧ Sys2Proof.Claims.otherStreams st s t ∧
        (Sys2Proof.Claims.drawn s st addr v = none → (t.stream st).state = .done ∧ (t.stream st).endReason = 6 ∧
          (t.stream st).generated = x.generated) ∧
        (∀ id, Sys2Proof.Claims.drawn s st addr v = some id →
          let endTok := (x.endTokens.take x.endCount).contains id
          let atMax := decide (x.maxNew ≤ x.generated + 1 - x.work.baseGen)
          let full := decide (1048576 ≤ x.positions + 1)
          (t.stream st).generated = x.generated + 1 ∧ (t.stream st).work.layer = 0 ∧
          (endTok || atMax || full || x.work.cancel.isSome → (t.stream st).state = .done) ∧
          (x.stopCount = 0 → (t.stream st).state = (if endTok || atMax || full || x.work.cancel.isSome then .done else .decode) ∧
            (t.stream st).endReason = (if endTok then 3 else if atMax then 1 else if full then 4 else if x.work.cancel.isSome then 5
              else x.endReason)))))

/-- R180, R267, R275, R276: PROFILE_SET sets the context's profile; a gallery of the context takes it at once when no flight runs there and
after its flight otherwise. A good tokeniser image takes over once no stream of its context is in ADMITTED or PREFILL, and waits
until then. CONTEXT_UNLOAD refuses while streams run unless FORCE is set; then it ends them and releases the context, and one that has
a job open or is within a decode step is left until that has ended (R252). -/
def Sys2Proof.Claims.ContextCommands : Prop :=
  ∀ (s : State) (e : SubEntry),
    let c := e.byte 16
    s.commandOk e = true →
    (e.opcode = cmdProfileSet →
      (3 < e.byte 17 ∨ 63 < c → exec (.profileSet e) s = .next (s.complete e stAccessFault 0)) ∧
      (e.byte 17 ≤ 3 → c ≤ 63 → Completes (.profileSet e) s fun t =>
        t.rfld (0xA6100 + 4 * c) 1 0 = e.byte 17 ∧
        (∀ k, k < 4096 → s.owner k = some c → (t.gal k).flight = (s.gal k).flight ∧
          (t.gal k).newProfile = if (s.gal k).flight.isSome then some (e.byte 17) else none) ∧
        (∀ k, s.owner k ≠ some c → t.gal k = s.gal k) ∧ t.streams = s.streams)) ∧
    (e.opcode = cmdTokeniserLoad →
      let a := e.num 40 47
      let m := s.tokImage a
      (63 < c ∨ s.memOf a ≠ some 10 → exec (.tokeniserLoad e) s = .next (s.complete e stAccessFault 0)) ∧
      (c ≤ 63 → s.memOf a = some 10 → s.mapped a 64 = true → m ≠ [] → s.mapped a m.length = true → s.anyMarked a m.length = false →
        (TokImage.ok m = false → exec (.tokeniserLoad e) s = .next (s.complete e stAccessFault 0)) ∧
        (TokImage.ok m = true → Tab.find s.tokWait c = none →
          (s.streamsIn c (fun t => decide (t = .admitted ∨ t = .prefill)) = [] → Completes (.tokeniserLoad e) s fun t =>
            t.tokeniser c = some m ∧ (∀ i, i ≠ c → t.tokeniser i = s.tokeniser i) ∧ t.streams = s.streams ∧ OtherRegisters [] s t) ∧
          (s.streamsIn c (fun t => decide (t = .admitted ∨ t = .prefill)) ≠ [] → Completes (.tokeniserLoad e) s fun t =>
            Tab.find t.tokWait c = some [{ cmd := e, image := m }] ∧ t = { s with tokWait := t.tokWait })))) ∧
    (e.opcode = cmdContextUnload →
      (63 < c ∨ 1 < e.byte 17 → exec (.contextUnload e) s = .next (s.complete e stAccessFault 0)) ∧
      (c ≤ 63 → e.byte 17 = 0 → s.streamsIn c (fun t => decide (t ≠ .free ∧ t ≠ .done)) ≠ [] →
        exec (.contextUnload e) s = .next (s.complete e stNoCapacity 0)) ∧
      (c ≤ 63 → (e.byte 17 = 0 ∧ s.streamsIn c (fun t => decide (t ≠ .free ∧ t ≠ .done)) = []) ∨
          (e.byte 17 = 1 ∧ Tab.find s.unloads c = none ∧ Tab.wf Stream.reset s.streams = true ∧
            ∀ st, (s.stream st).context = c → (s.stream st).state ≠ .free → s.unloadWaits st = false) → Completes (.contextUnload e) s fun t =>
        t.load c = none ∧ t.ctx c = Context.reset ∧ t.tokeniser c = none ∧ (∀ i, i ≠ c → t.ctx i = s.ctx i ∧ t.load i = s.load i) ∧
        (e.byte 17 = 1 → ∀ st, (s.stream st).context = c → (s.stream st).state ≠ .free → t.stream st = Stream.reset)) ∧
      (∀ st, c ≤ 63 → e.byte 17 = 1 → Tab.find s.unloads c = none → Tab.wf Stream.reset s.streams = true → (s.stream st).context = c →
        (s.stream st).state ≠ .free → s.unloadWaits st = true → Completes (.contextUnload e) s fun t =>
        t.load c = s.load c ∧ t.contexts = s.contexts ∧ Tab.find t.unloads c = some [e] ∧ t.stream st = s.stream st))

/-- R285, R287, R288, R290: an enabled ring takes a doorbell of its own function with an index inside it, and ignores every other. A fetch whose
entry has the expected PHASE accepts it and moves on, flipping PHASE at the wrap; an undefined opcode ends with ACCESS_FAULT. Otherwise
the entry is read again, 250 ns later each time and up to 8 times; then the ring is parked at the entry and DOORBELL_AHEAD is
raised. A parked ring fetches nothing and RESUME restarts it there. Of the rings that pend each is served up to 4 entries in its turn. -/
def Sys2Proof.Claims.DoorbellsAndFetches : Prop :=
  ∀ (s : State) (n fn v : Nat) (entry : BitVec 512),
    let r := s.ring n
    (n < 8192 → r.enabled = true → r.fn = fn → s.fnPresent fn = true → v % 65536 < r.size →
      (r.kind = 0 → r.waiting = [] → Completes (.doorbell fn n v) s fun t =>
        t.ring n = { r with db := v % 65536 } ∧ t.reg 0x5010C = s.reg 0x5010C + 1#32 ∧ OtherRegisters [0x5010C] s t ∧
        Sys2Proof.Claims.otherRings n s t ∧ t = { s with bar0 := t.bar0, rings := t.rings }) ∧
      (Completes (.doorbell fn n v) s fun t => (t.ring n).db = v % 65536 ∧ t.reg 0x5010C = s.reg 0x5010C + 1#32)) ∧
    (r.enabled = false ∨ r.fn ≠ fn ∨ r.size ≤ v % 65536 → NoEffect (.doorbell fn n v) s) ∧
    (s.ringPends s.fetchRing = true → s.fetchTaken < 4 → s.fetchTurn = some s.fetchRing) ∧
    (s.ringPends s.fetchRing = true → s.fetchTaken = 4 → n ≠ s.fetchRing → (∃ v, (n, v) ∈ s.rings) → s.ringPends n = true →
      ∃ m, s.fetchTurn = some m ∧ s.ringPends m = true ∧ (s.fetchRing < n → s.fetchRing < m)) ∧
    (r.firstBack = none → s.fetchTurn ≠ some n → ∀ x, NoEffect (.submissionFetch n x) s) ∧
    (s.fetches? n = true → (r.firstBack = none ∧ s.fetchTurn = some n) ∨ (r.firstBack.isSome = true ∧ r.returned < r.rereads) →
      let turn := fun (t : State) => if r.firstBack.isSome then t.fetchRing = s.fetchRing ∧ t.fetchTaken = s.fetchTaken
        else t.fetchRing = n ∧ t.fetchTaken = if n = s.fetchRing ∧ s.fetchTaken < 4 then s.fetchTaken + 1 else 1
      (Completes (.submissionFetch n none) s fun t => t.ring n = { r.park with fetchError := true } ∧ Sys2Proof.Claims.otherRings n s t ∧ turn t ∧
        t = { s with rings := t.rings, fetchRing := t.fetchRing, fetchTaken := t.fetchTaken }) ∧
      (bit entry 8 = r.phase →
        let e : SubEntry := { sq := n, index := r.index, bytes := entry }
        let wraps := decide (r.index + 1 = r.size)
        ((cmdDef e.opcode).isSome = true → Completes (.submissionFetch n (some entry)) s fun t =>
          t.accepted = s.accepted ++ [e] ∧ t.ring n = { r with
            index := if wraps then 0 else r.index + 1, phase := r.phase != wraps, firstBack := none, rereads := 0, returned := 0 } ∧
          Sys2Proof.Claims.otherRings n s t ∧ turn t ∧
          t = { s with free := t.free, rings := t.rings, accepted := t.accepted, hostLines := t.hostLines, fetchRing := t.fetchRing,
                       fetchTaken := t.fetchTaken }) ∧
        (cmdDef e.opcode = none → Completes (.submissionFetch n (some entry)) s fun t => ∃ s1 : State, t = s1.complete e stAccessFault 0 ∧
          s1.accepted = s.accepted ++ [e] ∧ (s1.ring n).index = (if wraps then 0 else r.index + 1))) ∧
      (bit entry 8 ≠ r.phase →
        (r.firstBack = none → Completes (.submissionFetch n (some entry)) s fun t =>
          t.ring n = { r with firstBack := some s.now, rereads := 0, returned := 0 } ∧ Sys2Proof.Claims.otherRings n s t ∧ turn t ∧
          t = { s with free := t.free, rings := t.rings, hostLines := t.hostLines, fetchRing := t.fetchRing, fetchTaken := t.fetchTaken }) ∧
        (r.firstBack.isSome = true → r.returned < 7 → Completes (.submissionFetch n (some entry)) s fun t =>
          t.ring n = { r with returned := r.returned + 1 } ∧ Sys2Proof.Claims.otherRings n s t ∧
          t = { s with free := t.free, rings := t.rings, hostLines := t.hostLines }) ∧
        (s.Inv → r.firstBack.isSome = true → 7 ≤ r.returned → Completes (.submissionFetch n (some entry)) s fun t =>
          t.ring n = r.park ∧ (t.ring n).parked = true ∧ (t.ring n).index = r.index ∧ t.eventSeq = (s.eventSeq + 1) % 2 ^ 32 ∧
          t.accepted = s.accepted))) ∧
    (s.fetches? n = false → ∀ x, NoEffect (.submissionFetch n x) s) ∧
    (r.parked = true → s.fetches? n = false) ∧
    (∀ u, r.firstBack = some u → s.fetches? n = true → r.rereads < 8 → Completes (.submissionReread n) s fun t =>
      t.now = max s.now (u + ns (250 * (r.rereads + 1))) ∧ t.ring n = { r with rereads := r.rereads + 1 } ∧
      Sys2Proof.Claims.otherRings n s t ∧ t = { s with now := t.now, rings := t.rings }) ∧
    (r.firstBack = none ∨ 8 ≤ r.rereads → NoEffect (.submissionReread n) s) ∧
    (s.selected fn = some n → (r.parked = true → Completes (.ringResume fn) s fun t => t.ring n = { r with parked := false } ∧
        Sys2Proof.Claims.otherRings n s t ∧ t = { s with rings := t.rings }) ∧
      (r.parked = false → NoEffect (.ringResume fn) s))

/-- R294, R296, R301: the bound function enables its selected ring at index 0 with PHASE 1, and disables it; an event ring then takes every
held event it covers. INT_USEC after the oldest unsignalled entry the ring's interrupt is sent, or pending while its vector is masked.
A reset of a function leaves its rings disabled with their binding, its registers at reset and every other ring as it was; a reset of
a port resets both its functions. -/
def Sys2Proof.Claims.RingSetUpAndReset : Prop :=
  ∀ (s : State) (fn n : Nat),
    let r := s.ring n
    let on : Ring := { r with
      enabled := true, parked := false, phase := true, index := 0, db := 0, firstBack := none, rereads := 0, returned := 0, unsignalled := 0, oldest := none }
    (s.selected fn = some n →
      (r.enabled = false → r.kind ≤ 1 → r.waiting = [] → Completes (.ringEnable fn true) s fun t => t.ring n = on ∧
        Sys2Proof.Claims.otherRings n s t ∧ t = { s with rings := t.rings }) ∧
      (r.enabled = false → r.kind = 2 → Completes (.ringEnable fn true) s fun t => (t.ring n).enabled = true ∧
        t.held = s.held.filter (fun h => !(on.covers h.ctx)) ∧ Sys2Proof.Claims.otherRings n s t) ∧
      (r.enabled = true → Completes (.ringEnable fn false) s fun t =>
        t.ring n = { r with enabled := false, parked := false, firstBack := none, rereads := 0, returned := 0 } ∧
        Sys2Proof.Claims.otherRings n s t ∧ t = { s with rings := t.rings }) ∧
      NoEffect (.ringEnable fn r.enabled) s) ∧
    (s.selected fn = none → ∀ b, NoEffect (.ringEnable fn b) s) ∧
    (∀ u, r.oldest = some u → fld r.int 31 20 ≠ 0 → bit r.int 11 = true → Completes (.interruptTimer n) s fun t =>
      t.now = max s.now (u + us (fld r.int 31 20)) ∧ t.ring n = { r with unsignalled := 0, oldest := none } ∧ Sys2Proof.Claims.otherRings n s t ∧
      (bit ((s.fn r.fn).msixWord (4 * fld r.int 10 0 + 3)) 0 = true →
        bit (Tab.get 0#32 (t.fn r.fn).pba (fld r.int 10 0 / 32)) (fld r.int 10 0 % 32) = true ∧ t.hostMem = s.hostMem) ∧
      (bit ((s.fn r.fn).msixWord (4 * fld r.int 10 0 + 3)) 0 = false → t.fns = s.fns ∧
        ∀ i, i < 4 → Tab.get 0#8 t.hostMem (r.fn / 2 * 2 ^ 64 + ((s.fn r.fn).msixWord (4 * fld r.int 10 0)).toNat +
          ((s.fn r.fn).msixWord (4 * fld r.int 10 0 + 1)).toNat * 2 ^ 32 + i) =
          BitVec.ofNat 8 (((s.fn r.fn).msixWord (4 * fld r.int 10 0 + 2)).toNat / 256 ^ i)) ∧
      t = { s with now := t.now, rings := t.rings, fns := t.fns, hostMem := t.hostMem }) ∧
    (r.oldest = none → NoEffect (.interruptTimer n) s) ∧
    (∀ port f, s.Inv → s.engines = [] →
      (∀ down, Completes (.hostReset port (some f) down) s fun t =>
        (∀ i, (s.ring i).fn = 2 * (port % 2) + f % 2 → t.ring i = (s.ring i).hostReset ∧ (t.ring i).enabled = false ∧
          (t.ring i).fn = (s.ring i).fn ∧ (t.ring i).kind = (s.ring i).kind ∧ (t.ring i).ctx = (s.ring i).ctx) ∧
        (∀ i, (s.ring i).fn ≠ 2 * (port % 2) + f % 2 → t.ring i = s.ring i) ∧ t.fn (2 * (port % 2) + f % 2) = FnRegs.reset ∧
        t = { s with fns := t.fns, rings := t.rings, orphans := t.orphans }) ∧
      (∀ down, Completes (.hostReset port none down) s fun t =>
        (∀ i, (s.ring i).port = port % 2 → (t.ring i).enabled = false ∧ (t.ring i).fn = (s.ring i).fn) ∧
        (∀ i, (s.ring i).port ≠ port % 2 → t.ring i = s.ring i) ∧
        t.mgmtPort = (if s.rfld 0x50100 0 0 = port % 2 then port % 2 else s.mgmtPort) ∧
        (down = true → t.rfld 0x50108 (16 * (port % 2) + 2) (16 * (port % 2)) = 0 ∧ t.rfld 0x50108 (16 * (port % 2) + 7) (16 * (port % 2) + 3) = 0) ∧
        (down = false → t.bar0 = s.bar0) ∧ OtherRegisters [0x50108] s t ∧
        t = { s with bar0 := t.bar0, fns := t.fns, rings := t.rings, orphans := t.orphans, mgmtPort := t.mgmtPort }))

/-- R283, R284, R288 to R291: a command that passes its checks ends with its status, one that fails them with ACCESS_FAULT. Its record goes to
the completion ring at the ring's index with the pass's PHASE, and the index advances; while the ring is full, and while it is
not enabled, the record waits; where no completion ring is named it goes nowhere. -/
def Sys2Proof.Claims.CommandCompletes : Prop :=
  ∀ (s : State) (e : SubEntry), e.opcode = cmdNop →
    let st := if s.commandOk e then stOk else stAccessFault
    let q := (s.ring e.sq).cq
    let r := s.ring q
    let rec_ := completionRecord e st 0 s.time
    (Completes (.nop e) s fun t => t = s.complete e st 0 ∧ t.accepted = s.accepted.erase e ∧ Sys2Proof.Claims.otherRings q s t ∧
      t = { s with rings := t.rings, fns := t.fns, accepted := t.accepted, hostMem := t.hostMem, orphans := t.orphans }) ∧
    (r.enabled = true → r.kind = 1 → e ∉ s.orphans →
      (r.full = false → r.waiting = [] → bit r.int 11 = false → Completes (.nop e) s fun t =>
        (∀ i b, (rec_.set 1 (BitVec.ofNat 8 (b2n r.phase)))[i]? = some b →
          Tab.get 0#8 t.hostMem (r.port * 2 ^ 64 + (r.base + 64 * r.index) + i) = b) ∧
        (∀ x, (x < r.port * 2 ^ 64 + (r.base + 64 * r.index) ∨ r.port * 2 ^ 64 + (r.base + 64 * r.index) + 64 ≤ x) →
          Tab.get 0#8 t.hostMem x = Tab.get 0#8 s.hostMem x) ∧
        t.ring q = { r with index := if r.index + 1 = r.size then 0 else r.index + 1, phase := r.phase != decide (r.index + 1 = r.size) }) ∧
      (r.full = true → Completes (.nop e) s fun t => t.hostMem = s.hostMem ∧ t.ring q = { r with waiting := r.waiting ++ [rec_] })) ∧
    (r.enabled = false → r.kind = 1 → e ∉ s.orphans → Completes (.nop e) s fun t => t.hostMem = s.hostMem ∧
      t.ring q = { r with waiting := r.waiting ++ [rec_] }) ∧
    (r.kind ≠ 1 ∨ e ∈ s.orphans → Completes (.nop e) s fun t => t.hostMem = s.hostMem ∧ t.ring q = r)

/-- R286, R297 to R299: a host store drops the device's copy of the line only. A write-back takes its port off the line. A port that requests
ownership of a central-store line holds it alone, Modified once it stores, and its stores take effect; a port that reads it shares it with
the other holders, or holds it Exclusive where there are none. Of two ports that store to one byte in one cycle the higher one's store
stands, whatever the order in which they asked. The line is in the L2, no byte outside it changes, and no other line gains a holder; none
loses one while the L2 and the L1s have room. -/
def Sys2Proof.Claims.CoherentLines : Prop :=
  ∀ (s : State) (line : Nat) (reqs : List LineReq) (wb : Option Nat),
    let held := Tab.get [] s.dir line
    (∀ a, Completes (.coherentLineInvalidate a) s fun t => (∀ x, x ∈ t.hostLines ↔ x ∈ s.hostLines ∧ x.addr ≠ a / 64 * 64) ∧
      t = { s with hostLines := t.hostLines }) ∧
    (centralSize ≤ 64 * line → NoEffect (.directoryRequest line reqs wb) s) ∧
    (64 * line < centralSize →
      (Completes (.directoryRequest line reqs wb) s fun t => OtherBytes (64 * line) 64 s t ∧
        (∀ x h, x ≠ line → h ∈ Tab.get [] t.dir x → h ∈ Tab.get [] s.dir x) ∧
        (s.l2.length < 131072 → s.dir.length < 1536 → ∀ x, x ≠ line → Tab.get [] t.dir x = Tab.get [] s.dir x) ∧
        (∀ r, r ∈ reqs → r.port < 34 → line ∈ t.l2) ∧
        (∀ r, r ∈ reqs → r.port < 34 → (∀ x, x ∈ reqs → x.port < 34 → x = r ∨ x.port < r.port) → r.own = true →
          Tab.get [] t.dir line = [{ port := r.port, mesi := if r.stores = [] then .exclusive else .modified }]) ∧
        t = { s with mem := t.mem, marks := t.marks, dir := t.dir, l2 := t.l2 }) ∧
      (∀ p, Completes (.directoryRequest line [] (some p)) s fun t =>
        Tab.get [] t.dir line = held.filter (fun h => decide (h.port ≠ p)) ∧ t.mem = s.mem) ∧
      (∀ p bs, p < 34 → Completes (.directoryRequest line [{ port := p, own := false, stores := bs }] none) s fun t => t.mem = s.mem ∧
        (held = [] → Tab.get [] t.dir line = [{ port := p, mesi := .exclusive }]) ∧
        ((∃ h, h ∈ held ∧ h.port ≠ p) → (∀ h, h ∈ Tab.get [] t.dir line → h.mesi = .shared) ∧
          ∀ q, (∃ h, h ∈ Tab.get [] t.dir line ∧ h.port = q) ↔ q = p ∨ ∃ h, h ∈ held ∧ h.port = q)) ∧
      (∀ p q o a b, p < q → q < 34 → o < 64 →
        let x : LineReq := { port := p, own := true, stores := [(o, a)] }
        let y : LineReq := { port := q, own := true, stores := [(o, b)] }
        (reqs = [x, y] ∨ reqs = [y, x]) → Completes (.directoryRequest line reqs wb) s fun t => t.byte (64 * line + o) = b))

/-- R308 to R310, R314, R449: a posted channel joins the engine's queue of 64; a disabled engine discards it, ending a DMA_START with ABORTED;
a poster that finds the queue full waits. An idle engine takes its oldest channel and fetches its first descriptor, or ends the channel
with ACCESS_FAULT before any fetch where the entry or the address is bad. -/
def Sys2Proof.Claims.DmaChannelsStart : Prop :=
  ∀ (s : State) (n : Nat) (entry : BitVec 256) (e : SubEntry),
    let c := DmaChan.ofEntry entry
    (n < 96 →
      (s.engOn n = true → (s.eng n).queue.length < 64 → Completes (.dmaChannelPost n entry) s fun t =>
        t.eng n = { s.eng n with queue := (s.eng n).queue ++ [c] } ∧ Sys2Proof.Claims.otherEngines n s t ∧ t = { s with engines := t.engines }) ∧
      (s.engOn n = false ∨ 64 ≤ (s.eng n).queue.length → NoEffect (.dmaChannelPost n entry) s)) ∧
    (e.opcode = cmdDmaStart → s.commandOk e = true →
      (96 ≤ e.byte 16 → exec (.dmaStart e) s = .next (s.complete e stAccessFault 0)) ∧
      (e.byte 16 = n → n < 96 → s.engOn n = false → exec (.dmaStart e) s = .next (s.complete e stAborted 0)) ∧
      (e.byte 16 = n → n < 96 → s.engOn n = true → (s.eng n).queue.length < 64 → Completes (.dmaStart e) s fun t => ∃ c' : DmaChan,
        t.eng n = { s.eng n with queue := (s.eng n).queue ++ [c'] } ∧ c'.cmd = some e ∧ c'.head = e.num 24 31 ∧ c'.task = e.byte 17 ∧
        c'.tag = e.num 8 9 ∧ c'.host = (s.ring e.sq).port + 2 * (s.ring e.sq).func ∧ Sys2Proof.Claims.otherEngines n s t ∧
        t = { s with engines := t.engines })) ∧
    (∀ c' rest, (s.eng n).run = none → (s.eng n).queue = c' :: rest → s.engOn n = true → s.newWork = true →
      Completes (.dmaChannelStart n) s fun t => ∃ r : DmaRun, t.eng n = { queue := rest, run := some r } ∧ r.chan = c' ∧ r.descs = 0 ∧
        r.desc = none ∧ r.issued = [] ∧
        (c'.bad = false → s.fetchOk c' c'.head = true → r.ended = none ∧
          r.fetch = some (c'.head, s.now + ns 2 + s.fetchLatency n c' c'.head)) ∧
        (c'.bad = true ∨ s.fetchOk c' c'.head = false → r.ended = some stAccessFault ∧ r.fetch = none) ∧
        Sys2Proof.Claims.otherEngines n s t ∧ t = { s with engines := t.engines }) ∧
    ((s.eng n).run.isSome = true ∨ (s.eng n).queue = [] ∨ s.engOn n = false → NoEffect (.dmaChannelStart n) s)

/-- R314, R315, R320, R343: a descriptor that arrives and passes its checks streams, or waits behind the one that streams; one that fails
them ends the channel with ACCESS_FAULT, one on a marked line with DEVICE_FAULT. An ended channel writes its record at the tail of the
engine's completion queue and frees the engine; a full or unmapped queue holds it until HEAD moves. -/
def Sys2Proof.Claims.DmaChainAndRecord : Prop :=
  ∀ (s : State) (n : Nat) (r : DmaRun), (s.eng n).run = some r →
    (∀ a due data, r.fetch = some (a, due) → r.ended = none → r.next = none → r.stop = none →
      let d : BitVec 512 := if r.chan.headSpace = 1 then data else BitVec.ofNat 512 (s.readLE a 64)
      let bad := r.chan.headSpace = 0 ∧ s.marked a = true
      Completes (.dmaDescriptorArrival n data) s fun t => ∃ r' : DmaRun, (t.eng n).run = some r' ∧ t.now = max s.now due ∧
        (t.eng n).queue = (s.eng n).queue ∧ r'.descs = r.descs ∧ r'.chan = r.chan ∧
        (¬ bad → s.descOk r.chan.task d = true → r'.ended = none ∧ (if r.desc = none then r'.desc = some d else r'.desc = r.desc ∧ r'.next = some d)) ∧
        (bad → r.desc = none → r'.ended = some stDeviceFault) ∧
        (¬ bad → s.descOk r.chan.task d = false → r.desc = none → r'.ended = some stAccessFault) ∧
        Sys2Proof.Claims.otherEngines n s t ∧ t = { s with now := t.now, engines := t.engines }) ∧
    (∀ st, r.ended = some st →
      (s.cqRoom n = true →
        let tail := s.rfld (engReg n 0x14) 15 0
        Completes (.dmaChannelEnd n) s fun t => t.now = max s.now r.leaveAt ∧ (t.eng n).run = none ∧ (t.eng n).queue = (s.eng n).queue ∧
          (∃ w : PendWrite, t.writes = s.writes ++ [w] ∧ w.owner = .engine n ∧
            w.parts = [(s.cqBase n + 16 * (tail % s.cqSize n), completion16 r.chan.tag st false false r.descs ({ s with now := t.now } : State).time)] ∧
            w.incs = (if s.rfld (engReg n 0x10) 20 17 ≤ 8 then
              [{ key := cntKey (s.rfld (engReg n 0x10) 20 17) (s.rfld (engReg n 0x10) 16 5), amount := 1 }] else [])) ∧
          t.rfld (engReg n 0x14) 15 0 = (tail + 1) % s.cqSize n ∧ t.reg (engReg n 0x20) = s.reg (engReg n 0x20) + 1#32 ∧
          OtherRegisters [engReg n 0x14, engReg n 0x20] s t ∧ Sys2Proof.Claims.otherEngines n s t ∧
          (r.chan.cmd = none → t = { s with now := t.now, bar0 := t.bar0, writes := t.writes, nextId := t.nextId, engines := t.engines }) ∧
          (∀ e, r.chan.cmd = some e → t.accepted = s.accepted.erase e)) ∧
      (s.cqRoom n = false → NoEffect (.dmaChannelEnd n) s)) ∧
    (r.ended = none → NoEffect (.dmaChannelEnd n) s) ∧
    (∀ v, n < 96 → Completes (.dmaCqHeadWrite n v) s fun t => t.rfld (engReg n 0x18) 15 0 = v % 65536 ∧
      (r.ended = none → OtherRegisters [engReg n 0x18] s t ∧ t = { s with bar0 := t.bar0 }) ∧
      (r.ended.isSome = true → r.leaveAt ≤ s.now → (s.setRfld (engReg n 0x18) 15 0 v).cqRoom n = true → (t.eng n).run = none))

/-- What the end at `u` of a descriptor does to its channel (R316, R318, R320): it counts; after LAST the channel has ended with OK, or with
DEVICE_FAULT where a source line was bad; at the cap with LOOP_LIMIT. -/
def Sys2Proof.Claims.descEnds (n u : Nat) (r : DmaRun) (d : BitVec 512) (bad : Bool) (s t : State) : Prop :=
  (if DmaDesc.last d = false ∧ s.engCap n ≤ r.descs + 1 then u ≤ t.now else t.now = u) ∧
  t.reg (engReg n 0x24) = s.reg (engReg n 0x24) + 1#32 ∧ (t.eng n).queue = (s.eng n).queue ∧ Sys2Proof.Claims.otherEngines n s t ∧
  (∃ r' : DmaRun, (t.eng n).run = some r' ∧ r'.descs = r.descs + 1 ∧ r'.chan = r.chan ∧
    (DmaDesc.last d = true → r'.ended = some (if bad then stDeviceFault else stOk) ∧ t.eventSeq = s.eventSeq) ∧
    (DmaDesc.last d = false → s.engCap n ≤ r.descs + 1 → r'.ended = some stLoopLimit ∧ t.eventSeq = (s.eventSeq + 1) % 2 ^ 32) ∧
    (DmaDesc.last d = false → r.descs + 1 < s.engCap n → t.eventSeq = s.eventSeq ∧ ∀ x, r.next = some x → r'.desc = some x ∧ r'.ended = none))

/-- R312, R313, R317: COPY and FILL send every burst in order to device memory or to the host, a read behind the bytes toward a host, with
INC_MODE 1 one increment per element and with INC_MODE 2 one increment that waits for all of them (and for the answer of that read); a single element goes from SRC to DST. FENCE ends when every write of the
channel has arrived, SIGNAL adds COUNT0_M1 + 1 once its writes to the counter's memory have; both wait until then. -/
def Sys2Proof.Claims.DmaDescriptorsRun : Prop :=
  ∀ (s : State) (n : Nat) (r : DmaRun) (d : BitVec 512) (data : List Byte),
    (s.eng n).run = some r → r.desc = some d → r.ended = none →
    let bs := s.bursts d (if DmaDesc.op d = 1 then data else [])
    let inc := fun (k : Nat) => [({ key := cntKey (DmaDesc.counterMem d) (DmaDesc.counter d), amount := k } : Inc)]
    let moved := fun (t : State) => ∃ ws is : List PendWrite, t.writes = s.writes ++ ws ++ is ∧
      (DmaDesc.space d true = 1 → ∃ w : PendWrite, ws = [w] ∧ w.owner = .engine n ∧ w.mem = 11 ∧ w.parts = [] ∧ w.incs = []) ∧
      (DmaDesc.space d true = 0 → ws.map PendWrite.parts = bs.map (fun b => [(b.addr, b.bytes)]) ∧ ws.map PendWrite.marked = bs.map Burst.marked ∧
        ws.map PendWrite.incs = bs.map (fun b => if DmaDesc.incMode d = 1 then inc b.elems else []) ∧ ∀ w, w ∈ ws → w.owner = .engine n) ∧
      (if DmaDesc.incMode d = 2 ∨ (DmaDesc.incMode d = 1 ∧ DmaDesc.space d true = 1) then
        ∃ w : PendWrite, is = [w] ∧ w.incs = inc 1 ∧ w.parts = [] ∧ w.after = ws.map PendWrite.id else is = []) ∧
      (DmaDesc.space d true = 0 → DmaDesc.last d = true → t.hostMem = s.hostMem) ∧
      Sys2Proof.Claims.descEnds n (max s.now (max r.descAt r.readAt)) r d (r.badSource || bs.any (fun b => !b.marked.isEmpty)) s t ∧ t.mem = s.mem
    (DmaDesc.op d = 1 → DmaDesc.space d true ≤ 1 → Completes (.copy n data) s moved) ∧
    (DmaDesc.op d = 2 → DmaDesc.space d true ≤ 1 → Completes (.fill n) s moved) ∧
    (DmaDesc.op d = 1 → DmaDesc.space d true = 0 → DmaDesc.space d false = 0 → (∀ i, i < 3 → DmaDesc.count d i = 0) →
      (DmaDesc.wrap d true = false → DmaDesc.wrap d false = false →
      bs.map (fun b => (b.addr, b.bytes)) = [(DmaDesc.addr d true, s.bytes (DmaDesc.addr d false) (DmaDesc.elem d))])) ∧
    (DmaDesc.op d = 2 → (∀ i, i < 3 → DmaDesc.count d i = 0) → DmaDesc.wrap d true = false →
      bs.map (fun b => (b.addr, b.bytes)) = [(DmaDesc.addr d true, DmaDesc.pattern d)]) ∧
    (DmaDesc.op d = 3 →
      ((∀ w, w ∈ s.writes → w.id ∉ r.issued) → Completes (.dmaFence n) s fun t =>
        Sys2Proof.Claims.descEnds n (max s.now (max r.descAt r.leaveAt)) r d r.badSource s t ∧ t.writes = s.writes ∧ t.mem = s.mem) ∧
      ((∃ w, w ∈ s.writes ∧ w.id ∈ r.issued) → NoEffect (.dmaFence n) s)) ∧
    (DmaDesc.op d = 4 →
      ((∀ w, w ∈ s.writes → w.id ∈ r.issued → w.mem ≠ DmaDesc.counterMem d) → Completes (.dmaSignal n) s fun t =>
        Sys2Proof.Claims.descEnds n (max s.now (max r.descAt r.leaveAt)) r d r.badSource s t ∧ t.mem = s.mem ∧
        ∃ w : PendWrite, t.writes = s.writes ++ [w] ∧ w.incs = inc (DmaDesc.count d 0 + 1) ∧ w.parts = []) ∧
      ((∃ w, w ∈ s.writes ∧ w.id ∈ r.issued ∧ w.mem = DmaDesc.counterMem d) → NoEffect (.dmaSignal n) s))

/-- R319, R321, R333: a response that does not come within TIMEOUT ends the channel with TIMEOUT and raises DMA_TIMEOUT. ENABLE = 0 from the
management function drops the channel and the queue at once, ENABLE = 1 starts the engine empty with its counters at zero; another
function changes nothing. CNT_VALUE from the management function sets the selected counter only, and the additions of the cycle stand on
top of it. -/
def Sys2Proof.Claims.DmaTimeoutsAndEnables : Prop :=
  ∀ (s : State) (n fn v : Nat),
    (∀ r d, (s.eng n).run = some r → r.ended = none → r.desc = some d → DmaDesc.op d = 1 → Completes (.dmaResponseTimeout n 0) s fun t =>
      t.now = s.now + s.engTimeout n ∧ t.eventSeq = (s.eventSeq + 1) % 2 ^ 32 ∧ (t.eng n).queue = (s.eng n).queue ∧
      (if s.cqRoom n then (t.eng n).run = none else ∃ r', (t.eng n).run = some r' ∧ r'.ended = some stTimeout) ∧
      Sys2Proof.Claims.otherEngines n s t ∧ t.mem = s.mem) ∧
    (∀ r a due, (s.eng n).run = some r → r.ended = none → r.fetch = some (a, due) → Completes (.dmaResponseTimeout n 1) s fun t =>
      t.now = s.now + s.engTimeout n ∧ t.eventSeq = (s.eventSeq + 1) % 2 ^ 32 ∧
      (if s.cqRoom n then (t.eng n).run = none else ∃ r', (t.eng n).run = some r' ∧ r'.ended = some stTimeout) ∧
      Sys2Proof.Claims.otherEngines n s t ∧ t.mem = s.mem) ∧
    ((s.eng n).run = none → ∀ k, NoEffect (.dmaResponseTimeout n k) s) ∧
    (s.isMgmt fn = true → n < 96 → s.engOn n = true → Completes (.dmaEngineDisable fn n) s fun t =>
      t.engOn n = false ∧ t.eng n = DmaEngine.reset ∧ Sys2Proof.Claims.otherEngines n s t ∧
      OtherRegisters [engReg n 0, engReg n 0x20, engReg n 0x24, engReg n 0x28] s t ∧ t.mem = s.mem ∧ t.now = s.now) ∧
    (s.isMgmt fn = true → n < 96 → s.engOn n = false → Completes (.dmaEngineEnable fn n) s fun t =>
      t.engOn n = true ∧ t.eng n = DmaEngine.reset ∧ t.reg (engReg n 0x20) = 0#32 ∧ t.reg (engReg n 0x24) = 0#32 ∧ t.reg (engReg n 0x28) = 0#32 ∧
      Sys2Proof.Claims.otherEngines n s t ∧ OtherRegisters [engReg n 0, engReg n 0x20, engReg n 0x24, engReg n 0x28] s t ∧
      t = { s with bar0 := t.bar0, engines := t.engines }) ∧
    (s.isMgmt fn = false → NoEffect (.dmaEngineDisable fn n) s ∧ NoEffect (.dmaEngineEnable fn n) s ∧ NoEffect (.counterSet fn v) s) ∧
    (s.isMgmt fn = true → s.rfld 0x78000 15 12 ≤ 8 → Completes (.counterSet fn v) s fun t =>
      let key := cntKey (s.rfld 0x78000 15 12) (s.rfld 0x78000 11 0)
      t.counter key = min (v % 2 ^ 32 + s.cycleAdds key) 0xFFFFFFFF ∧ (∀ i, i ≠ key → t.counter i = s.counter i) ∧
      t = { s with counters := t.counters, counterSat := t.counterSat })

/-- Bytes of an address outside what the narrow view stores in a cycle that begins in `u` (R323, R326 to R328). -/
def Sys2Proof.Claims.outsideNarrow (u : State) (narrow : List NarrowAccess) (x : Nat) : Prop :=
  ∀ (n : NarrowAccess) (bs : List Byte), n ∈ narrow → u.narrowOk n = true → n.store = some bs → x < n.addr ∨ n.addr + bs.length ≤ x

/-- What the narrow reads of a cycle answer: memory as it was before the cycle (R326). -/
def Sys2Proof.Claims.narrowReads (u s : State) (narrow : List NarrowAccess) : List (Nat × List Byte) :=
  (narrow.filter (fun n => u.narrowOk n && n.store.isNone)).map (fun n => (n.addr, s.bytes n.addr 8))

/-- R84, R135, R298, R317, R323, R325, R326, R329, R416: a write that may land does so at its instant: its bytes read as written, its increment
saturates at 0xFFFF_FFFF, a landing counts for its flight, and a DME group whose CLOSE it is closes; one behind an earlier write of its
unit to the same memory, or that waits for another, does not land. Accesses of a bank's narrow view in that cycle read what was there
before it and store where they may; where both views write a byte the wide write stands. No other byte changes. An access that overlaps
a registered range or a chunk under test, or a burst that finds the scoreboard full, waits; a write burst registers. -/
def Sys2Proof.Claims.WritesArrive : Prop :=
  ∀ (s : State) (k : Nat) (w : PendWrite) (narrow : List NarrowAccess),
    let u := s.at w.due
    (s.writes[k]? = some w →
      (writeFree s.writes k = true → Completes (.writeArrival k narrow) s fun t =>
        t.now = max s.now w.due ∧ t.writes = s.writes.eraseIdx k ∧
        (∀ x, (∀ p, p ∈ w.parts → x < p.1 ∨ p.1 + p.2.length ≤ x) → Sys2Proof.Claims.outsideNarrow u narrow x → t.byte x = s.byte x) ∧
        (∀ a bs, w.parts = [(a, bs)] → s.t1Retired = [] → ∀ i b, bs[i]? = some b → t.byte (a + i) = b) ∧
        (∀ n bs, narrow = [n] → u.narrowOk n = true → n.store = some bs → s.t1Retired = [] → ∀ i b, bs[i]? = some b →
          (∀ p, p ∈ w.parts → n.addr + i < p.1 ∨ p.1 + p.2.length ≤ n.addr + i) → t.byte (n.addr + i) = b) ∧
        t.portReads = Sys2Proof.Claims.narrowReads u s narrow ∧
        (∀ i, w.incs = [i] → t.counter i.key = min (s.counter i.key + i.amount) 0xFFFFFFFF ∧ ∀ j, j ≠ i.key → t.counter j = s.counter j) ∧
        (w.incs = [] → t.counters = s.counters) ∧
        (∀ g, w.owner = .gallery g → w.outbound = true → t.gal g = { s.gal g with flight := (s.gal g).flight.map (fun f => { f with nOut := f.nOut + 1 }) } ∧
          OtherGalleries g s t) ∧
        (w.outbound = false → t.galleries = s.galleries) ∧
        t.dme = { s.dme with groups := s.dme.groups.filter (fun p => decide (p.2.closing ≠ some w.id)) } ∧
        t = { s with now := t.now, writes := t.writes, mem := t.mem, marks := t.marks, dir := t.dir, counters := t.counters,
                     counterSat := t.counterSat, cntAdds := t.cntAdds, galleries := t.galleries, dme := t.dme, portReads := t.portReads }) ∧
      ((∃ i v, i < k ∧ s.writes[i]? = some v ∧ v.owner = w.owner ∧ v.mem = w.mem) ∨ (∃ v, v ∈ s.writes ∧ v.id ∈ w.after) →
        NoEffect (.writeArrival k narrow) s)) ∧
    (s.writes.length ≤ k → NoEffect (.writeArrival k narrow) s) ∧
    (∀ m a n write sb, m ≤ 8 → n ≤ 4096 →
      let live := (Tab.get [] s.scoreboard m).filter (fun e => decide (s.now < e.until_))
      let all := live ++ s.testChunk m
      let burst := write = true ∧ 64 ≤ n
      let clear := ∀ e, e ∈ all → ¬ (a < e.addr + e.len ∧ e.addr < a + n)
      (clear → (burst → all.length < 32) → Completes (.scratchpadBurstIssue m a n write sb narrow) s fun t => ∃ done, s.now ≤ done ∧
        Tab.get [] t.scoreboard m = (if burst then live ++ [{ addr := a, len := n, until_ := done }] else live) ∧
        (∀ x, x ≠ m → Tab.get [] t.scoreboard x = Tab.get [] s.scoreboard x) ∧
        t.reg (0x78100 + 4 * m) = (if sb then s.reg (0x78100 + 4 * m) + 1#32 else s.reg (0x78100 + 4 * m)) ∧
        OtherRegisters [0x78100 + 4 * m] s t ∧ (∀ x, Sys2Proof.Claims.outsideNarrow s narrow x → t.byte x = s.byte x) ∧
        t.portReads = Sys2Proof.Claims.narrowReads s s narrow ++ (if write then [] else [(memBase m + a, s.bytes (memBase m + a) n)]) ∧
        (narrow = [] → t.mem = s.mem ∧ t.marks = s.marks ∧ t.dir = s.dir) ∧
        t = { s with bar0 := t.bar0, scoreboard := t.scoreboard, mem := t.mem, marks := t.marks, dir := t.dir, portReads := t.portReads }) ∧
      (¬ clear ∨ (burst ∧ 32 ≤ all.length) → NoEffect (.scratchpadBurstIssue m a n write sb narrow) s))

/-- R8, R286, R335, R337, R341, R343 to R346, R408, R416: a read of the patrol, or an ordinary access, that is corrected counts; one that finds an
uncorrectable line marks it and raises its event; a marked line and an absent address change nothing, and the patrol reads nothing while
it is off or in a chunk under test. A channel that loses its training, or keeps a parity error, is retired. A unit's temperature is held. A
first NVMe error issues the command again, a read's second marks its lines; a command that succeeds counts. A drive is retired when it
is not ready in 10 s or is removed. CXL.mem reads and writes a line of the exposed range. -/
def Sys2Proof.Claims.MemoryTiers : Prop :=
  ∀ s : State,
    (∀ a m access, s.memOf a = some m → (access = none → bit (s.reg 0x9000C) 10 = true ∧ s.underTest m (a - memBase m) 1 = false) →
      s.marked a = false →
      (Completes (.patrolRead a 2 access) s fun t => t.marked a = true ∧ t.reg (0x90104 + 8 * m) = s.reg (0x90104 + 8 * m) + 1#32 ∧
        t.eventSeq ≠ s.eventSeq ∧ t.mem = s.mem ∧ (∀ x, x / 64 ≠ a / 64 → s.marked x = true → t.marked x = true) ∧ t.now = s.now) ∧
      (Completes (.patrolRead a 1 access) s fun t => t.reg (0x90100 + 8 * m) = s.reg (0x90100 + 8 * m) + 1#32 ∧ t.marks = s.marks ∧ t.mem = s.mem ∧
        t.now = s.now) ∧
      NoEffect (.patrolRead a 0 access) s) ∧
    (∀ a r access, s.memOf a = none ∨ s.marked a = true ∨ (access = none ∧ (bit (s.reg 0x9000C) 10 = false ∨
      ∃ m, s.memOf a = some m ∧ s.underTest m (a - memBase m) 1 = true)) → NoEffect (.patrolRead a r access) s) ∧
    (∀ c parity, (c ∈ s.t1Channels → c ∉ s.t1Retired → Completes (.memoryTrainingLost c parity) s fun t => t.t1Retired = s.t1Retired ++ [c] ∧
        t.eventSeq = (s.eventSeq + 1) % 2 ^ 32 ∧ t.mem = s.mem) ∧
      (c ∉ s.t1Channels ∨ c ∈ s.t1Retired → NoEffect (.memoryTrainingLost c parity) s)) ∧
    (∀ mem unit, (mem = 9 ∧ unit ∈ s.hbmStacks) ∨ (mem = 10 ∧ unit ∈ s.t1Channels) → ∀ hot : Bool,
      Completes (.memoryTemperatureReport mem unit hot) s fun t => (16 * mem + unit ∈ t.hotUnits ↔ hot = true) ∧
        (∀ x, x ≠ 16 * mem + unit → (x ∈ t.hotUnits ↔ x ∈ s.hotUnits)) ∧ t = { s with hotUnits := t.hotUnits }) ∧
    (∀ cmd : NvmeCmd, cmd.port ∉ s.drivesRetired →
      (cmd.owner = .firmware → cmd.write = false → s.t1Retired = [] → Completes (.nvmeCompletion cmd false) s fun t =>
        (∀ i, i < 4096 * cmd.blocks → t.byte (cmd.addr + i) = s.t2Byte cmd.vol (4096 * cmd.lba + i)) ∧
        OtherBytes cmd.addr (4096 * cmd.blocks) s t ∧ t.reg 0x90218 = s.reg 0x90218 + BitVec.ofNat 32 (b2n cmd.last) ∧
        OtherRegisters [0x90218] s t) ∧
      (cmd ∉ s.nvmeRetried → Completes (.nvmeCompletion cmd true) s fun t => t.nvmeRetried = s.nvmeRetried ++ [cmd] ∧
        t = { s with nvmeRetried := t.nvmeRetried, driveReset := t.driveReset }) ∧
      (cmd ∈ s.nvmeRetried → cmd.write = false → Completes (.nvmeCompletion cmd true) s fun t => t.nvmeRetried = s.nvmeRetried.erase cmd ∧
        (∀ i, i < 64 * cmd.blocks → t.marked (cmd.addr + 64 * i) = true) ∧ t.eventSeq ≠ s.eventSeq ∧ t.mem = s.mem) ∧
      (Completes (.nvmeCommandTimeout cmd false) s fun t => Tab.find t.driveReset cmd.port = some s.now ∧ t = { s with driveReset := t.driveReset }) ∧
      NoEffect (.nvmeCommandTimeout cmd true) s) ∧
    (∀ p, p ∈ s.drives → p ∉ s.drivesRetired →
      (Completes (.driveRemoved p) s fun t => t.drivesRetired = s.drivesRetired ++ [p] ∧ p ∉ t.drives ∧
        (∀ x, x ≠ p → (x ∈ t.drives ↔ x ∈ s.drives)) ∧ t.eventSeq = (s.eventSeq + 1) % 2 ^ 32) ∧
      (∀ u, Tab.find s.driveReset p = some u → Completes (.driveReadyTimeout p) s fun t => t.now = max s.now (u + sec 10) ∧
        t.drivesRetired = s.drivesRetired ++ [p] ∧ p ∉ t.drives)) ∧
    (∀ p, (p ∉ s.drives ∨ p ∈ s.drivesRetired → NoEffect (.driveRemoved p) s) ∧
      (Tab.find s.driveReset p = none → NoEffect (.driveReadyTimeout p) s)) ∧
    (∀ off : Nat, off % 64 = 0 →
      let a := tier1Base + s.rfld 0x50104 10 0 * gib + off
      (bit (s.reg 0x50108) 8 = true → off < s.rfld 0x50100 16 8 * gib → s.mapped a 64 = true →
        (∀ bs : List Byte, bs.length = 64 → Completes (.cxlMemRequest off (some bs)) s fun t =>
          (s.t1Retired = [] → ∀ i b, bs[i]? = some b → t.byte (a + i) = b) ∧ OtherBytes a 64 s t ∧
          t = { s with mem := t.mem, marks := t.marks, dir := t.dir }) ∧
        (Completes (.cxlMemRequest off none) s fun t => t.lastLine = (if s.marked a then none else some (s.bytes a 64)) ∧
          t = { s with lastLine := t.lastLine })) ∧
      (bit (s.reg 0x50108) 8 = false ∨ s.rfld 0x50100 16 8 * gib ≤ off ∨ s.mapped a 64 = false → ∀ x, NoEffect (.cxlMemRequest off x) s))

/-- At instant `u` link `l` becomes `k`, and nothing else changes. -/
def Sys2Proof.Claims.linkBecomes (l : Nat) (k : Link) (u : Nat) (s t : State) : Prop :=
  t.now = u ∧ t.lnk l = k ∧ (∀ j, j ≠ l → t.lnk j = s.lnk j) ∧ t = { s with now := t.now, links := t.links }

/-- Link `l` is retired for a cause, and carries nothing. -/
def Sys2Proof.Claims.linkRetired (l cause : Nat) (t : State) : Prop :=
  (t.lnk l).state = 5 ∧ (t.lnk l).cause = cause ∧ (t.lnk l).replay = [] ∧ (t.lnk l).greeted = false

/-- Bytes of the message that a flit continues on a virtual channel of a link, with the flit's own. -/
def Sys2Proof.Claims.joined (k : Link) (vc : Nat) (som : Bool) (payload : List Byte) : List Byte :=
  (if som then [] else (k.partials.getD vc none).getD []) ++ payload.take 496

/-- The link after a data flit in sequence, at instant `u`. -/
def Sys2Proof.Claims.flitTaken (k : Link) (vc : Nat) (som eom : Bool) (payload : List Byte) (u : Nat) : Link :=
  let started := som || (k.partials.getD vc none).isSome
  let since := if k.sinceAck + 1 < 32 then k.sinceAck + 1 else 0
  { k with
    expected := (k.expected + 1) % 4096
    naked := false
    rx := k.rx + 1#32
    sinceAck := since
    ackAt := if since = 0 then u else k.ackAt
    lastFlit := u
    rxFreed := k.rxFreed.set vc ((k.rxFreed.getD vc 0 + 1) % 65536)
    partials := k.partials.set vc (if eom = true ∨ started = false then none else some (Sys2Proof.Claims.joined k vc som payload)) }

/-- The message whose header and body are `bs`, received on link `l` (R355). -/
def Sys2Proof.Claims.messageOf (l : Nat) (bs : List Byte) : RxMsg where
  link := l
  kind := tblNum bs 0 1
  flags := tblNum bs 1 1
  dest := tblNum bs 2 2
  src := tblNum bs 4 2
  flow := tblNum bs 6 2
  msgNo := tblNum bs 16 4
  offset := tblNum bs 12 4
  body := bs.drop 24

/-- R348, R350, R352, R353, R355: a link that is not up carries no data. A flit that fails its CRC is discarded with a NAK owed, and the
1,001st failure within 1 s retires the link with cause 1; a flit out of order is discarded with a NAK owed; a flit in order moves the
expected SEQ on and joins its message. A whole message for this package waits to be taken unless it repeats one of its flow's last 64; one
for another package is kept to be sent on. -/
def Sys2Proof.Claims.DataFlits : Prop :=
  ∀ (s : State) (l vc seq : Nat) (som eom : Bool) (payload : List Byte),
    ((s.lnk l).up = false → ∀ ok, NoEffect (.dataFlit l ok vc som eom seq payload) s) ∧
    ((s.lnk l).up = true →
      let k := s.lnk l
      let times := s.now :: k.crcTimes.filter (fun x => decide (s.now ≤ x + sec 1))
      let started := som || (k.partials.getD vc none).isSome
      let k' := Sys2Proof.Claims.flitTaken k vc som eom payload s.now
      let m := Sys2Proof.Claims.messageOf l (Sys2Proof.Claims.joined k vc som payload)
      (times.length ≤ 1000 → Completes (.dataFlit l false vc som eom seq payload) s fun t =>
        Sys2Proof.Claims.linkBecomes l { k with crc := k.crc + 1#32, crcTimes := times, naked := true, lastFlit := s.now } s.now s t) ∧
      (1000 < times.length → Completes (.dataFlit l false vc som eom seq payload) s fun t =>
        Sys2Proof.Claims.linkRetired l 1 t ∧ (t.lnk l).crc = k.crc + 1#32 ∧ t.now = s.now ∧ t.galleries = s.galleries) ∧
      (seq % 4096 ≠ k.expected → Completes (.dataFlit l true vc som eom seq payload) s fun t =>
        Sys2Proof.Claims.linkBecomes l { k with naked := true, lastFlit := s.now } s.now s t) ∧
      (seq % 4096 = k.expected → eom = false ∨ started = false → Completes (.dataFlit l true vc som eom seq payload) s fun t =>
        Sys2Proof.Claims.linkBecomes l k' s.now s t) ∧
      (seq % 4096 = k.expected → eom = true → started = true → 24 ≤ (Sys2Proof.Claims.joined k vc som payload).length →
        m.body.length = tblNum (Sys2Proof.Claims.joined k vc som payload) 8 4 → m.body.length ≤ 65536 → m.kind ≠ 0 → m.kind ≤ 4 →
        Completes (.dataFlit l true vc som eom seq payload) s fun t =>
          (m.kind = 3 → t.lnk l = k' ∧ t.fabIn = s.fabIn ++ [m] ∧ t.flows = s.flows) ∧
          (m.kind ≠ 3 → m.kind = 4 ∨ m.dest = s.pkgId →
            let f := Tab.get { last := [], begun := false } s.flows (flowKey m.kind m.src m.flow m.dest)
            t.lnk l = k' ∧ t.fabIn = (if m.msgNo ∈ f.last then s.fabIn else s.fabIn ++ [m]) ∧
            (m.msgNo ∉ f.last → Tab.get { last := [], begun := false } t.flows (flowKey m.kind m.src m.flow m.dest) =
              { last := (m.msgNo :: f.last).take 64, begun := !(m.flags.testBit 0) }) ∧
            (m.msgNo ∈ f.last → t.flows = s.flows)) ∧
          (m.kind ≠ 3 → m.kind ≠ 4 → m.dest ≠ s.pkgId → t.fabIn = s.fabIn ∧ t.flows = s.flows ∧
            ∃ x, x ∈ t.fabOut ∧ x.kind = m.kind ∧ x.dest = m.dest ∧ x.src = m.src ∧ x.flow = m.flow ∧ x.msgNo = m.msgNo ∧ x.body = m.body) ∧
          (t.lnk l).expected = (k.expected + 1) % 4096 ∧
          t = { s with links := t.links, fabIn := t.fabIn, flows := t.flows, fabOut := t.fabOut, nextId := t.nextId, trees := t.trees }))

/-- R349 to R352: ACK empties the replay buffer up to its SEQ and ends the run of resends; NAK resends, the eighth resend of a SEQ without
an ACK being the last, after which the link is retired with cause 0; CREDIT sets what the peer has freed on a virtual channel. Each does
nothing on a link that is not alive, and ACK and NAK nothing for a SEQ that the replay buffer does not hold. -/
def Sys2Proof.Claims.LinkControlRecords : Prop :=
  ∀ (s : State) (l seq : Nat),
    let k := s.lnk l
    let known := k.replay.any (fun f => decide (f.seq = seq % 4096))
    let run := if k.resendSeq = seq % 4096 then k.resends else 0
    (k.alive = true →
      (∀ i, k.replay.findIdx? (fun f => decide (f.seq = seq % 4096)) = some i → Completes (.ack l seq) s fun t =>
        (∃ more, (t.lnk l).replay = k.replay.drop (i + 1) ++ more) ∧ (t.lnk l).resends = 0 ∧ (t.lnk l).lastFlit = s.now ∧
        (t.lnk l).state = k.state ∧
        t = { s with links := t.links, fabOut := t.fabOut, nextId := t.nextId, trees := t.trees }) ∧
      (known = true → run < 8 → Completes (.nak l seq) s fun t =>
        Sys2Proof.Claims.linkBecomes l { k with resendSeq := seq % 4096, resends := run + 1, replays := k.replays + 1#32, lastFlit := s.now }
          s.now s t) ∧
      (known = true → 8 ≤ run → Completes (.nak l seq) s fun t =>
        Sys2Proof.Claims.linkRetired l 0 t ∧ t.now = s.now ∧ t.galleries = s.galleries) ∧
      (∀ vc n, vc ≤ 2 → Completes (.credit l vc n) s fun t =>
        (t.lnk l).freed = k.freed.set vc (n % 65536) ∧ (t.lnk l).lastFlit = s.now ∧ (t.lnk l).state = k.state ∧
        t = { s with links := t.links, fabOut := t.fabOut, nextId := t.nextId, trees := t.trees })) ∧
    (k.alive = false ∨ known = false → NoEffect (.ack l seq) s ∧ NoEffect (.nak l seq) s) ∧
    (∀ vc n, k.alive = false ∨ 2 < vc → NoEffect (.credit l vc n) s)

/-- What a link is after a HELLO of package `pkg` with a domain, an incarnation and a link number (R353). -/
def Sys2Proof.Claims.greeted (s : State) (l : Nat) (oneLane clash : Bool) (pkg domain inc plink : Nat) (t : State) : Prop :=
  (t.lnk l).peer = pkg % 4096 ∧ (t.lnk l).peerDomain = domain % 2 ^ 32 ∧ (t.lnk l).peerInc = inc % 65536 ∧ (t.lnk l).peerLink = plink % 128 ∧
  (t.lnk l).greeted = true ∧
  (t.lnk l).state = (if s.pkgId = 0xFFF ∨ pkg % 4096 = 0xFFF ∨ domain % 2 ^ 32 ≠ (s.reg 0x80004).toNat ∨ pkg % 4096 = s.pkgId ∨ clash = true then 4
    else if oneLane = true then 3 else 2)

/-- R353, R356, R357: HELLO says who is at the other end, and the link is isolated or up by R353's cases; RESET ends the incarnation it
names: the peer is no member, its receive windows are closed and its links wait isolated for a new HELLO. Neither does anything on a link
that is not alive; a RESET of an incarnation that is no member's only counts as a flit. -/
def Sys2Proof.Claims.HelloAndReset : Prop :=
  ∀ (s : State) (l pkg inc : Nat),
    let k := s.lnk l
    (k.alive = true →
      (∀ domain plink, Completes (.hello l pkg domain inc plink) s fun t =>
        Sys2Proof.Claims.greeted s l k.oneLane k.clash pkg domain inc plink t ∧ t.now = s.now ∧ t.galleries = s.galleries) ∧
      (Tab.find s.members (pkg % 4096) ≠ some (inc % 65536) → Completes (.reset l pkg inc) s fun t =>
        Sys2Proof.Claims.linkBecomes l { k with lastFlit := s.now } s.now s t) ∧
      (Tab.find s.members (pkg % 4096) = some (inc % 65536) → Tab.wf Link.reset s.links = true → Completes (.reset l pkg inc) s fun t =>
        Tab.find t.members (pkg % 4096) = none ∧
        (∀ flow, flow < 65536 → Tab.find t.windows (65536 * (pkg % 4096) + flow) = none) ∧
        (∀ j, (s.lnk j).alive = true → (s.lnk j).peer = pkg % 4096 → (t.lnk j).state = 4 ∧ (t.lnk j).greeted = false) ∧
        t.now = s.now ∧ t.galleries = s.galleries)) ∧
    (k.alive = false → NoEffect (.reset l pkg inc) s ∧ ∀ domain plink, NoEffect (.hello l pkg domain inc plink) s)

/-- R350, R352, R353, R356, R373: the ACK timer and the HELLO timer of a live link run out at their instants and start again. A link silent
for 2 µs is down and trains anew; at more than four trainings within 60 s it is retired with cause 2. Training that ends on 1 or 2 lanes
brings the link up or isolates it by the HELLO; the third failure in a row retires it with cause 3, an earlier one leaves it down for a
retry 1 s later. -/
def Sys2Proof.Claims.LinkTimersAndTraining : Prop :=
  ∀ (s : State) (l : Nat),
    let k := s.lnk l
    let silent := max s.now (k.lastFlit + us 2)
    let times := silent :: k.retrainTimes.filter (fun x => decide (silent ≤ x + sec 60))
    (k.alive = true →
      (Completes (.ackTimer l) s fun t =>
        Sys2Proof.Claims.linkBecomes l { k with sinceAck := 0, ackAt := t.now } (max s.now (k.ackAt + us 1)) s t) ∧
      (Completes (.helloTimer l) s fun t =>
        Sys2Proof.Claims.linkBecomes l { k with lastHello := t.now } (max s.now (k.lastHello + us 100)) s t) ∧
      (Completes (.linkSilenceTimeout l) s fun t => t.now = silent ∧ (t.lnk l).retrainTimes = times ∧ (t.lnk l).trainAt = silent ∧
        (t.lnk l).replay = [] ∧ (t.lnk l).greeted = false ∧
        (times.length ≤ 4 → (t.lnk l).state = 1 ∧ (t.lnk l).cause = k.cause) ∧
        (4 < times.length → (t.lnk l).state = 5 ∧ (t.lnk l).cause = 2) ∧ t.galleries = s.galleries)) ∧
    (k.alive = false → NoEffect (.ackTimer l) s ∧ NoEffect (.helloTimer l) s ∧ NoEffect (.linkSilenceTimeout l) s) ∧
    (k.state = 0 → l < 96 → s.borderOut (l / 48) = false → Completes (.linkTrainingRetry l) s fun t =>
      Sys2Proof.Claims.linkBecomes l { k with state := 1, trainAt := t.now } (max s.now (k.trainAt + sec 1)) s t) ∧
    (k.state ≠ 0 ∨ 96 ≤ l ∨ s.borderOut (l / 48) = true → NoEffect (.linkTrainingRetry l) s) ∧
    (∀ lanes pkg domain inc plink,
      (k.state = 1 → l < 96 →
        (lanes = 1 ∨ lanes = 2 → Completes (.linkTrainingEnd l lanes pkg domain inc plink) s fun t =>
          Sys2Proof.Claims.greeted s l (decide (lanes = 1)) false pkg domain inc plink t ∧ (t.lnk l).expected = 0 ∧ (t.lnk l).trainFails = 0 ∧
          t.now = s.now ∧ t.galleries = s.galleries) ∧
        (lanes ≠ 1 → lanes ≠ 2 → k.trainFails < 2 → Completes (.linkTrainingEnd l lanes pkg domain inc plink) s fun t =>
          Sys2Proof.Claims.linkBecomes l { k with state := 0, trainFails := k.trainFails + 1, trainAt := s.now } s.now s t) ∧
        (lanes ≠ 1 → lanes ≠ 2 → 2 ≤ k.trainFails → Completes (.linkTrainingEnd l lanes pkg domain inc plink) s fun t =>
          (t.lnk l).state = 5 ∧ (t.lnk l).cause = 3 ∧ (t.lnk l).trainFails = 0 ∧ t.eventSeq = (s.eventSeq + 1) % 2 ^ 32 ∧
          (∀ j, j ≠ l → t.lnk j = s.lnk j) ∧ t.now = s.now ∧ t.galleries = s.galleries)) ∧
      (k.state ≠ 1 ∨ 96 ≤ l → NoEffect (.linkTrainingEnd l lanes pkg domain inc plink) s))

/-- R352: REENABLE from the management function trains the selected link when it is retired and not held; HOLD retires it with cause 4 and
holds it down, whatever state it was in; another function's write changes nothing. -/
def Sys2Proof.Claims.LinkReenableAndHold : Prop :=
  ∀ (s : State) (fn : Nat),
    let l := s.rfld 0x80010 6 0
    let k := s.lnk l
    (s.isMgmt fn = true → k.state = 5 → k.hold = false → Completes (.linkReenable fn) s fun t =>
      Sys2Proof.Claims.linkBecomes l { k with state := 1, trainFails := 0, trainAt := s.now } s.now s t) ∧
    (k.state ≠ 5 ∨ k.hold = true → NoEffect (.linkReenable fn) s) ∧
    (s.isMgmt fn = true → l < 96 → k.state = 5 → Completes (.linkHold fn) s fun t =>
      Sys2Proof.Claims.linkBecomes l { k with hold := true } s.now s t) ∧
    (s.isMgmt fn = true → l < 96 → k.state ≠ 5 → Completes (.linkHold fn) s fun t =>
      Sys2Proof.Claims.linkRetired l 4 t ∧ (t.lnk l).hold = true ∧ t.now = s.now ∧ t.galleries = s.galleries ∧
      (Tab.wf Link.reset s.links = true → s.members = [] → (∀ j, j ≠ l → (s.lnk j).up = false) → t.eventSeq = (s.eventSeq + 1) % 2 ^ 32)) ∧
    (96 ≤ l → NoEffect (.linkHold fn) s) ∧
    (s.isMgmt fn = false → NoEffect (.linkReenable fn) s ∧ NoEffect (.linkHold fn) s)

/-- R353, R354: every 1 ms an advert goes out on each link that is up, under the next sequence number. A received advert that is not newer
than the one kept is discarded; a newer one of a package that is no member yet is kept; one that another package floods under this
package's number isolates the link it came on. -/
def Sys2Proof.Claims.Adverts : Prop :=
  ∀ s : State,
    (Completes .advertTimer s fun t => t.now = max s.now (s.advertAt + us 1000) ∧ t.advertAt = t.now ∧ t.advertSeq = s.advertSeq + 1 ∧
      (∀ l, (s.lnk l).up = true → ∃ m, m ∈ t.fabOut ∧ m.kind = 3 ∧ m.link = some l ∧ m.src = s.pkgId ∧ m.dest = (s.lnk l).peer ∧
        m.msgNo = s.advertSeq + 1) ∧ t.members = s.members ∧ t.galleries = s.galleries ∧ t.mem = s.mem ∧ t.bar0 = s.bar0) ∧
    (∀ pkg inc seq links slots,
      (∀ m, s.fabIn.find? (fun m => decide (m.kind = 3)) = some m →
        (pkg = s.pkgId → inc = s.incarnation → seq ≤ s.advertSeq → Completes (.advert pkg inc seq links slots) s fun t =>
          t = { s with fabIn := s.fabIn.erase m }) ∧
        (pkg = s.pkgId → inc ≠ s.incarnation → Completes (.advert pkg inc seq links slots) s fun t => t.fabIn = s.fabIn.erase m ∧
          (t.lnk m.link).clash = true ∧ ((s.lnk m.link).alive = true → (t.lnk m.link).state = 4) ∧ t.now = s.now ∧ t.galleries = s.galleries) ∧
        (∀ a, pkg ≠ s.pkgId → Tab.find s.adverts pkg = some a → inc < a.inc ∨ (inc = a.inc ∧ seq ≤ a.seq) →
          Completes (.advert pkg inc seq links slots) s fun t => t = { s with fabIn := s.fabIn.erase m }) ∧
        (pkg ≠ s.pkgId → Tab.find s.members pkg = none → (∀ a, Tab.find s.adverts pkg = some a → a.inc < inc ∨ (inc = a.inc ∧ a.seq < seq)) →
          Completes (.advert pkg inc seq links slots) s fun t => t.fabIn = s.fabIn.erase m ∧
            Tab.find t.adverts pkg = some { inc := inc, seq := seq, links := links, slots := slots } ∧ t.now = s.now ∧ t.galleries = s.galleries)) ∧
      (s.fabIn.find? (fun m => decide (m.kind = 3)) = none → NoEffect (.advert pkg inc seq links slots) s))

/-- R355, R358: the oldest WRITE is dropped and counted when its flow has no window or its bytes leave it; else its body, and no other byte,
is written and the window's counter counts. MAIL opens and closes receive windows and carries heartbeats. The next message of a tree is
dropped unless it came from the parent, waits while a child edge has no credit, and else goes down every child edge. -/
def Sys2Proof.Claims.FabricMessages : Prop :=
  ∀ s : State,
    (∀ m, s.fabIn.find? (fun m => decide (m.kind = 1)) = some m →
      ((∀ w, Tab.find s.windows (65536 * m.src + m.flow) = some w → w.len < m.offset + m.body.length) → ∀ x, Completes (.write x) s fun t =>
        t.reg 0x8002C = s.reg 0x8002C + 1#32 ∧ OtherRegisters [0x8002C] s t ∧ t = { s with fabIn := s.fabIn.erase m, bar0 := t.bar0 }) ∧
      (∀ w, Tab.find s.windows (65536 * m.src + m.flow) = some w → m.offset + m.body.length ≤ w.len → Completes (.write none) s fun t =>
        (s.t1Retired = [] → ∀ i b, m.body[i]? = some b → t.byte (w.base + m.offset + i) = b) ∧
        OtherBytes (w.base + m.offset) m.body.length s t ∧
        t.counter w.counter = min (s.counter w.counter + 1) 0xFFFFFFFF ∧ (∀ j, j ≠ w.counter → t.counter j = s.counter j) ∧
        t = { s with fabIn := s.fabIn.erase m, mem := t.mem, marks := t.marks, dir := t.dir, counters := t.counters, counterSat := t.counterSat })) ∧
    (s.fabIn.find? (fun m => decide (m.kind = 1)) = none → ∀ x, NoEffect (.write x) s) ∧
    (∀ m, s.fabIn.find? (fun m => decide (m.kind = 2)) = some m →
      (∀ flow base len counter, Completes (.mail (.openWindow flow base len counter)) s fun t =>
        Tab.find t.windows (65536 * m.src + flow % 65536) = some { base := base, len := len, counter := counter } ∧
        (∀ x, x ≠ 65536 * m.src + flow % 65536 → Tab.find t.windows x = Tab.find s.windows x) ∧
        t = { s with fabIn := s.fabIn.erase m, windows := t.windows }) ∧
      (∀ flow, Completes (.mail (.closeWindow flow)) s fun t => Tab.find t.windows (65536 * m.src + flow % 65536) = none ∧
        (∀ x, x ≠ 65536 * m.src + flow % 65536 → Tab.find t.windows x = Tab.find s.windows x) ∧
        t = { s with fabIn := s.fabIn.erase m, windows := t.windows }) ∧
      (Completes (.mail .other) s fun t => t = { s with fabIn := s.fabIn.erase m }) ∧
      (∀ stream, (s.stream stream).state = .prefill → (s.stream stream).remote = true → (s.stream stream).peer = m.src →
        Completes (.mail (.prefillEnd stream)) s fun t => t.fabIn = s.fabIn.erase m ∧ t.mem = s.mem ∧
          (if s.allPages stream (s.stream stream).positions then
            t.stream stream = { s.stream stream with remote := false, work := { (s.stream stream).work with peerDone := false } }
          else t.stream stream = { s.stream stream with work := { (s.stream stream).work with peerDone := true } }) ∧
          (∀ x, x ≠ stream → t.stream x = s.stream x))) ∧
    (s.fabIn.find? (fun m => decide (m.kind = 2)) = none → ∀ mail, NoEffect (.mail mail) s) ∧
    (∀ m, s.fabIn.find? (fun m => decide (m.kind = 4) && decide (m.msgNo = (s.tree m.dest).next)) = some m →
      (s.treeRole m.dest m.link ≠ 1 → Completes .bcast s fun t => t = { s with fabIn := s.fabIn.erase m }) ∧
      (s.treeRole m.dest m.link = 1 → (∃ p, p ∈ s.treeLinks m.dest ∧ (s.lnk p.2).credit 2 = 0) → NoEffect .bcast s) ∧
      (s.treeRole m.dest m.link = 1 → (∀ p, p ∈ s.treeLinks m.dest → (s.lnk p.2).credit 2 ≠ 0) →
        (∀ p, p ∈ s.loads → p.2.source = 2 → p.2.tree = m.dest → s.stagingFull p.2 = false) → Completes .bcast s fun t =>
        t.fabIn = s.fabIn.erase m ∧ (t.tree m.dest).next = (if m.flags.testBit 0 = true then 0 else (s.tree m.dest).next + 1) ∧
        (∀ p, p ∈ s.treeLinks m.dest → ∃ x, x ∈ t.fabOut ∧ x.kind = 4 ∧ x.link = some p.2 ∧ x.dest = m.dest ∧ x.msgNo = m.msgNo ∧ x.body = m.body))) ∧
    (s.fabIn.find? (fun m => decide (m.kind = 4) && decide (m.msgNo = (s.tree m.dest).next)) = none → NoEffect .bcast s)

/-- Offsets of BAR0 that every function has a copy of, or that reach the ring it has selected: they have no row in the register table. -/
def Sys2Proof.Claims.hostRange (o : Nat) : Bool :=
  decide (0x50000 ≤ o ∧ o < 0x50020) || decide (0x57F00 ≤ o ∧ o < 0x60000) || o == 0xA100C || o == 0xB0000

/-- Plain RW registers of a gallery window: offset and the bits that software writes. -/
def Sys2Proof.Claims.plainGal : List (Nat × Word) :=
  [(0x08, 0x3#32), (0x0C, 0x3FF03FF#32), (0x20, 0xFFFFFFFF#32), (0x40, 0x77777#32), (0x60, 0x30F#32), (0x80, 0xFFFFFF#32), (0x9C, 0x1F#32)]

/-- Plain shared RW registers: offset, the bits that software writes, and whether the management function alone does. -/
def Sys2Proof.Claims.plainMain : List (Nat × Word × Bool) :=
  [(0x1C, 0xFFFFFFFF#32, false), (0xA4000, 0xF0FFF#32, false), (0xA500C, 0x1FFFF#32, false), (0x98000, 0x1FFFFF#32, false),
   (0xA6000, 0xFFF#32, false), (0xA6004, 0xFFFF#32, false), (0xA6010, 0x1FFF#32, false), (0x78000, 0xFFFF#32, false),
   (0x40008, 0xFFFF0000#32, false), (0x50104, 0x7FF#32, true), (0x80010, 0x7F#32, true), (0x80100, 0xFF#32, true), (0x90200, 0x77#32, true),
   (0x40010, 0xFF#32, true), (0xC0004, 0xFFFFFFFF#32, true), (0xC0008, 0xFFFFFFFF#32, true), (0xC0010, 0xFFFFFFFF#32, true)]

/-- Only the shared register at offset `o` changes, to `v`. -/
def Sys2Proof.Claims.regBecomes (o : Nat) (v : Word) (s t : State) : Prop :=
  t.reg o = v ∧ OtherRegisters [o] s t ∧ t = { s with bar0 := t.bar0 }

/-- Only the private registers of function `fn` change, to `f`. -/
def Sys2Proof.Claims.fnBecomes (fn : Nat) (f : FnRegs) (s t : State) : Prop :=
  t.fn fn = f ∧ (∀ i, i ≠ fn → t.fn i = s.fn i) ∧ t = { s with fns := t.fns }

/-- R11, R127, R279, R280, R282, R435: a register write changes nothing when it is not an aligned access of 32 or 64 bits, comes from a function
that is absent or not in D0, names a reserved offset, is the management function's alone and comes from a service function, or lies in
the block of a hall left out, in the window of a retired gallery, or at GAL_CORR_STATUS, whose SUSPECT the host does not clear. -/
def Sys2Proof.Claims.RegisterWritesIgnored : Prop :=
  ∀ (s : State) (fn o v : Nat),
    (∀ width, (width ≠ 4 ∨ o % 4 ≠ 0) → (width ≠ 8 ∨ o % 8 ≠ 0) → NoEffect (.registerWrite fn o v width) s) ∧
    (s.fnPresent fn = false → ∀ width, NoEffect (.registerWrite fn o v width) s) ∧
    ((s.fn fn).d3hot = true → ∀ width, NoEffect (.registerWrite fn o v width) s) ∧
    (regDef o = none → Sys2Proof.Claims.hostRange o = false → NoEffect (.registerWrite fn o v 4) s) ∧
    (mgmtOnly o = true → s.isMgmt fn = false → NoEffect (.registerWrite fn o v 4) s) ∧
    (s.hallGone o = true → NoEffect (.registerWrite fn o v 4) s) ∧
    (∀ k w, k < 4096 → w < 256 → (s.gal k).retired = true ∨ w = 0x64 → NoEffect (.registerWrite fn (galReg k w) v 4) s)

/-- R11, R97, R131, R282, R435: a plain RW register takes the bits that software writes and keeps the others; GAL_BUDGET_WAITED and the fault bit of
GAL_DRIVE clear where a 1 is written. RING_SEL, SNAP_VIEW and NVLOG_ADDR change for the writing function alone. A 64-bit write acts as two
32-bit ones, the lower address first. -/
def Sys2Proof.Claims.RegisterWritesTake : Prop :=
  ∀ (s : State) (fn v : Nat), s.fnPresent fn = true →
    let x := BitVec.ofNat 32 v
    (∀ o s1, o % 8 = 0 → exec (.registerWrite fn o v 4) s = .next s1 →
      exec (.registerWrite fn o v 8) s = exec (.registerWrite fn (o + 4) (v / 2 ^ 32) 4) s1) ∧
    (∀ k, k < 4096 → (s.gal k).retired = false → s.hallGone (galReg k 0) = false →
      (∀ p, p ∈ Sys2Proof.Claims.plainGal → Completes (.registerWrite fn (galReg k p.1) v 4) s
        (Sys2Proof.Claims.regBecomes (galReg k p.1) ((s.reg (galReg k p.1) &&& ~~~ p.2) ||| (x &&& p.2)) s)) ∧
      (Completes (.registerWrite fn (galReg k 0x2C) v 4) s
        (Sys2Proof.Claims.regBecomes (galReg k 0x2C) (s.reg (galReg k 0x2C) &&& ~~~ (x &&& 0xF#32)) s)) ∧
      (Completes (.registerWrite fn (galReg k 0x44) v 4) s
        (Sys2Proof.Claims.regBecomes (galReg k 0x44)
          (((s.reg (galReg k 0x44) &&& ~~~ 0x3#32) ||| (x &&& 0x3#32)) &&& ~~~ (x &&& 0x400#32)) s))) ∧
    (∀ p, p ∈ Sys2Proof.Claims.plainMain → p.2.2 = false ∨ s.isMgmt fn = true → Completes (.registerWrite fn p.1 v 4) s
      (Sys2Proof.Claims.regBecomes p.1 ((s.reg p.1 &&& ~~~ p.2.1) ||| (x &&& p.2.1)) s)) ∧
    (Completes (.registerWrite fn 0x50000 v 4) s (Sys2Proof.Claims.fnBecomes fn { s.fn fn with ringSel := x &&& 0x1FFF#32 } s)) ∧
    (Completes (.registerWrite fn 0xA100C v 4) s (Sys2Proof.Claims.fnBecomes fn { s.fn fn with snapView := x &&& 1#32 } s)) ∧
    (Completes (.registerWrite fn 0xB0000 v 4) s (Sys2Proof.Claims.fnBecomes fn { s.fn fn with nvAddr := x &&& 0x3FFFFC#32 } s))

/-- R282, R283, R296: the base of the selected ring is written by the function it is bound to and only while the ring is disabled. A word
of the MSI-X table is the writing function's own; one that unmasks a vector whose pending bit is set sends its message and clears the
bit. -/
def Sys2Proof.Claims.RingAndVectorWrites : Prop :=
  ∀ (s : State) (fn v : Nat), s.fnPresent fn = true →
    let x := BitVec.ofNat 32 v
    let n := fld (s.fn fn).ringSel 12 0
    let r := s.ring n
    (r.fn = fn → r.enabled = false →
      (Completes (.registerWrite fn 0x50004 v 4) s fun t => t.ring n = { r with baseLo := x } ∧ Sys2Proof.Claims.otherRings n s t ∧
        t = { s with rings := t.rings }) ∧
      (Completes (.registerWrite fn 0x50008 v 4) s fun t => t.ring n = { r with baseHi := x } ∧ Sys2Proof.Claims.otherRings n s t ∧
        t = { s with rings := t.rings })) ∧
    (r.fn ≠ fn ∨ r.enabled = true → NoEffect (.registerWrite fn 0x50004 v 4) s ∧ NoEffect (.registerWrite fn 0x50008 v 4) s) ∧
    (∀ vec, vec < 2048 →
      let f := s.fn fn
      let due := bit (Tab.get 0#32 f.pba (vec / 32)) (vec % 32)
      (Completes (.registerWrite fn (0x58000 + 16 * vec + 8) v 4) s fun t => (t.fn fn).msixWord (4 * vec + 2) = x ∧
        (∀ i, i ≠ 4 * vec + 2 → (t.fn fn).msixWord i = f.msixWord i) ∧ (t.fn fn).pba = f.pba ∧ (∀ i, i ≠ fn → t.fn i = s.fn i) ∧
        t = { s with fns := t.fns }) ∧
      (v % 2 = 1 ∨ due = false → Completes (.registerWrite fn (0x58000 + 16 * vec + 12) v 4) s fun t =>
        bit ((t.fn fn).msixWord (4 * vec + 3)) 0 = decide (v % 2 = 1) ∧ (t.fn fn).pba = f.pba ∧ (∀ i, i ≠ fn → t.fn i = s.fn i) ∧
        t = { s with fns := t.fns }) ∧
      (v % 2 = 0 → due = true → Completes (.registerWrite fn (0x58000 + 16 * vec + 12) v 4) s fun t =>
        bit ((t.fn fn).msixWord (4 * vec + 3)) 0 = false ∧ bit (Tab.get 0#32 (t.fn fn).pba (vec / 32)) (vec % 32) = false ∧
        t.hostMem = putBytes s.hostMem (fn / 2 * 2 ^ 64 + ((f.msixWord (4 * vec)).toNat + (f.msixWord (4 * vec + 1)).toNat * 2 ^ 32))
          (natLE 4 (f.msixWord (4 * vec + 2)).toNat) ∧
        (∀ i, i ≠ fn → t.fn i = s.fn i) ∧ t = { s with fns := t.fns, hostMem := t.hostMem }))

/-- R387, R438: a read of NVLOG_DATA gives the word at the function's NVLOG_ADDR and moves it on by a word, from the last word to the first; a
read of TB_LO gives bits [31:0] of the time base and latches bits [63:32] for TB_HI. -/
def Sys2Proof.Claims.ReadsWithEffects : Prop :=
  ∀ (s : State) (fn : Nat),
    (s.fnPresent fn = true →
      let w := fld (s.fn fn).nvAddr 21 2
      Completes (.nvlogDataRead fn) s fun t => t.lastRead.toNat = s.nvLE (4 * w) 4 ∧
        fld (t.fn fn).nvAddr 21 2 = (if w = 2 ^ 20 - 1 then 0 else w + 1) ∧ (t.fn fn).ringSel = (s.fn fn).ringSel ∧
        (∀ i, i ≠ fn → t.fn i = s.fn i) ∧ t = { s with lastRead := t.lastRead, fns := t.fns }) ∧
    (s.fnPresent fn = false → NoEffect (.nvlogDataRead fn) s) ∧
    (Completes .tbLoRead s fun t => t.lastRead.toNat = s.time.toNat % 2 ^ 32 ∧ t.tbHi.toNat = s.time.toNat / 2 ^ 32 ∧
      t.readReg fn 0x2000C = t.tbHi ∧ t = { s with lastRead := t.lastRead, tbHi := t.tbHi })

/-- R426: SNAPSHOT asks for INSTANT, or with RELATIVE for the time of acceptance plus INSTANT; with reserved bytes zero it is accepted only when
that lies 2 µs to 1 s after acceptance, and otherwise ends with ACCESS_FAULT; while a snapshot is pending another ends with
NO_CAPACITY. -/
def Sys2Proof.Claims.SnapshotAccepted : Prop :=
  ∀ (s : State) (e : SubEntry), e.opcode = 0x30 → s.isMgmt (s.ring e.sq).fn = true → (∀ i, 1 ≤ i → i < 8 → e.byte i = if i = 1 then e.byte 1 % 2 else 0) →
    (∀ i, 26 ≤ i → i < 64 → e.byte i = 0) →
    let u := (if bit e.bytes 192 = true then s.time.toNat else 0) + e.num 16 23
    (e.byte 24 < 2 → e.byte 25 = 0 →
      (u < s.time.toNat + 2000 ∨ s.time.toNat + 1000000000 < u → Completes (.snapshot e) s fun t => t = s.complete e stAccessFault 0) ∧
      (s.time.toNat + 2000 ≤ u → u ≤ s.time.toNat + 1000000000 → s.snapDue = none → Completes (.snapshot e) s fun t =>
        t = { s with snapDue := some (e, u) }) ∧
      (s.time.toNat + 2000 ≤ u → u ≤ s.time.toNat + 1000000000 → s.snapDue.isSome = true → Completes (.snapshot e) s fun t =>
        t = s.complete e stNoCapacity 0)) ∧
    (2 ≤ e.byte 24 ∨ e.byte 25 ≠ 0 → Completes (.snapshot e) s fun t => t = s.complete e stAccessFault 0)

/-- R427, R428: at its instant a pending snapshot latches every latching register, takes the next EPOCH, which goes from 0xFFFF to 1, and
completes with it. While VIEW is 1 a function reads the latched bits of a register, and its other bits live; with VIEW 0, or before
the first snapshot, it reads the live register. -/
def Sys2Proof.Claims.SnapshotLatchesAndViews : Prop :=
  ∀ s : State,
    (s.snapDue = none → NoEffect .snapshotLatch s) ∧
    (∀ e u, s.snapDue = some (e, u) → Completes .snapshotLatch s fun t => ∃ s1 : State,
      let epoch := if s.lastEpoch = 0xFFFF then 1 else s.lastEpoch + 1
      t = s1.complete e stOk epoch ∧ s1.now = max s.now (s.tbStart.getD 0 + ns u) ∧ s1.snapDue = none ∧ s1.lastEpoch = epoch ∧
      (∃ p : Snap, s1.snap = some p ∧ p.epoch = epoch ∧ p.instant = BitVec.ofNat 64 u ∧ p.regs = ({ s with now := s1.now } : State).latched) ∧
      s1 = { s with now := s1.now, snapDue := none, lastEpoch := epoch, snap := s1.snap }) ∧
    (∀ o, o ∈ latchAll → (o < 0x8001C ∨ 0x8002C ≤ o) → Tab.get 0#32 s.latched o = s.liveRead 0 o &&& latchMask o) ∧
    (∀ fn o, (s.snap = none ∨ bit (s.fn fn).snapView 0 = false → s.readReg fn o = s.liveRead fn o) ∧
      (∀ p, s.snap = some p → bit (s.fn fn).snapView 0 = true →
        s.readReg fn o &&& latchMask o = Tab.get 0#32 p.regs (s.latchKey o) &&& latchMask o ∧
        s.readReg fn o &&& ~~~ (latchMask o) = s.liveRead fn o &&& ~~~ (latchMask o)))

/-- R421, R422: the step of a stream in DECODE or PREFILL with no job in an attention engine is replayed from its first layer: its count of
replays saturates at 65,535, FLT_REPLAYS counts it and STREAM_REPLAY is raised; a stream that keeps no key-value tables changes in nothing
else. In any other state nothing happens, nor for a gallery fault while every matrix has its wide copy or a suspect gallery still holds one
that has none. -/
def Sys2Proof.Claims.StepReplays : Prop :=
  ∀ (s : State) (st cause layer : Nat),
    let x := s.stream st
    ((x.state = .decode ∨ x.state = .prefill) → s.jobsOf st = false → s.replays x.context cause = true →
      Completes (.stepReplay st cause layer) s fun t => (t.stream st).work.replays = min 65535 (x.work.replays + 1) ∧
        Sys2Proof.Claims.otherStreams st s t ∧ t.reg 0xA001C = s.reg 0xA001C + 1#32 ∧ OtherRegisters [0xA001C, 0x20] s t ∧
        t.eventSeq = (s.eventSeq + 1) % 2 ^ 32 ∧ (t.stream st).generated = x.generated ∧ t.now = s.now ∧ t.galleries = s.galleries ∧
        (x.kvDir = 0 → t.mem = s.mem ∧ t.kvUsed = s.kvUsed ∧ t.fetches = s.fetches ∧
          t.stream st = { x with work := { x.work with replays := min 65535 (x.work.replays + 1), layer := 0 } })) ∧
    ((x.state ≠ .decode ∧ x.state ≠ .prefill) ∨ s.jobsOf st = true ∨ s.replays x.context cause = false ∨
      (cause = 0 ∧ (s.noWide x.context = [] ∨ s.noWideSuspect x.context = true)) → NoEffect (.stepReplay st cause layer) s)

/-- A step takes the command at the front of the queue and runs it on the state with the queue's rest. -/
def Sys2Proof.Claims.StepRunsFrontCommand : Prop :=
  ∀ (s : State) (c : Instr) (rest : List Instr), step { s with pending := c :: rest } = exec c { s with pending := rest }

/-- The model's choice (log 1): on an empty queue the block idles, and the model's clock advances by one tick of 1/12 ns. -/
def Sys2Proof.Claims.EmptyQueueIdles : Prop :=
  ∀ s : State, s.pending = [] → step s = .next { s with now := s.now + 1 }

/-- Every command completes in every state, but for a sparse-engine descriptor whose OP the spec leaves undefined (R149): posting that one is
refused. No command faults. -/
def Sys2Proof.Claims.EveryCommandCompletes : Prop :=
  ∀ (c : Instr) (s : State),
    ((∀ desc task p, c = .speDescriptorPost desc task p → 1 ≤ dnum desc 0 0 ∧ dnum desc 0 0 ≤ 6) → ∃ t, exec c s = .next t) ∧
    (∀ desc task p, c = .speDescriptorPost desc task p → dnum desc 0 0 = 0 ∨ 7 ≤ dnum desc 0 0 → exec c s = .refused .undefinedSpeDescriptor)

/-- No command touches the queue of waiting commands: a step that answers a next state has taken exactly the front one. -/
def Sys2Proof.Claims.QueueInOrder : Prop :=
  (∀ (c : Instr) (s t : State), exec c s = .next t → t.pending = s.pending) ∧
  (∀ s t : State, step s = .next t → t.pending = s.pending.tail)

/-- Every step keeps the canonical forms: of device memory, of its marks and counters, of the bytes written to the host, of the NV log region,
and of the tables of registers, galleries, rings and arrays. -/
def Sys2Proof.Claims.StepKeepsInvariant : Prop := ∀ s t : State, s.Inv → step s = .next t → t.Inv

/-- The state after reset has every canonical form, and its queue is empty. -/
def Sys2Proof.Claims.ResetInvariant : Prop := State.reset.Inv ∧ State.reset.pending = []

/-- No step moves the model's clock back. -/
def Sys2Proof.Claims.ClockNeverBack : Prop := ∀ s t : State, step s = .next t → s.now ≤ t.now

/-- R11, R67, R97, R131, R209, R362, R364, R387: right after reset the registers read the values of their tables; every gallery sleeps with no
flight, and no ring is enabled. -/
def Sys2Proof.Claims.ResetRegisters : Prop :=
  (∀ k, k < 4096 →
    State.reset.reg (galReg k 0x08) = 0x2#32 ∧ State.reset.reg (galReg k 0x0C) = 0xA0001#32 ∧ State.reset.reg (galReg k 0x20) = 0xA320A14#32 ∧
    State.reset.reg (galReg k 0x40) = 0x55443#32 ∧ State.reset.reg (galReg k 0x44) = 0x3#32 ∧ State.reset.reg (galReg k 0x60) = 0x104#32 ∧
    State.reset.reg (galReg k 0x80) = 0xA0E96#32 ∧ (State.reset.gal k).power = .deep ∧ (State.reset.gal k).flight = none) ∧
  State.reset.reg 0x10000 = 0x201#32 ∧ State.reset.reg 0x10008 = 0x101#32 ∧ State.reset.reg 0x1001C = 0xFF#32 ∧ State.reset.reg 0x20004 = 0x320#32 ∧
  (∀ n, (State.reset.ring n).enabled = false) ∧ (∀ fn, State.reset.fn fn = FnRegs.reset) ∧ State.reset.pkg = 1

/-- R23: an S8 byte decodes by its exponent and mantissa; the smallest nonzero scale is 2^-17, the smallest normal one 2^-14, the largest
61,440; exponent 31 is poison; and every other value converts exactly to binary32. -/
def Sys2Proof.Claims.ScaleDecoding : Prop :=
  ∀ b : Byte,
    let e := b.toNat / 8
    let m := b.toNat % 8
    (e = 31 ↔ S8.isPoison b = true) ∧ (S8.isPoison b = true ↔ 0xF8 ≤ b.toNat) ∧
    (e = 0 → m = 0 → S8.toRat b = 0) ∧ (e = 0 → 1 ≤ m → S8.toRat b = (m : Rat) / 8 / 16384) ∧
    (1 ≤ e → e ≤ 15 → S8.toRat b = (1 + (m : Rat) / 8) / 2 ^ (15 - e)) ∧
    (15 ≤ e → e ≤ 30 → S8.toRat b = (1 + (m : Rat) / 8) * 2 ^ (e - 15)) ∧
    (S8.isPoison b = false → F32.toRat (S8.toF32 b) = S8.toRat b ∧ S8.toRat b ≤ 61440 ∧ (b ≠ 0#8 → 1 / 131072 ≤ S8.toRat b)) ∧
    S8.toRat 0x01#8 = 1 / 131072 ∧ S8.toRat 0x08#8 = 1 / 16384 ∧ S8.toRat 0xF7#8 = 61440

/-! ### The obligations -/

/-- O1. BRANCH_ROUTE, SLEEP, GAP, GAP_END, FENCE and LOOP steps move a flight as their rules say. The model's own choices that it rests
on: log 19. -/
def Obligations.ControlFlowSteps : Prop :=
  Sys2Proof.Claims.ControlFlowSteps ∧ Sys2Proof.Claims.LoopStep

/-- O2. A loop body runs COUNT + 1 times and then the flight goes on past it. -/
def Obligations.LoopBodyRunsCountPlusOne : Prop :=
  Sys2Proof.Claims.LoopBodyRunsCountPlusOne

/-- O3. WAKE and ARM_REF steps, their arrival at the target gallery, and the timed power events of a gallery. The model's own choices that
it rests on: log 16, 19. -/
def Obligations.PowerSteps : Prop :=
  Sys2Proof.Claims.PowerSteps ∧ Sys2Proof.Claims.PowerStepArrives ∧ Sys2Proof.Claims.PowerEvents

/-- O4. WAIT waits for its counter or times out with its flight; SIGNAL sends its increment. The model's own choices that it rests on: log
19. -/
def Obligations.WaitAndSignalSteps : Prop :=
  Sys2Proof.Claims.WaitStep ∧ Sys2Proof.Claims.WaitTimeoutEndsFlight ∧ Sys2Proof.Claims.SignalStep

/-- O5. STAGE loads its slot, EVAL builds its passes, CARRY loads its segment and adds the carry passes. The model's own choices that it
rests on: log 14, 19, 44. -/
def Obligations.StageEvalAndCarrySteps : Prop :=
  Sys2Proof.Claims.StageStep ∧ Sys2Proof.Claims.EvalStep ∧ Sys2Proof.Claims.CarrySteps

/-- O6. A launch starts a flight or waits, HALT ends it with its record, a re-run starts it again. The model's own choices that it rests
on: log 19, 20. -/
def Obligations.FlightStartsAndEnds : Prop :=
  Sys2Proof.Claims.FlightLaunch ∧ Sys2Proof.Claims.HaltStep ∧ Sys2Proof.Claims.RerunSteps

/-- O7. A sequencer mismatch re-runs the flight and then makes the gallery suspect; the budgets start anew each period. The model's own
choices that it rests on: log 1, 19. -/
def Obligations.ComparatorAndBudgets : Prop :=
  Sys2Proof.Claims.ComparatorDifference ∧ Sys2Proof.Claims.BudgetPeriod

/-- O8. A pass opens its window and converts every column it serves. The model's own choices that it rests on: log 2, 8, 12. -/
def Obligations.PassesConvert : Prop :=
  Sys2Proof.Claims.PassOpens ∧ Sys2Proof.Claims.PassCodes

/-- O9. Residual sums and results of an EVAL come ready, and CLOSE sends a finished group. The model's own choices that it rests on: log
9, 11, 14, 19, 44, 46, 50. -/
def Obligations.EvaluationsClose : Prop :=
  Sys2Proof.Claims.EvalResults ∧ Sys2Proof.Claims.CloseStep

/-- O10. LAND waits for its results and adds them to its group. The model's own choices that it rests on: log 10, 19. -/
def Obligations.LandStep : Prop :=
  Sys2Proof.Claims.LandStep

/-- O11. CHAIN sends partial sums to the next gallery, whose inbox takes them in order. The model's own choices that it rests on: log 16,
19, 44. -/
def Obligations.ChainedPartials : Prop :=
  Sys2Proof.Claims.ChainStep ∧ Sys2Proof.Claims.PartialArrival

/-- O12. Survey units, focus time-outs, age limits, initial surveys and margin evaluations. The model's own choices that it rests on: log
22, 26, 27, 49. -/
def Obligations.SurveysAndMargins : Prop :=
  Sys2Proof.Claims.SurveySteps ∧ Sys2Proof.Claims.InitialSurveyAndMargins

/-- O13. Scrub units, touch-up of rows and scan units run within their budgets. The model's own choices that it rests on: log 23, 24, 25,
41, 48. -/
def Obligations.ScrubTouchUpAndScan : Prop :=
  Sys2Proof.Claims.ScrubAndTouchup ∧ Sys2Proof.Claims.ScanSteps

/-- O14. Diagnostics retire what failed, stopped processors are left out, steps are replayed. The model's own choices that it rests on:
log 41, 50. -/
def Obligations.FaultsAndReplays : Prop :=
  Sys2Proof.Claims.DiagnosisSteps ∧ Sys2Proof.Claims.ProcessorSteps ∧ Sys2Proof.Claims.StepReplays

/-- O15. The seven tests of the test engine start, are refused and end. The model's own choices that it rests on: log 41. -/
def Obligations.TestEngine : Prop :=
  Sys2Proof.Claims.TestEngineSteps

/-- O16. The always-on domain powers up and starts waking. The model's own choices that it rests on: log 39. -/
def Obligations.PowerUpSteps : Prop :=
  Sys2Proof.Claims.PowerUpSteps

/-- O17. Rails come up in order, fail, retry and go down in order. The model's own choices that it rests on: log 39. -/
def Obligations.RegulatorsAndRails : Prop :=
  Sys2Proof.Claims.RegulatorSteps ∧ Sys2Proof.Claims.RailsGoDown

/-- O18. The wake steps follow each other to READY, each with its failures. The model's own choices that it rests on: log 39. -/
def Obligations.WakeStepsToReady : Prop :=
  Sys2Proof.Claims.WakeStepsToReady

/-- O19. A hand-over stops the work, writes its journal and leaves the package in HOLDUP. The model's own choices that it rests on: log
39. -/
def Obligations.HandoverSteps : Prop :=
  Sys2Proof.Claims.HandoverSteps

/-- O20. Sideband reads, and the events of ports, clocks and supplies. The model's own choices that it rests on: log 39. -/
def Obligations.SidebandAndClocks : Prop :=
  Sys2Proof.Claims.SidebandReads ∧ Sys2Proof.Claims.SupplyAndClockSteps

/-- O21. Telemetry converters queue requests and convert by their formulas. The model's own choices that it rests on: log 40. -/
def Obligations.ConvertersConvert : Prop :=
  Sys2Proof.Claims.ConverterRequests ∧ Sys2Proof.Claims.ConversionResult

/-- O22. Calibration commands, converter scans and cross-checks. The model's own choices that it rests on: log 40. -/
def Obligations.CalibrationAndCrosschecks : Prop :=
  Sys2Proof.Claims.CalibrationCommands ∧ Sys2Proof.Claims.ScansAndCrosschecks

/-- O23. The thermal model, its throttle, its shutdown and the inlet. The model's own choices that it rests on: log 40. -/
def Obligations.ThermalModel : Prop :=
  Sys2Proof.Claims.ThermalModel

/-- O24. The two queues of the DME: who fills them, their depth and the order jobs run in. The model's own choices that it rests on: log
28. -/
def Obligations.DmeQueues : Prop :=
  Sys2Proof.Claims.DmeQueues

/-- O25. A DME job is checked whole, computes its elements and writes its output. The model's own choices that it rests on: log 28. -/
def Obligations.DmeJobs : Prop :=
  Sys2Proof.Claims.DmeJobs

/-- O26. The FALLBACK command, the live streams of a saturated context, and the trigger of a suspect gallery. The model's own choices that
it rests on: log 29. -/
def Obligations.Fallback : Prop :=
  Sys2Proof.Claims.FallbackCommandAndStep ∧ Sys2Proof.Claims.FallbackTrigger

/-- O27. Sparse descriptors wait, run their operation and write their record. The model's own choices that it rests on: log 30. -/
def Obligations.SparseEngine : Prop :=
  Sys2Proof.Claims.SpeGatherScatter ∧ Sys2Proof.Claims.SpeReductions

/-- O28. An atlas load is checked and takes its image, or ends with the status its failure has. The model's own choices that it rests on:
log 26, 32. -/
def Obligations.AtlasImageArrives : Prop :=
  Sys2Proof.Claims.AtlasImageArrives

/-- O29. Programming windows open and close, arrays are programmed, loads complete, and what each leaves alone. The model's own choices
that it rests on: log 25, 26, 32. -/
def Obligations.AtlasProgramsAndCompletes : Prop :=
  Sys2Proof.Claims.AtlasProgramsAndCompletes ∧ Sys2Proof.Claims.AtlasFrames

/-- O30. Attention jobs queue, are checked and become units. The model's own choices that it rests on: log 33, 34. -/
def Obligations.AttentionQueueAndUnits : Prop :=
  Sys2Proof.Claims.AttentionQueue ∧ Sys2Proof.Claims.AttentionJobsFormUnits

/-- O31. An attention unit takes its pages and its job ends with its rows and record. The model's own choices that it rests on: log 33. -/
def Obligations.AttentionUnitRuns : Prop :=
  Sys2Proof.Claims.AttentionUnitRuns

/-- O32. Pages of the key-value store are fetched, promoted and spilled. The model's own choices that it rests on: log 33. -/
def Obligations.PageFetchAndSpill : Prop :=
  Sys2Proof.Claims.PageFetchAndSpill

/-- O33. A stream is parked into one slot range, resumed from it, or expires. The model's own choices that it rests on: log 33, 34. -/
def Obligations.ParkAndResume : Prop :=
  Sys2Proof.Claims.ParkAndResume

/-- O34. Commands on streams: open, continue, cancel, close, query, read tokens. The model's own choices that it rests on: log 34, 37. -/
def Obligations.StreamCommands : Prop :=
  Sys2Proof.Claims.StreamOpenAndContinue ∧ Sys2Proof.Claims.StreamCommands

/-- O35. Mirrored streams log, beat, check-point and are taken over. The model's own choices that it rests on: log 34, 35. -/
def Obligations.StreamMirroring : Prop :=
  Sys2Proof.Claims.StreamMirroring

/-- O36. The scheduler starts prefill and decode, and the sampler draws the next token. The model's own choices that it rests on: log 34.
-/
def Obligations.SchedulerAndSampler : Prop :=
  Sys2Proof.Claims.SchedulerAndSampler

/-- O37. Profiles, tokenisers and unloading of a context. The model's own choices that it rests on: log 34. -/
def Obligations.ContextCommands : Prop :=
  Sys2Proof.Claims.ContextCommands

/-- O38. Doorbells move a ring tail; entries are fetched in order, re-read and the ring parked. The model's own choices that it rests on:
log 37. -/
def Obligations.DoorbellsAndFetches : Prop :=
  Sys2Proof.Claims.DoorbellsAndFetches

/-- O39. Rings are enabled, disabled and reset; a completed command writes its record. The model's own choices that it rests on: log 18,
37. -/
def Obligations.RingsAndCompletions : Prop :=
  Sys2Proof.Claims.RingSetUpAndReset ∧ Sys2Proof.Claims.CommandCompletes

/-- O40. Host lines the device holds and device lines the host holds. The model's own choices that it rests on: log 5, 37. -/
def Obligations.CoherentLines : Prop :=
  Sys2Proof.Claims.CoherentLines

/-- O41. DMA channels are posted, checked, fetch their chain and end with a record. The model's own choices that it rests on: log 38. -/
def Obligations.DmaChannels : Prop :=
  Sys2Proof.Claims.DmaChannelsStart ∧ Sys2Proof.Claims.DmaChainAndRecord

/-- O42. COPY, FILL, FENCE and SIGNAL descriptors do what their fields say. The model's own choices that it rests on: log 38. -/
def Obligations.DmaDescriptorsRun : Prop :=
  Sys2Proof.Claims.DmaDescriptorsRun

/-- O43. Response timeouts, engine enable and disable, and counter writes. The model's own choices that it rests on: log 38, 44. -/
def Obligations.DmaTimeoutsAndEnables : Prop :=
  Sys2Proof.Claims.DmaTimeoutsAndEnables

/-- O44. A write in flight lands at its instant, in order, with its increment. The model's own choices that it rests on: log 15, 16, 38,
44. -/
def Obligations.WritesArrive : Prop :=
  Sys2Proof.Claims.WritesArrive

/-- O45. Patrol reads, channel retirement, NVMe commands, drives and CXL.mem. The model's own choices that it rests on: log 36. -/
def Obligations.MemoryTiers : Prop :=
  Sys2Proof.Claims.MemoryTiers

/-- O46. Data flits are taken in order, discarded, or retire their link; whole messages wait to be taken. The model's own choices that it
rests on: log 35. -/
def Obligations.DataFlits : Prop :=
  Sys2Proof.Claims.DataFlits

/-- O47. ACK, NAK, CREDIT, HELLO and RESET records. The model's own choices that it rests on: log 35. -/
def Obligations.LinkRecordsAndPeers : Prop :=
  Sys2Proof.Claims.LinkControlRecords ∧ Sys2Proof.Claims.HelloAndReset

/-- O48. Timers of a link, its training, retirement, HOLD and REENABLE. The model's own choices that it rests on: log 35. -/
def Obligations.LinksOverTime : Prop :=
  Sys2Proof.Claims.LinkTimersAndTraining ∧ Sys2Proof.Claims.LinkReenableAndHold

/-- O49. Adverts, WRITE, MAIL and broadcast messages. The model's own choices that it rests on: log 35. -/
def Obligations.FabricMessages : Prop :=
  Sys2Proof.Claims.Adverts ∧ Sys2Proof.Claims.FabricMessages

/-- O50. Which register writes are ignored, and what the others leave. The model's own choices that it rests on: log 42. -/
def Obligations.RegisterWrites : Prop :=
  Sys2Proof.Claims.RegisterWritesIgnored ∧ Sys2Proof.Claims.RegisterWritesTake

/-- O51. Writes of ring bases and MSI-X words, and reads with an effect. The model's own choices that it rests on: log 18, 42. -/
def Obligations.VectorsAndReads : Prop :=
  Sys2Proof.Claims.RingAndVectorWrites ∧ Sys2Proof.Claims.ReadsWithEffects

/-- O52. When SNAPSHOT is accepted, and how it ends otherwise. -/
def Obligations.SnapshotAccepted : Prop :=
  Sys2Proof.Claims.SnapshotAccepted

/-- O53. A snapshot latches every latching register at its instant, and VIEW shows the latched set. The model's own choices that it rests
on: log 42. -/
def Obligations.SnapshotLatchesAndViews : Prop :=
  Sys2Proof.Claims.SnapshotLatchesAndViews

/-- O54. A step runs the command at the front of the queue with the rest of the queue. The model's own choices that it rests on: log 1. -/
def Obligations.StepRunsFrontCommand : Prop :=
  Sys2Proof.Claims.StepRunsFrontCommand

/-- O55. Every command completes in every state, but for a sparse descriptor of an undefined OP. The model's own choices that it rests on: log
30. -/
def Obligations.EveryCommandCompletes : Prop :=
  Sys2Proof.Claims.EveryCommandCompletes

/-- O56. No command touches the queue: each step takes exactly the front command. -/
def Obligations.QueueInOrder : Prop :=
  Sys2Proof.Claims.QueueInOrder

/-- O57. Every step keeps the canonical forms of memory, registers and tables. The model's own choices that it rests on: log 4. -/
def Obligations.StepKeepsInvariant : Prop :=
  Sys2Proof.Claims.StepKeepsInvariant

/-- O58. The clock of the model never goes back, and on an empty queue it advances by a tick. The model's own choices that it rests on:
log 1. -/
def Obligations.ClockRunsForward : Prop :=
  Sys2Proof.Claims.EmptyQueueIdles ∧ Sys2Proof.Claims.ClockNeverBack

/-- O59. Right after reset: canonical forms, an empty queue, and the reset values of the register tables. The model's own choices that it
rests on: log 3. -/
def Obligations.ResetState : Prop :=
  Sys2Proof.Claims.ResetInvariant ∧ Sys2Proof.Claims.ResetRegisters

/-- O60. An S8 byte decodes to zero, a subnormal, a normal value or poison, exactly in binary32. -/
def Obligations.ScaleDecoding : Prop :=
  Sys2Proof.Claims.ScaleDecoding
end

