-- ==== Sys2Proof/Laws/State.lean ====
section
/-! SUPPORT. What each named update of the state leaves in each field: one lemma per field and update, all by definition. -/

namespace Sys2Proof.Machine

/-! ### at -/

@[simp] theorem State.at_pending (s : State) (t : Nat) : (s.at t).pending = s.pending := rfl
@[simp] theorem State.at_now (s : State) (t : Nat) : (s.at t).now = max s.now t := rfl
@[simp] theorem State.at_free (s : State) (t : Nat) : (s.at t).free = s.free := rfl
@[simp] theorem State.at_nextId (s : State) (t : Nat) : (s.at t).nextId = s.nextId := rfl
@[simp] theorem State.at_bar0 (s : State) (t : Nat) : (s.at t).bar0 = s.bar0 := rfl
@[simp] theorem State.at_fns (s : State) (t : Nat) : (s.at t).fns = s.fns := rfl
@[simp] theorem State.at_lastRead (s : State) (t : Nat) : (s.at t).lastRead = s.lastRead := rfl
@[simp] theorem State.at_rings (s : State) (t : Nat) : (s.at t).rings = s.rings := rfl
@[simp] theorem State.at_accepted (s : State) (t : Nat) : (s.at t).accepted = s.accepted := rfl
@[simp] theorem State.at_eventSeq (s : State) (t : Nat) : (s.at t).eventSeq = s.eventSeq := rfl
@[simp] theorem State.at_held (s : State) (t : Nat) : (s.at t).held = s.held := rfl
@[simp] theorem State.at_heldLost (s : State) (t : Nat) : (s.at t).heldLost = s.heldLost := rfl
@[simp] theorem State.at_hostMem (s : State) (t : Nat) : (s.at t).hostMem = s.hostMem := rfl
@[simp] theorem State.at_mem (s : State) (t : Nat) : (s.at t).mem = s.mem := rfl
@[simp] theorem State.at_marks (s : State) (t : Nat) : (s.at t).marks = s.marks := rfl
@[simp] theorem State.at_counters (s : State) (t : Nat) : (s.at t).counters = s.counters := rfl
@[simp] theorem State.at_counterSat (s : State) (t : Nat) : (s.at t).counterSat = s.counterSat := rfl
@[simp] theorem State.at_writes (s : State) (t : Nat) : (s.at t).writes = s.writes := rfl
@[simp] theorem State.at_engines (s : State) (t : Nat) : (s.at t).engines = s.engines := rfl
@[simp] theorem State.at_galleries (s : State) (t : Nat) : (s.at t).galleries = s.galleries := rfl
@[simp] theorem State.at_partials (s : State) (t : Nat) : (s.at t).partials = s.partials := rfl
@[simp] theorem State.at_powerSteps (s : State) (t : Nat) : (s.at t).powerSteps = s.powerSteps := rfl
@[simp] theorem State.at_cells (s : State) (t : Nat) : (s.at t).cells = s.cells := rfl
@[simp] theorem State.at_arrays (s : State) (t : Nat) : (s.at t).arrays = s.arrays := rfl
@[simp] theorem State.at_nv (s : State) (t : Nat) : (s.at t).nv = s.nv := rfl
@[simp] theorem State.at_dme (s : State) (t : Nat) : (s.at t).dme = s.dme := rfl
@[simp] theorem State.at_spe (s : State) (t : Nat) : (s.at t).spe = s.spe := rfl
@[simp] theorem State.at_contexts (s : State) (t : Nat) : (s.at t).contexts = s.contexts := rfl
@[simp] theorem State.at_coreSlow (s : State) (t : Nat) : (s.at t).coreSlow = s.coreSlow := rfl
@[simp] theorem State.at_lastMargin (s : State) (t : Nat) : (s.at t).lastMargin = s.lastMargin := rfl
@[simp] theorem State.at_windowOpen (s : State) (t : Nat) : (s.at t).windowOpen = s.windowOpen := rfl
@[simp] theorem State.at_progActive (s : State) (t : Nat) : (s.at t).progActive = s.progActive := rfl
@[simp] theorem State.at_progWait (s : State) (t : Nat) : (s.at t).progWait = s.progWait := rfl
@[simp] theorem State.at_progHall (s : State) (t : Nat) : (s.at t).progHall = s.progHall := rfl
@[simp] theorem State.at_vprogAt (s : State) (t : Nat) : (s.at t).vprogAt = s.vprogAt := rfl
@[simp] theorem State.at_vprogOff (s : State) (t : Nat) : (s.at t).vprogOff = s.vprogOff := rfl
@[simp] theorem State.at_lastWear (s : State) (t : Nat) : (s.at t).lastWear = s.lastWear := rfl
@[simp] theorem State.at_loads (s : State) (t : Nat) : (s.at t).loads = s.loads := rfl
@[simp] theorem State.at_attQueue (s : State) (t : Nat) : (s.at t).attQueue = s.attQueue := rfl
@[simp] theorem State.at_attRuns (s : State) (t : Nat) : (s.at t).attRuns = s.attRuns := rfl
@[simp] theorem State.at_attBusy (s : State) (t : Nat) : (s.at t).attBusy = s.attBusy := rfl
@[simp] theorem State.at_kvCache (s : State) (t : Nat) : (s.at t).kvCache = s.kvCache := rfl
@[simp] theorem State.at_fetches (s : State) (t : Nat) : (s.at t).fetches = s.fetches := rfl
@[simp] theorem State.at_kvUsed (s : State) (t : Nat) : (s.at t).kvUsed = s.kvUsed := rfl
@[simp] theorem State.at_parks (s : State) (t : Nat) : (s.at t).parks = s.parks := rfl
@[simp] theorem State.at_tokenisers (s : State) (t : Nat) : (s.at t).tokenisers = s.tokenisers := rfl
@[simp] theorem State.at_tokWait (s : State) (t : Nat) : (s.at t).tokWait = s.tokWait := rfl
@[simp] theorem State.at_profileCmd (s : State) (t : Nat) : (s.at t).profileCmd = s.profileCmd := rfl
@[simp] theorem State.at_prefillTurn (s : State) (t : Nat) : (s.at t).prefillTurn = s.prefillTurn := rfl
@[simp] theorem State.at_lastBeat (s : State) (t : Nat) : (s.at t).lastBeat = s.lastBeat := rfl
@[simp] theorem State.at_streams (s : State) (t : Nat) : (s.at t).streams = s.streams := rfl
@[simp] theorem State.at_mgmtPort (s : State) (t : Nat) : (s.at t).mgmtPort = s.mgmtPort := rfl
@[simp] theorem State.at_boot (s : State) (t : Nat) : (s.at t).boot = s.boot := rfl
@[simp] theorem State.at_bootGiven (s : State) (t : Nat) : (s.at t).bootGiven = s.bootGiven := rfl
@[simp] theorem State.at_orphans (s : State) (t : Nat) : (s.at t).orphans = s.orphans := rfl
@[simp] theorem State.at_hostLines (s : State) (t : Nat) : (s.at t).hostLines = s.hostLines := rfl
@[simp] theorem State.at_dir (s : State) (t : Nat) : (s.at t).dir = s.dir := rfl
@[simp] theorem State.at_scoreboard (s : State) (t : Nat) : (s.at t).scoreboard = s.scoreboard := rfl
@[simp] theorem State.at_hbmStacks (s : State) (t : Nat) : (s.at t).hbmStacks = s.hbmStacks := rfl
@[simp] theorem State.at_t1Channels (s : State) (t : Nat) : (s.at t).t1Channels = s.t1Channels := rfl
@[simp] theorem State.at_t1ChannelBytes (s : State) (t : Nat) : (s.at t).t1ChannelBytes = s.t1ChannelBytes := rfl
@[simp] theorem State.at_t1Retired (s : State) (t : Nat) : (s.at t).t1Retired = s.t1Retired := rfl
@[simp] theorem State.at_tbStart (s : State) (t : Nat) : (s.at t).tbStart = s.tbStart := rfl
@[simp] theorem State.at_fabOut (s : State) (t : Nat) : (s.at t).fabOut = s.fabOut := rfl
@[simp] theorem State.at_fabNo (s : State) (t : Nat) : (s.at t).fabNo = s.fabNo := rfl
@[simp] theorem State.at_links (s : State) (t : Nat) : (s.at t).links = s.links := rfl
@[simp] theorem State.at_adverts (s : State) (t : Nat) : (s.at t).adverts = s.adverts := rfl
@[simp] theorem State.at_advertSeq (s : State) (t : Nat) : (s.at t).advertSeq = s.advertSeq := rfl
@[simp] theorem State.at_advertAt (s : State) (t : Nat) : (s.at t).advertAt = s.advertAt := rfl
@[simp] theorem State.at_members (s : State) (t : Nat) : (s.at t).members = s.members := rfl
@[simp] theorem State.at_fabIn (s : State) (t : Nat) : (s.at t).fabIn = s.fabIn := rfl
@[simp] theorem State.at_windows (s : State) (t : Nat) : (s.at t).windows = s.windows := rfl
@[simp] theorem State.at_flows (s : State) (t : Nat) : (s.at t).flows = s.flows := rfl
@[simp] theorem State.at_treeMap (s : State) (t : Nat) : (s.at t).treeMap = s.treeMap := rfl
@[simp] theorem State.at_trees (s : State) (t : Nat) : (s.at t).trees = s.trees := rfl
@[simp] theorem State.at_ueTimes (s : State) (t : Nat) : (s.at t).ueTimes = s.ueTimes := rfl
@[simp] theorem State.at_ceTimes (s : State) (t : Nat) : (s.at t).ceTimes = s.ceTimes := rfl
@[simp] theorem State.at_ceSince (s : State) (t : Nat) : (s.at t).ceSince = s.ceSince := rfl
@[simp] theorem State.at_ceLast (s : State) (t : Nat) : (s.at t).ceLast = s.ceLast := rfl
@[simp] theorem State.at_retirePending (s : State) (t : Nat) : (s.at t).retirePending = s.retirePending := rfl
@[simp] theorem State.at_t2Vol (s : State) (t : Nat) : (s.at t).t2Vol = s.t2Vol := rfl
@[simp] theorem State.at_t2Mem (s : State) (t : Nat) : (s.at t).t2Mem = s.t2Mem := rfl
@[simp] theorem State.at_drives (s : State) (t : Nat) : (s.at t).drives = s.drives := rfl
@[simp] theorem State.at_drivesRetired (s : State) (t : Nat) : (s.at t).drivesRetired = s.drivesRetired := rfl
@[simp] theorem State.at_tier2 (s : State) (t : Nat) : (s.at t).tier2 = s.tier2 := rfl
@[simp] theorem State.at_nvmeRetried (s : State) (t : Nat) : (s.at t).nvmeRetried = s.nvmeRetried := rfl
@[simp] theorem State.at_driveReset (s : State) (t : Nat) : (s.at t).driveReset = s.driveReset := rfl
@[simp] theorem State.at_hotUnits (s : State) (t : Nat) : (s.at t).hotUnits = s.hotUnits := rfl
@[simp] theorem State.at_lastLine (s : State) (t : Nat) : (s.at t).lastLine = s.lastLine := rfl
@[simp] theorem State.at_power (s : State) (t : Nat) : (s.at t).power = s.power := rfl
@[simp] theorem State.at_tmons (s : State) (t : Nat) : (s.at t).tmons = s.tmons := rfl
@[simp] theorem State.at_thermal (s : State) (t : Nat) : (s.at t).thermal = s.thermal := rfl
@[simp] theorem State.at_diags (s : State) (t : Nat) : (s.at t).diags = s.diags := rfl
@[simp] theorem State.at_test (s : State) (t : Nat) : (s.at t).test = s.test := rfl
@[simp] theorem State.at_snapDue (s : State) (t : Nat) : (s.at t).snapDue = s.snapDue := rfl
@[simp] theorem State.at_snap (s : State) (t : Nat) : (s.at t).snap = s.snap := rfl
@[simp] theorem State.at_lastEpoch (s : State) (t : Nat) : (s.at t).lastEpoch = s.lastEpoch := rfl
@[simp] theorem State.at_mpBeat (s : State) (t : Nat) : (s.at t).mpBeat = s.mpBeat := rfl
@[simp] theorem State.at_tbHi (s : State) (t : Nat) : (s.at t).tbHi = s.tbHi := rfl
@[simp] theorem State.at_staged (s : State) (t : Nat) : (s.at t).staged = s.staged := rfl
@[simp] theorem State.at_speHold (s : State) (t : Nat) : (s.at t).speHold = s.speHold := rfl
@[simp] theorem State.at_prefillJobs (s : State) (t : Nat) : (s.at t).prefillJobs = s.prefillJobs := rfl
@[simp] theorem State.at_unloads (s : State) (t : Nat) : (s.at t).unloads = s.unloads := rfl
@[simp] theorem State.at_l2 (s : State) (t : Nat) : (s.at t).l2 = s.l2 := rfl
@[simp] theorem State.at_fetchRing (s : State) (t : Nat) : (s.at t).fetchRing = s.fetchRing := rfl
@[simp] theorem State.at_fetchTaken (s : State) (t : Nat) : (s.at t).fetchTaken = s.fetchTaken := rfl
@[simp] theorem State.at_portReads (s : State) (t : Nat) : (s.at t).portReads = s.portReads := rfl
@[simp] theorem State.at_cntAdds (s : State) (t : Nat) : (s.at t).cntAdds = s.cntAdds := rfl
@[simp] theorem State.at_tbDiffs (s : State) (t : Nat) : (s.at t).tbDiffs = s.tbDiffs := rfl

/-! ### setReg -/

@[simp] theorem State.setReg_pending (s : State) (o : Nat) (v : Word) : (s.setReg o v).pending = s.pending := rfl
@[simp] theorem State.setReg_now (s : State) (o : Nat) (v : Word) : (s.setReg o v).now = s.now := rfl
@[simp] theorem State.setReg_free (s : State) (o : Nat) (v : Word) : (s.setReg o v).free = s.free := rfl
@[simp] theorem State.setReg_nextId (s : State) (o : Nat) (v : Word) : (s.setReg o v).nextId = s.nextId := rfl
@[simp] theorem State.setReg_bar0 (s : State) (o : Nat) (v : Word) : (s.setReg o v).bar0 = Tab.set (regReset o) s.bar0 o v := rfl
@[simp] theorem State.setReg_fns (s : State) (o : Nat) (v : Word) : (s.setReg o v).fns = s.fns := rfl
@[simp] theorem State.setReg_lastRead (s : State) (o : Nat) (v : Word) : (s.setReg o v).lastRead = s.lastRead := rfl
@[simp] theorem State.setReg_rings (s : State) (o : Nat) (v : Word) : (s.setReg o v).rings = s.rings := rfl
@[simp] theorem State.setReg_accepted (s : State) (o : Nat) (v : Word) : (s.setReg o v).accepted = s.accepted := rfl
@[simp] theorem State.setReg_eventSeq (s : State) (o : Nat) (v : Word) : (s.setReg o v).eventSeq = s.eventSeq := rfl
@[simp] theorem State.setReg_held (s : State) (o : Nat) (v : Word) : (s.setReg o v).held = s.held := rfl
@[simp] theorem State.setReg_heldLost (s : State) (o : Nat) (v : Word) : (s.setReg o v).heldLost = s.heldLost := rfl
@[simp] theorem State.setReg_hostMem (s : State) (o : Nat) (v : Word) : (s.setReg o v).hostMem = s.hostMem := rfl
@[simp] theorem State.setReg_mem (s : State) (o : Nat) (v : Word) : (s.setReg o v).mem = s.mem := rfl
@[simp] theorem State.setReg_marks (s : State) (o : Nat) (v : Word) : (s.setReg o v).marks = s.marks := rfl
@[simp] theorem State.setReg_counters (s : State) (o : Nat) (v : Word) : (s.setReg o v).counters = s.counters := rfl
@[simp] theorem State.setReg_counterSat (s : State) (o : Nat) (v : Word) : (s.setReg o v).counterSat = s.counterSat := rfl
@[simp] theorem State.setReg_writes (s : State) (o : Nat) (v : Word) : (s.setReg o v).writes = s.writes := rfl
@[simp] theorem State.setReg_engines (s : State) (o : Nat) (v : Word) : (s.setReg o v).engines = s.engines := rfl
@[simp] theorem State.setReg_galleries (s : State) (o : Nat) (v : Word) : (s.setReg o v).galleries = s.galleries := rfl
@[simp] theorem State.setReg_partials (s : State) (o : Nat) (v : Word) : (s.setReg o v).partials = s.partials := rfl
@[simp] theorem State.setReg_powerSteps (s : State) (o : Nat) (v : Word) : (s.setReg o v).powerSteps = s.powerSteps := rfl
@[simp] theorem State.setReg_cells (s : State) (o : Nat) (v : Word) : (s.setReg o v).cells = s.cells := rfl
@[simp] theorem State.setReg_arrays (s : State) (o : Nat) (v : Word) : (s.setReg o v).arrays = s.arrays := rfl
@[simp] theorem State.setReg_nv (s : State) (o : Nat) (v : Word) : (s.setReg o v).nv = s.nv := rfl
@[simp] theorem State.setReg_dme (s : State) (o : Nat) (v : Word) : (s.setReg o v).dme = s.dme := rfl
@[simp] theorem State.setReg_spe (s : State) (o : Nat) (v : Word) : (s.setReg o v).spe = s.spe := rfl
@[simp] theorem State.setReg_contexts (s : State) (o : Nat) (v : Word) : (s.setReg o v).contexts = s.contexts := rfl
@[simp] theorem State.setReg_coreSlow (s : State) (o : Nat) (v : Word) : (s.setReg o v).coreSlow = s.coreSlow := rfl
@[simp] theorem State.setReg_lastMargin (s : State) (o : Nat) (v : Word) : (s.setReg o v).lastMargin = s.lastMargin := rfl
@[simp] theorem State.setReg_windowOpen (s : State) (o : Nat) (v : Word) : (s.setReg o v).windowOpen = s.windowOpen := rfl
@[simp] theorem State.setReg_progActive (s : State) (o : Nat) (v : Word) : (s.setReg o v).progActive = s.progActive := rfl
@[simp] theorem State.setReg_progWait (s : State) (o : Nat) (v : Word) : (s.setReg o v).progWait = s.progWait := rfl
@[simp] theorem State.setReg_progHall (s : State) (o : Nat) (v : Word) : (s.setReg o v).progHall = s.progHall := rfl
@[simp] theorem State.setReg_vprogAt (s : State) (o : Nat) (v : Word) : (s.setReg o v).vprogAt = s.vprogAt := rfl
@[simp] theorem State.setReg_vprogOff (s : State) (o : Nat) (v : Word) : (s.setReg o v).vprogOff = s.vprogOff := rfl
@[simp] theorem State.setReg_lastWear (s : State) (o : Nat) (v : Word) : (s.setReg o v).lastWear = s.lastWear := rfl
@[simp] theorem State.setReg_loads (s : State) (o : Nat) (v : Word) : (s.setReg o v).loads = s.loads := rfl
@[simp] theorem State.setReg_attQueue (s : State) (o : Nat) (v : Word) : (s.setReg o v).attQueue = s.attQueue := rfl
@[simp] theorem State.setReg_attRuns (s : State) (o : Nat) (v : Word) : (s.setReg o v).attRuns = s.attRuns := rfl
@[simp] theorem State.setReg_attBusy (s : State) (o : Nat) (v : Word) : (s.setReg o v).attBusy = s.attBusy := rfl
@[simp] theorem State.setReg_kvCache (s : State) (o : Nat) (v : Word) : (s.setReg o v).kvCache = s.kvCache := rfl
@[simp] theorem State.setReg_fetches (s : State) (o : Nat) (v : Word) : (s.setReg o v).fetches = s.fetches := rfl
@[simp] theorem State.setReg_kvUsed (s : State) (o : Nat) (v : Word) : (s.setReg o v).kvUsed = s.kvUsed := rfl
@[simp] theorem State.setReg_parks (s : State) (o : Nat) (v : Word) : (s.setReg o v).parks = s.parks := rfl
@[simp] theorem State.setReg_tokenisers (s : State) (o : Nat) (v : Word) : (s.setReg o v).tokenisers = s.tokenisers := rfl
@[simp] theorem State.setReg_tokWait (s : State) (o : Nat) (v : Word) : (s.setReg o v).tokWait = s.tokWait := rfl
@[simp] theorem State.setReg_profileCmd (s : State) (o : Nat) (v : Word) : (s.setReg o v).profileCmd = s.profileCmd := rfl
@[simp] theorem State.setReg_prefillTurn (s : State) (o : Nat) (v : Word) : (s.setReg o v).prefillTurn = s.prefillTurn := rfl
@[simp] theorem State.setReg_lastBeat (s : State) (o : Nat) (v : Word) : (s.setReg o v).lastBeat = s.lastBeat := rfl
@[simp] theorem State.setReg_streams (s : State) (o : Nat) (v : Word) : (s.setReg o v).streams = s.streams := rfl
@[simp] theorem State.setReg_mgmtPort (s : State) (o : Nat) (v : Word) : (s.setReg o v).mgmtPort = s.mgmtPort := rfl
@[simp] theorem State.setReg_boot (s : State) (o : Nat) (v : Word) : (s.setReg o v).boot = s.boot := rfl
@[simp] theorem State.setReg_bootGiven (s : State) (o : Nat) (v : Word) : (s.setReg o v).bootGiven = s.bootGiven := rfl
@[simp] theorem State.setReg_orphans (s : State) (o : Nat) (v : Word) : (s.setReg o v).orphans = s.orphans := rfl
@[simp] theorem State.setReg_hostLines (s : State) (o : Nat) (v : Word) : (s.setReg o v).hostLines = s.hostLines := rfl
@[simp] theorem State.setReg_dir (s : State) (o : Nat) (v : Word) : (s.setReg o v).dir = s.dir := rfl
@[simp] theorem State.setReg_scoreboard (s : State) (o : Nat) (v : Word) : (s.setReg o v).scoreboard = s.scoreboard := rfl
@[simp] theorem State.setReg_hbmStacks (s : State) (o : Nat) (v : Word) : (s.setReg o v).hbmStacks = s.hbmStacks := rfl
@[simp] theorem State.setReg_t1Channels (s : State) (o : Nat) (v : Word) : (s.setReg o v).t1Channels = s.t1Channels := rfl
@[simp] theorem State.setReg_t1ChannelBytes (s : State) (o : Nat) (v : Word) : (s.setReg o v).t1ChannelBytes = s.t1ChannelBytes := rfl
@[simp] theorem State.setReg_t1Retired (s : State) (o : Nat) (v : Word) : (s.setReg o v).t1Retired = s.t1Retired := rfl
@[simp] theorem State.setReg_tbStart (s : State) (o : Nat) (v : Word) : (s.setReg o v).tbStart = s.tbStart := rfl
@[simp] theorem State.setReg_fabOut (s : State) (o : Nat) (v : Word) : (s.setReg o v).fabOut = s.fabOut := rfl
@[simp] theorem State.setReg_fabNo (s : State) (o : Nat) (v : Word) : (s.setReg o v).fabNo = s.fabNo := rfl
@[simp] theorem State.setReg_links (s : State) (o : Nat) (v : Word) : (s.setReg o v).links = s.links := rfl
@[simp] theorem State.setReg_adverts (s : State) (o : Nat) (v : Word) : (s.setReg o v).adverts = s.adverts := rfl
@[simp] theorem State.setReg_advertSeq (s : State) (o : Nat) (v : Word) : (s.setReg o v).advertSeq = s.advertSeq := rfl
@[simp] theorem State.setReg_advertAt (s : State) (o : Nat) (v : Word) : (s.setReg o v).advertAt = s.advertAt := rfl
@[simp] theorem State.setReg_members (s : State) (o : Nat) (v : Word) : (s.setReg o v).members = s.members := rfl
@[simp] theorem State.setReg_fabIn (s : State) (o : Nat) (v : Word) : (s.setReg o v).fabIn = s.fabIn := rfl
@[simp] theorem State.setReg_windows (s : State) (o : Nat) (v : Word) : (s.setReg o v).windows = s.windows := rfl
@[simp] theorem State.setReg_flows (s : State) (o : Nat) (v : Word) : (s.setReg o v).flows = s.flows := rfl
@[simp] theorem State.setReg_treeMap (s : State) (o : Nat) (v : Word) : (s.setReg o v).treeMap = s.treeMap := rfl
@[simp] theorem State.setReg_trees (s : State) (o : Nat) (v : Word) : (s.setReg o v).trees = s.trees := rfl
@[simp] theorem State.setReg_ueTimes (s : State) (o : Nat) (v : Word) : (s.setReg o v).ueTimes = s.ueTimes := rfl
@[simp] theorem State.setReg_ceTimes (s : State) (o : Nat) (v : Word) : (s.setReg o v).ceTimes = s.ceTimes := rfl
@[simp] theorem State.setReg_ceSince (s : State) (o : Nat) (v : Word) : (s.setReg o v).ceSince = s.ceSince := rfl
@[simp] theorem State.setReg_ceLast (s : State) (o : Nat) (v : Word) : (s.setReg o v).ceLast = s.ceLast := rfl
@[simp] theorem State.setReg_retirePending (s : State) (o : Nat) (v : Word) : (s.setReg o v).retirePending = s.retirePending := rfl
@[simp] theorem State.setReg_t2Vol (s : State) (o : Nat) (v : Word) : (s.setReg o v).t2Vol = s.t2Vol := rfl
@[simp] theorem State.setReg_t2Mem (s : State) (o : Nat) (v : Word) : (s.setReg o v).t2Mem = s.t2Mem := rfl
@[simp] theorem State.setReg_drives (s : State) (o : Nat) (v : Word) : (s.setReg o v).drives = s.drives := rfl
@[simp] theorem State.setReg_drivesRetired (s : State) (o : Nat) (v : Word) : (s.setReg o v).drivesRetired = s.drivesRetired := rfl
@[simp] theorem State.setReg_tier2 (s : State) (o : Nat) (v : Word) : (s.setReg o v).tier2 = s.tier2 := rfl
@[simp] theorem State.setReg_nvmeRetried (s : State) (o : Nat) (v : Word) : (s.setReg o v).nvmeRetried = s.nvmeRetried := rfl
@[simp] theorem State.setReg_driveReset (s : State) (o : Nat) (v : Word) : (s.setReg o v).driveReset = s.driveReset := rfl
@[simp] theorem State.setReg_hotUnits (s : State) (o : Nat) (v : Word) : (s.setReg o v).hotUnits = s.hotUnits := rfl
@[simp] theorem State.setReg_lastLine (s : State) (o : Nat) (v : Word) : (s.setReg o v).lastLine = s.lastLine := rfl
@[simp] theorem State.setReg_power (s : State) (o : Nat) (v : Word) : (s.setReg o v).power = s.power := rfl
@[simp] theorem State.setReg_tmons (s : State) (o : Nat) (v : Word) : (s.setReg o v).tmons = s.tmons := rfl
@[simp] theorem State.setReg_thermal (s : State) (o : Nat) (v : Word) : (s.setReg o v).thermal = s.thermal := rfl
@[simp] theorem State.setReg_diags (s : State) (o : Nat) (v : Word) : (s.setReg o v).diags = s.diags := rfl
@[simp] theorem State.setReg_test (s : State) (o : Nat) (v : Word) : (s.setReg o v).test = s.test := rfl
@[simp] theorem State.setReg_snapDue (s : State) (o : Nat) (v : Word) : (s.setReg o v).snapDue = s.snapDue := rfl
@[simp] theorem State.setReg_snap (s : State) (o : Nat) (v : Word) : (s.setReg o v).snap = s.snap := rfl
@[simp] theorem State.setReg_lastEpoch (s : State) (o : Nat) (v : Word) : (s.setReg o v).lastEpoch = s.lastEpoch := rfl
@[simp] theorem State.setReg_mpBeat (s : State) (o : Nat) (v : Word) : (s.setReg o v).mpBeat = s.mpBeat := rfl
@[simp] theorem State.setReg_tbHi (s : State) (o : Nat) (v : Word) : (s.setReg o v).tbHi = s.tbHi := rfl
@[simp] theorem State.setReg_staged (s : State) (o : Nat) (v : Word) : (s.setReg o v).staged = s.staged := rfl
@[simp] theorem State.setReg_speHold (s : State) (o : Nat) (v : Word) : (s.setReg o v).speHold = s.speHold := rfl
@[simp] theorem State.setReg_prefillJobs (s : State) (o : Nat) (v : Word) : (s.setReg o v).prefillJobs = s.prefillJobs := rfl
@[simp] theorem State.setReg_unloads (s : State) (o : Nat) (v : Word) : (s.setReg o v).unloads = s.unloads := rfl
@[simp] theorem State.setReg_l2 (s : State) (o : Nat) (v : Word) : (s.setReg o v).l2 = s.l2 := rfl
@[simp] theorem State.setReg_fetchRing (s : State) (o : Nat) (v : Word) : (s.setReg o v).fetchRing = s.fetchRing := rfl
@[simp] theorem State.setReg_fetchTaken (s : State) (o : Nat) (v : Word) : (s.setReg o v).fetchTaken = s.fetchTaken := rfl
@[simp] theorem State.setReg_portReads (s : State) (o : Nat) (v : Word) : (s.setReg o v).portReads = s.portReads := rfl
@[simp] theorem State.setReg_cntAdds (s : State) (o : Nat) (v : Word) : (s.setReg o v).cntAdds = s.cntAdds := rfl
@[simp] theorem State.setReg_tbDiffs (s : State) (o : Nat) (v : Word) : (s.setReg o v).tbDiffs = s.tbDiffs := rfl

/-! ### setGal -/

@[simp] theorem State.setGal_pending (s : State) (k : Nat) (g : Gallery) : (s.setGal k g).pending = s.pending := rfl
@[simp] theorem State.setGal_now (s : State) (k : Nat) (g : Gallery) : (s.setGal k g).now = s.now := rfl
@[simp] theorem State.setGal_free (s : State) (k : Nat) (g : Gallery) : (s.setGal k g).free = s.free := rfl
@[simp] theorem State.setGal_nextId (s : State) (k : Nat) (g : Gallery) : (s.setGal k g).nextId = s.nextId := rfl
@[simp] theorem State.setGal_bar0 (s : State) (k : Nat) (g : Gallery) : (s.setGal k g).bar0 = s.bar0 := rfl
@[simp] theorem State.setGal_fns (s : State) (k : Nat) (g : Gallery) : (s.setGal k g).fns = s.fns := rfl
@[simp] theorem State.setGal_lastRead (s : State) (k : Nat) (g : Gallery) : (s.setGal k g).lastRead = s.lastRead := rfl
@[simp] theorem State.setGal_rings (s : State) (k : Nat) (g : Gallery) : (s.setGal k g).rings = s.rings := rfl
@[simp] theorem State.setGal_accepted (s : State) (k : Nat) (g : Gallery) : (s.setGal k g).accepted = s.accepted := rfl
@[simp] theorem State.setGal_eventSeq (s : State) (k : Nat) (g : Gallery) : (s.setGal k g).eventSeq = s.eventSeq := rfl
@[simp] theorem State.setGal_held (s : State) (k : Nat) (g : Gallery) : (s.setGal k g).held = s.held := rfl
@[simp] theorem State.setGal_heldLost (s : State) (k : Nat) (g : Gallery) : (s.setGal k g).heldLost = s.heldLost := rfl
@[simp] theorem State.setGal_hostMem (s : State) (k : Nat) (g : Gallery) : (s.setGal k g).hostMem = s.hostMem := rfl
@[simp] theorem State.setGal_mem (s : State) (k : Nat) (g : Gallery) : (s.setGal k g).mem = s.mem := rfl
@[simp] theorem State.setGal_marks (s : State) (k : Nat) (g : Gallery) : (s.setGal k g).marks = s.marks := rfl
@[simp] theorem State.setGal_counters (s : State) (k : Nat) (g : Gallery) : (s.setGal k g).counters = s.counters := rfl
@[simp] theorem State.setGal_counterSat (s : State) (k : Nat) (g : Gallery) : (s.setGal k g).counterSat = s.counterSat := rfl
@[simp] theorem State.setGal_writes (s : State) (k : Nat) (g : Gallery) : (s.setGal k g).writes = s.writes := rfl
@[simp] theorem State.setGal_engines (s : State) (k : Nat) (g : Gallery) : (s.setGal k g).engines = s.engines := rfl
@[simp] theorem State.setGal_galleries (s : State) (k : Nat) (g : Gallery) : (s.setGal k g).galleries = Tab.set Gallery.reset s.galleries k g := rfl
@[simp] theorem State.setGal_partials (s : State) (k : Nat) (g : Gallery) : (s.setGal k g).partials = s.partials := rfl
@[simp] theorem State.setGal_powerSteps (s : State) (k : Nat) (g : Gallery) : (s.setGal k g).powerSteps = s.powerSteps := rfl
@[simp] theorem State.setGal_cells (s : State) (k : Nat) (g : Gallery) : (s.setGal k g).cells = s.cells := rfl
@[simp] theorem State.setGal_arrays (s : State) (k : Nat) (g : Gallery) : (s.setGal k g).arrays = s.arrays := rfl
@[simp] theorem State.setGal_nv (s : State) (k : Nat) (g : Gallery) : (s.setGal k g).nv = s.nv := rfl
@[simp] theorem State.setGal_dme (s : State) (k : Nat) (g : Gallery) : (s.setGal k g).dme = s.dme := rfl
@[simp] theorem State.setGal_spe (s : State) (k : Nat) (g : Gallery) : (s.setGal k g).spe = s.spe := rfl
@[simp] theorem State.setGal_contexts (s : State) (k : Nat) (g : Gallery) : (s.setGal k g).contexts = s.contexts := rfl
@[simp] theorem State.setGal_coreSlow (s : State) (k : Nat) (g : Gallery) : (s.setGal k g).coreSlow = s.coreSlow := rfl
@[simp] theorem State.setGal_lastMargin (s : State) (k : Nat) (g : Gallery) : (s.setGal k g).lastMargin = s.lastMargin := rfl
@[simp] theorem State.setGal_windowOpen (s : State) (k : Nat) (g : Gallery) : (s.setGal k g).windowOpen = s.windowOpen := rfl
@[simp] theorem State.setGal_progActive (s : State) (k : Nat) (g : Gallery) : (s.setGal k g).progActive = s.progActive := rfl
@[simp] theorem State.setGal_progWait (s : State) (k : Nat) (g : Gallery) : (s.setGal k g).progWait = s.progWait := rfl
@[simp] theorem State.setGal_progHall (s : State) (k : Nat) (g : Gallery) : (s.setGal k g).progHall = s.progHall := rfl
@[simp] theorem State.setGal_vprogAt (s : State) (k : Nat) (g : Gallery) : (s.setGal k g).vprogAt = s.vprogAt := rfl
@[simp] theorem State.setGal_vprogOff (s : State) (k : Nat) (g : Gallery) : (s.setGal k g).vprogOff = s.vprogOff := rfl
@[simp] theorem State.setGal_lastWear (s : State) (k : Nat) (g : Gallery) : (s.setGal k g).lastWear = s.lastWear := rfl
@[simp] theorem State.setGal_loads (s : State) (k : Nat) (g : Gallery) : (s.setGal k g).loads = s.loads := rfl
@[simp] theorem State.setGal_attQueue (s : State) (k : Nat) (g : Gallery) : (s.setGal k g).attQueue = s.attQueue := rfl
@[simp] theorem State.setGal_attRuns (s : State) (k : Nat) (g : Gallery) : (s.setGal k g).attRuns = s.attRuns := rfl
@[simp] theorem State.setGal_attBusy (s : State) (k : Nat) (g : Gallery) : (s.setGal k g).attBusy = s.attBusy := rfl
@[simp] theorem State.setGal_kvCache (s : State) (k : Nat) (g : Gallery) : (s.setGal k g).kvCache = s.kvCache := rfl
@[simp] theorem State.setGal_fetches (s : State) (k : Nat) (g : Gallery) : (s.setGal k g).fetches = s.fetches := rfl
@[simp] theorem State.setGal_kvUsed (s : State) (k : Nat) (g : Gallery) : (s.setGal k g).kvUsed = s.kvUsed := rfl
@[simp] theorem State.setGal_parks (s : State) (k : Nat) (g : Gallery) : (s.setGal k g).parks = s.parks := rfl
@[simp] theorem State.setGal_tokenisers (s : State) (k : Nat) (g : Gallery) : (s.setGal k g).tokenisers = s.tokenisers := rfl
@[simp] theorem State.setGal_tokWait (s : State) (k : Nat) (g : Gallery) : (s.setGal k g).tokWait = s.tokWait := rfl
@[simp] theorem State.setGal_profileCmd (s : State) (k : Nat) (g : Gallery) : (s.setGal k g).profileCmd = s.profileCmd := rfl
@[simp] theorem State.setGal_prefillTurn (s : State) (k : Nat) (g : Gallery) : (s.setGal k g).prefillTurn = s.prefillTurn := rfl
@[simp] theorem State.setGal_lastBeat (s : State) (k : Nat) (g : Gallery) : (s.setGal k g).lastBeat = s.lastBeat := rfl
@[simp] theorem State.setGal_streams (s : State) (k : Nat) (g : Gallery) : (s.setGal k g).streams = s.streams := rfl
@[simp] theorem State.setGal_mgmtPort (s : State) (k : Nat) (g : Gallery) : (s.setGal k g).mgmtPort = s.mgmtPort := rfl
@[simp] theorem State.setGal_boot (s : State) (k : Nat) (g : Gallery) : (s.setGal k g).boot = s.boot := rfl
@[simp] theorem State.setGal_bootGiven (s : State) (k : Nat) (g : Gallery) : (s.setGal k g).bootGiven = s.bootGiven := rfl
@[simp] theorem State.setGal_orphans (s : State) (k : Nat) (g : Gallery) : (s.setGal k g).orphans = s.orphans := rfl
@[simp] theorem State.setGal_hostLines (s : State) (k : Nat) (g : Gallery) : (s.setGal k g).hostLines = s.hostLines := rfl
@[simp] theorem State.setGal_dir (s : State) (k : Nat) (g : Gallery) : (s.setGal k g).dir = s.dir := rfl
@[simp] theorem State.setGal_scoreboard (s : State) (k : Nat) (g : Gallery) : (s.setGal k g).scoreboard = s.scoreboard := rfl
@[simp] theorem State.setGal_hbmStacks (s : State) (k : Nat) (g : Gallery) : (s.setGal k g).hbmStacks = s.hbmStacks := rfl
@[simp] theorem State.setGal_t1Channels (s : State) (k : Nat) (g : Gallery) : (s.setGal k g).t1Channels = s.t1Channels := rfl
@[simp] theorem State.setGal_t1ChannelBytes (s : State) (k : Nat) (g : Gallery) : (s.setGal k g).t1ChannelBytes = s.t1ChannelBytes := rfl
@[simp] theorem State.setGal_t1Retired (s : State) (k : Nat) (g : Gallery) : (s.setGal k g).t1Retired = s.t1Retired := rfl
@[simp] theorem State.setGal_tbStart (s : State) (k : Nat) (g : Gallery) : (s.setGal k g).tbStart = s.tbStart := rfl
@[simp] theorem State.setGal_fabOut (s : State) (k : Nat) (g : Gallery) : (s.setGal k g).fabOut = s.fabOut := rfl
@[simp] theorem State.setGal_fabNo (s : State) (k : Nat) (g : Gallery) : (s.setGal k g).fabNo = s.fabNo := rfl
@[simp] theorem State.setGal_links (s : State) (k : Nat) (g : Gallery) : (s.setGal k g).links = s.links := rfl
@[simp] theorem State.setGal_adverts (s : State) (k : Nat) (g : Gallery) : (s.setGal k g).adverts = s.adverts := rfl
@[simp] theorem State.setGal_advertSeq (s : State) (k : Nat) (g : Gallery) : (s.setGal k g).advertSeq = s.advertSeq := rfl
@[simp] theorem State.setGal_advertAt (s : State) (k : Nat) (g : Gallery) : (s.setGal k g).advertAt = s.advertAt := rfl
@[simp] theorem State.setGal_members (s : State) (k : Nat) (g : Gallery) : (s.setGal k g).members = s.members := rfl
@[simp] theorem State.setGal_fabIn (s : State) (k : Nat) (g : Gallery) : (s.setGal k g).fabIn = s.fabIn := rfl
@[simp] theorem State.setGal_windows (s : State) (k : Nat) (g : Gallery) : (s.setGal k g).windows = s.windows := rfl
@[simp] theorem State.setGal_flows (s : State) (k : Nat) (g : Gallery) : (s.setGal k g).flows = s.flows := rfl
@[simp] theorem State.setGal_treeMap (s : State) (k : Nat) (g : Gallery) : (s.setGal k g).treeMap = s.treeMap := rfl
@[simp] theorem State.setGal_trees (s : State) (k : Nat) (g : Gallery) : (s.setGal k g).trees = s.trees := rfl
@[simp] theorem State.setGal_ueTimes (s : State) (k : Nat) (g : Gallery) : (s.setGal k g).ueTimes = s.ueTimes := rfl
@[simp] theorem State.setGal_ceTimes (s : State) (k : Nat) (g : Gallery) : (s.setGal k g).ceTimes = s.ceTimes := rfl
@[simp] theorem State.setGal_ceSince (s : State) (k : Nat) (g : Gallery) : (s.setGal k g).ceSince = s.ceSince := rfl
@[simp] theorem State.setGal_ceLast (s : State) (k : Nat) (g : Gallery) : (s.setGal k g).ceLast = s.ceLast := rfl
@[simp] theorem State.setGal_retirePending (s : State) (k : Nat) (g : Gallery) : (s.setGal k g).retirePending = s.retirePending := rfl
@[simp] theorem State.setGal_t2Vol (s : State) (k : Nat) (g : Gallery) : (s.setGal k g).t2Vol = s.t2Vol := rfl
@[simp] theorem State.setGal_t2Mem (s : State) (k : Nat) (g : Gallery) : (s.setGal k g).t2Mem = s.t2Mem := rfl
@[simp] theorem State.setGal_drives (s : State) (k : Nat) (g : Gallery) : (s.setGal k g).drives = s.drives := rfl
@[simp] theorem State.setGal_drivesRetired (s : State) (k : Nat) (g : Gallery) : (s.setGal k g).drivesRetired = s.drivesRetired := rfl
@[simp] theorem State.setGal_tier2 (s : State) (k : Nat) (g : Gallery) : (s.setGal k g).tier2 = s.tier2 := rfl
@[simp] theorem State.setGal_nvmeRetried (s : State) (k : Nat) (g : Gallery) : (s.setGal k g).nvmeRetried = s.nvmeRetried := rfl
@[simp] theorem State.setGal_driveReset (s : State) (k : Nat) (g : Gallery) : (s.setGal k g).driveReset = s.driveReset := rfl
@[simp] theorem State.setGal_hotUnits (s : State) (k : Nat) (g : Gallery) : (s.setGal k g).hotUnits = s.hotUnits := rfl
@[simp] theorem State.setGal_lastLine (s : State) (k : Nat) (g : Gallery) : (s.setGal k g).lastLine = s.lastLine := rfl
@[simp] theorem State.setGal_power (s : State) (k : Nat) (g : Gallery) : (s.setGal k g).power = s.power := rfl
@[simp] theorem State.setGal_tmons (s : State) (k : Nat) (g : Gallery) : (s.setGal k g).tmons = s.tmons := rfl
@[simp] theorem State.setGal_thermal (s : State) (k : Nat) (g : Gallery) : (s.setGal k g).thermal = s.thermal := rfl
@[simp] theorem State.setGal_diags (s : State) (k : Nat) (g : Gallery) : (s.setGal k g).diags = s.diags := rfl
@[simp] theorem State.setGal_test (s : State) (k : Nat) (g : Gallery) : (s.setGal k g).test = s.test := rfl
@[simp] theorem State.setGal_snapDue (s : State) (k : Nat) (g : Gallery) : (s.setGal k g).snapDue = s.snapDue := rfl
@[simp] theorem State.setGal_snap (s : State) (k : Nat) (g : Gallery) : (s.setGal k g).snap = s.snap := rfl
@[simp] theorem State.setGal_lastEpoch (s : State) (k : Nat) (g : Gallery) : (s.setGal k g).lastEpoch = s.lastEpoch := rfl
@[simp] theorem State.setGal_mpBeat (s : State) (k : Nat) (g : Gallery) : (s.setGal k g).mpBeat = s.mpBeat := rfl
@[simp] theorem State.setGal_tbHi (s : State) (k : Nat) (g : Gallery) : (s.setGal k g).tbHi = s.tbHi := rfl
@[simp] theorem State.setGal_staged (s : State) (k : Nat) (g : Gallery) : (s.setGal k g).staged = s.staged := rfl
@[simp] theorem State.setGal_speHold (s : State) (k : Nat) (g : Gallery) : (s.setGal k g).speHold = s.speHold := rfl
@[simp] theorem State.setGal_prefillJobs (s : State) (k : Nat) (g : Gallery) : (s.setGal k g).prefillJobs = s.prefillJobs := rfl
@[simp] theorem State.setGal_unloads (s : State) (k : Nat) (g : Gallery) : (s.setGal k g).unloads = s.unloads := rfl
@[simp] theorem State.setGal_l2 (s : State) (k : Nat) (g : Gallery) : (s.setGal k g).l2 = s.l2 := rfl
@[simp] theorem State.setGal_fetchRing (s : State) (k : Nat) (g : Gallery) : (s.setGal k g).fetchRing = s.fetchRing := rfl
@[simp] theorem State.setGal_fetchTaken (s : State) (k : Nat) (g : Gallery) : (s.setGal k g).fetchTaken = s.fetchTaken := rfl
@[simp] theorem State.setGal_portReads (s : State) (k : Nat) (g : Gallery) : (s.setGal k g).portReads = s.portReads := rfl
@[simp] theorem State.setGal_cntAdds (s : State) (k : Nat) (g : Gallery) : (s.setGal k g).cntAdds = s.cntAdds := rfl
@[simp] theorem State.setGal_tbDiffs (s : State) (k : Nat) (g : Gallery) : (s.setGal k g).tbDiffs = s.tbDiffs := rfl

/-! ### setArr -/

@[simp] theorem State.setArr_pending (s : State) (i : Nat) (a : ArrayState) : (s.setArr i a).pending = s.pending := rfl
@[simp] theorem State.setArr_now (s : State) (i : Nat) (a : ArrayState) : (s.setArr i a).now = s.now := rfl
@[simp] theorem State.setArr_free (s : State) (i : Nat) (a : ArrayState) : (s.setArr i a).free = s.free := rfl
@[simp] theorem State.setArr_nextId (s : State) (i : Nat) (a : ArrayState) : (s.setArr i a).nextId = s.nextId := rfl
@[simp] theorem State.setArr_bar0 (s : State) (i : Nat) (a : ArrayState) : (s.setArr i a).bar0 = s.bar0 := rfl
@[simp] theorem State.setArr_fns (s : State) (i : Nat) (a : ArrayState) : (s.setArr i a).fns = s.fns := rfl
@[simp] theorem State.setArr_lastRead (s : State) (i : Nat) (a : ArrayState) : (s.setArr i a).lastRead = s.lastRead := rfl
@[simp] theorem State.setArr_rings (s : State) (i : Nat) (a : ArrayState) : (s.setArr i a).rings = s.rings := rfl
@[simp] theorem State.setArr_accepted (s : State) (i : Nat) (a : ArrayState) : (s.setArr i a).accepted = s.accepted := rfl
@[simp] theorem State.setArr_eventSeq (s : State) (i : Nat) (a : ArrayState) : (s.setArr i a).eventSeq = s.eventSeq := rfl
@[simp] theorem State.setArr_held (s : State) (i : Nat) (a : ArrayState) : (s.setArr i a).held = s.held := rfl
@[simp] theorem State.setArr_heldLost (s : State) (i : Nat) (a : ArrayState) : (s.setArr i a).heldLost = s.heldLost := rfl
@[simp] theorem State.setArr_hostMem (s : State) (i : Nat) (a : ArrayState) : (s.setArr i a).hostMem = s.hostMem := rfl
@[simp] theorem State.setArr_mem (s : State) (i : Nat) (a : ArrayState) : (s.setArr i a).mem = s.mem := rfl
@[simp] theorem State.setArr_marks (s : State) (i : Nat) (a : ArrayState) : (s.setArr i a).marks = s.marks := rfl
@[simp] theorem State.setArr_counters (s : State) (i : Nat) (a : ArrayState) : (s.setArr i a).counters = s.counters := rfl
@[simp] theorem State.setArr_counterSat (s : State) (i : Nat) (a : ArrayState) : (s.setArr i a).counterSat = s.counterSat := rfl
@[simp] theorem State.setArr_writes (s : State) (i : Nat) (a : ArrayState) : (s.setArr i a).writes = s.writes := rfl
@[simp] theorem State.setArr_engines (s : State) (i : Nat) (a : ArrayState) : (s.setArr i a).engines = s.engines := rfl
@[simp] theorem State.setArr_galleries (s : State) (i : Nat) (a : ArrayState) : (s.setArr i a).galleries = s.galleries := rfl
@[simp] theorem State.setArr_partials (s : State) (i : Nat) (a : ArrayState) : (s.setArr i a).partials = s.partials := rfl
@[simp] theorem State.setArr_powerSteps (s : State) (i : Nat) (a : ArrayState) : (s.setArr i a).powerSteps = s.powerSteps := rfl
@[simp] theorem State.setArr_cells (s : State) (i : Nat) (a : ArrayState) : (s.setArr i a).cells = s.cells := rfl
@[simp] theorem State.setArr_arrays (s : State) (i : Nat) (a : ArrayState) : (s.setArr i a).arrays = Tab.set ArrayState.reset s.arrays i a := rfl
@[simp] theorem State.setArr_nv (s : State) (i : Nat) (a : ArrayState) : (s.setArr i a).nv = s.nv := rfl
@[simp] theorem State.setArr_dme (s : State) (i : Nat) (a : ArrayState) : (s.setArr i a).dme = s.dme := rfl
@[simp] theorem State.setArr_spe (s : State) (i : Nat) (a : ArrayState) : (s.setArr i a).spe = s.spe := rfl
@[simp] theorem State.setArr_contexts (s : State) (i : Nat) (a : ArrayState) : (s.setArr i a).contexts = s.contexts := rfl
@[simp] theorem State.setArr_coreSlow (s : State) (i : Nat) (a : ArrayState) : (s.setArr i a).coreSlow = s.coreSlow := rfl
@[simp] theorem State.setArr_lastMargin (s : State) (i : Nat) (a : ArrayState) : (s.setArr i a).lastMargin = s.lastMargin := rfl
@[simp] theorem State.setArr_windowOpen (s : State) (i : Nat) (a : ArrayState) : (s.setArr i a).windowOpen = s.windowOpen := rfl
@[simp] theorem State.setArr_progActive (s : State) (i : Nat) (a : ArrayState) : (s.setArr i a).progActive = s.progActive := rfl
@[simp] theorem State.setArr_progWait (s : State) (i : Nat) (a : ArrayState) : (s.setArr i a).progWait = s.progWait := rfl
@[simp] theorem State.setArr_progHall (s : State) (i : Nat) (a : ArrayState) : (s.setArr i a).progHall = s.progHall := rfl
@[simp] theorem State.setArr_vprogAt (s : State) (i : Nat) (a : ArrayState) : (s.setArr i a).vprogAt = s.vprogAt := rfl
@[simp] theorem State.setArr_vprogOff (s : State) (i : Nat) (a : ArrayState) : (s.setArr i a).vprogOff = s.vprogOff := rfl
@[simp] theorem State.setArr_lastWear (s : State) (i : Nat) (a : ArrayState) : (s.setArr i a).lastWear = s.lastWear := rfl
@[simp] theorem State.setArr_loads (s : State) (i : Nat) (a : ArrayState) : (s.setArr i a).loads = s.loads := rfl
@[simp] theorem State.setArr_attQueue (s : State) (i : Nat) (a : ArrayState) : (s.setArr i a).attQueue = s.attQueue := rfl
@[simp] theorem State.setArr_attRuns (s : State) (i : Nat) (a : ArrayState) : (s.setArr i a).attRuns = s.attRuns := rfl
@[simp] theorem State.setArr_attBusy (s : State) (i : Nat) (a : ArrayState) : (s.setArr i a).attBusy = s.attBusy := rfl
@[simp] theorem State.setArr_kvCache (s : State) (i : Nat) (a : ArrayState) : (s.setArr i a).kvCache = s.kvCache := rfl
@[simp] theorem State.setArr_fetches (s : State) (i : Nat) (a : ArrayState) : (s.setArr i a).fetches = s.fetches := rfl
@[simp] theorem State.setArr_kvUsed (s : State) (i : Nat) (a : ArrayState) : (s.setArr i a).kvUsed = s.kvUsed := rfl
@[simp] theorem State.setArr_parks (s : State) (i : Nat) (a : ArrayState) : (s.setArr i a).parks = s.parks := rfl
@[simp] theorem State.setArr_tokenisers (s : State) (i : Nat) (a : ArrayState) : (s.setArr i a).tokenisers = s.tokenisers := rfl
@[simp] theorem State.setArr_tokWait (s : State) (i : Nat) (a : ArrayState) : (s.setArr i a).tokWait = s.tokWait := rfl
@[simp] theorem State.setArr_profileCmd (s : State) (i : Nat) (a : ArrayState) : (s.setArr i a).profileCmd = s.profileCmd := rfl
@[simp] theorem State.setArr_prefillTurn (s : State) (i : Nat) (a : ArrayState) : (s.setArr i a).prefillTurn = s.prefillTurn := rfl
@[simp] theorem State.setArr_lastBeat (s : State) (i : Nat) (a : ArrayState) : (s.setArr i a).lastBeat = s.lastBeat := rfl
@[simp] theorem State.setArr_streams (s : State) (i : Nat) (a : ArrayState) : (s.setArr i a).streams = s.streams := rfl
@[simp] theorem State.setArr_mgmtPort (s : State) (i : Nat) (a : ArrayState) : (s.setArr i a).mgmtPort = s.mgmtPort := rfl
@[simp] theorem State.setArr_boot (s : State) (i : Nat) (a : ArrayState) : (s.setArr i a).boot = s.boot := rfl
@[simp] theorem State.setArr_bootGiven (s : State) (i : Nat) (a : ArrayState) : (s.setArr i a).bootGiven = s.bootGiven := rfl
@[simp] theorem State.setArr_orphans (s : State) (i : Nat) (a : ArrayState) : (s.setArr i a).orphans = s.orphans := rfl
@[simp] theorem State.setArr_hostLines (s : State) (i : Nat) (a : ArrayState) : (s.setArr i a).hostLines = s.hostLines := rfl
@[simp] theorem State.setArr_dir (s : State) (i : Nat) (a : ArrayState) : (s.setArr i a).dir = s.dir := rfl
@[simp] theorem State.setArr_scoreboard (s : State) (i : Nat) (a : ArrayState) : (s.setArr i a).scoreboard = s.scoreboard := rfl
@[simp] theorem State.setArr_hbmStacks (s : State) (i : Nat) (a : ArrayState) : (s.setArr i a).hbmStacks = s.hbmStacks := rfl
@[simp] theorem State.setArr_t1Channels (s : State) (i : Nat) (a : ArrayState) : (s.setArr i a).t1Channels = s.t1Channels := rfl
@[simp] theorem State.setArr_t1ChannelBytes (s : State) (i : Nat) (a : ArrayState) : (s.setArr i a).t1ChannelBytes = s.t1ChannelBytes := rfl
@[simp] theorem State.setArr_t1Retired (s : State) (i : Nat) (a : ArrayState) : (s.setArr i a).t1Retired = s.t1Retired := rfl
@[simp] theorem State.setArr_tbStart (s : State) (i : Nat) (a : ArrayState) : (s.setArr i a).tbStart = s.tbStart := rfl
@[simp] theorem State.setArr_fabOut (s : State) (i : Nat) (a : ArrayState) : (s.setArr i a).fabOut = s.fabOut := rfl
@[simp] theorem State.setArr_fabNo (s : State) (i : Nat) (a : ArrayState) : (s.setArr i a).fabNo = s.fabNo := rfl
@[simp] theorem State.setArr_links (s : State) (i : Nat) (a : ArrayState) : (s.setArr i a).links = s.links := rfl
@[simp] theorem State.setArr_adverts (s : State) (i : Nat) (a : ArrayState) : (s.setArr i a).adverts = s.adverts := rfl
@[simp] theorem State.setArr_advertSeq (s : State) (i : Nat) (a : ArrayState) : (s.setArr i a).advertSeq = s.advertSeq := rfl
@[simp] theorem State.setArr_advertAt (s : State) (i : Nat) (a : ArrayState) : (s.setArr i a).advertAt = s.advertAt := rfl
@[simp] theorem State.setArr_members (s : State) (i : Nat) (a : ArrayState) : (s.setArr i a).members = s.members := rfl
@[simp] theorem State.setArr_fabIn (s : State) (i : Nat) (a : ArrayState) : (s.setArr i a).fabIn = s.fabIn := rfl
@[simp] theorem State.setArr_windows (s : State) (i : Nat) (a : ArrayState) : (s.setArr i a).windows = s.windows := rfl
@[simp] theorem State.setArr_flows (s : State) (i : Nat) (a : ArrayState) : (s.setArr i a).flows = s.flows := rfl
@[simp] theorem State.setArr_treeMap (s : State) (i : Nat) (a : ArrayState) : (s.setArr i a).treeMap = s.treeMap := rfl
@[simp] theorem State.setArr_trees (s : State) (i : Nat) (a : ArrayState) : (s.setArr i a).trees = s.trees := rfl
@[simp] theorem State.setArr_ueTimes (s : State) (i : Nat) (a : ArrayState) : (s.setArr i a).ueTimes = s.ueTimes := rfl
@[simp] theorem State.setArr_ceTimes (s : State) (i : Nat) (a : ArrayState) : (s.setArr i a).ceTimes = s.ceTimes := rfl
@[simp] theorem State.setArr_ceSince (s : State) (i : Nat) (a : ArrayState) : (s.setArr i a).ceSince = s.ceSince := rfl
@[simp] theorem State.setArr_ceLast (s : State) (i : Nat) (a : ArrayState) : (s.setArr i a).ceLast = s.ceLast := rfl
@[simp] theorem State.setArr_retirePending (s : State) (i : Nat) (a : ArrayState) : (s.setArr i a).retirePending = s.retirePending := rfl
@[simp] theorem State.setArr_t2Vol (s : State) (i : Nat) (a : ArrayState) : (s.setArr i a).t2Vol = s.t2Vol := rfl
@[simp] theorem State.setArr_t2Mem (s : State) (i : Nat) (a : ArrayState) : (s.setArr i a).t2Mem = s.t2Mem := rfl
@[simp] theorem State.setArr_drives (s : State) (i : Nat) (a : ArrayState) : (s.setArr i a).drives = s.drives := rfl
@[simp] theorem State.setArr_drivesRetired (s : State) (i : Nat) (a : ArrayState) : (s.setArr i a).drivesRetired = s.drivesRetired := rfl
@[simp] theorem State.setArr_tier2 (s : State) (i : Nat) (a : ArrayState) : (s.setArr i a).tier2 = s.tier2 := rfl
@[simp] theorem State.setArr_nvmeRetried (s : State) (i : Nat) (a : ArrayState) : (s.setArr i a).nvmeRetried = s.nvmeRetried := rfl
@[simp] theorem State.setArr_driveReset (s : State) (i : Nat) (a : ArrayState) : (s.setArr i a).driveReset = s.driveReset := rfl
@[simp] theorem State.setArr_hotUnits (s : State) (i : Nat) (a : ArrayState) : (s.setArr i a).hotUnits = s.hotUnits := rfl
@[simp] theorem State.setArr_lastLine (s : State) (i : Nat) (a : ArrayState) : (s.setArr i a).lastLine = s.lastLine := rfl
@[simp] theorem State.setArr_power (s : State) (i : Nat) (a : ArrayState) : (s.setArr i a).power = s.power := rfl
@[simp] theorem State.setArr_tmons (s : State) (i : Nat) (a : ArrayState) : (s.setArr i a).tmons = s.tmons := rfl
@[simp] theorem State.setArr_thermal (s : State) (i : Nat) (a : ArrayState) : (s.setArr i a).thermal = s.thermal := rfl
@[simp] theorem State.setArr_diags (s : State) (i : Nat) (a : ArrayState) : (s.setArr i a).diags = s.diags := rfl
@[simp] theorem State.setArr_test (s : State) (i : Nat) (a : ArrayState) : (s.setArr i a).test = s.test := rfl
@[simp] theorem State.setArr_snapDue (s : State) (i : Nat) (a : ArrayState) : (s.setArr i a).snapDue = s.snapDue := rfl
@[simp] theorem State.setArr_snap (s : State) (i : Nat) (a : ArrayState) : (s.setArr i a).snap = s.snap := rfl
@[simp] theorem State.setArr_lastEpoch (s : State) (i : Nat) (a : ArrayState) : (s.setArr i a).lastEpoch = s.lastEpoch := rfl
@[simp] theorem State.setArr_mpBeat (s : State) (i : Nat) (a : ArrayState) : (s.setArr i a).mpBeat = s.mpBeat := rfl
@[simp] theorem State.setArr_tbHi (s : State) (i : Nat) (a : ArrayState) : (s.setArr i a).tbHi = s.tbHi := rfl
@[simp] theorem State.setArr_staged (s : State) (i : Nat) (a : ArrayState) : (s.setArr i a).staged = s.staged := rfl
@[simp] theorem State.setArr_speHold (s : State) (i : Nat) (a : ArrayState) : (s.setArr i a).speHold = s.speHold := rfl
@[simp] theorem State.setArr_prefillJobs (s : State) (i : Nat) (a : ArrayState) : (s.setArr i a).prefillJobs = s.prefillJobs := rfl
@[simp] theorem State.setArr_unloads (s : State) (i : Nat) (a : ArrayState) : (s.setArr i a).unloads = s.unloads := rfl
@[simp] theorem State.setArr_l2 (s : State) (i : Nat) (a : ArrayState) : (s.setArr i a).l2 = s.l2 := rfl
@[simp] theorem State.setArr_fetchRing (s : State) (i : Nat) (a : ArrayState) : (s.setArr i a).fetchRing = s.fetchRing := rfl
@[simp] theorem State.setArr_fetchTaken (s : State) (i : Nat) (a : ArrayState) : (s.setArr i a).fetchTaken = s.fetchTaken := rfl
@[simp] theorem State.setArr_portReads (s : State) (i : Nat) (a : ArrayState) : (s.setArr i a).portReads = s.portReads := rfl
@[simp] theorem State.setArr_cntAdds (s : State) (i : Nat) (a : ArrayState) : (s.setArr i a).cntAdds = s.cntAdds := rfl
@[simp] theorem State.setArr_tbDiffs (s : State) (i : Nat) (a : ArrayState) : (s.setArr i a).tbDiffs = s.tbDiffs := rfl

/-! ### setRing -/

@[simp] theorem State.setRing_pending (s : State) (n : Nat) (r : Ring) : (s.setRing n r).pending = s.pending := rfl
@[simp] theorem State.setRing_now (s : State) (n : Nat) (r : Ring) : (s.setRing n r).now = s.now := rfl
@[simp] theorem State.setRing_free (s : State) (n : Nat) (r : Ring) : (s.setRing n r).free = s.free := rfl
@[simp] theorem State.setRing_nextId (s : State) (n : Nat) (r : Ring) : (s.setRing n r).nextId = s.nextId := rfl
@[simp] theorem State.setRing_bar0 (s : State) (n : Nat) (r : Ring) : (s.setRing n r).bar0 = s.bar0 := rfl
@[simp] theorem State.setRing_fns (s : State) (n : Nat) (r : Ring) : (s.setRing n r).fns = s.fns := rfl
@[simp] theorem State.setRing_lastRead (s : State) (n : Nat) (r : Ring) : (s.setRing n r).lastRead = s.lastRead := rfl
@[simp] theorem State.setRing_rings (s : State) (n : Nat) (r : Ring) : (s.setRing n r).rings = Tab.set Ring.reset s.rings n r := rfl
@[simp] theorem State.setRing_accepted (s : State) (n : Nat) (r : Ring) : (s.setRing n r).accepted = s.accepted := rfl
@[simp] theorem State.setRing_eventSeq (s : State) (n : Nat) (r : Ring) : (s.setRing n r).eventSeq = s.eventSeq := rfl
@[simp] theorem State.setRing_held (s : State) (n : Nat) (r : Ring) : (s.setRing n r).held = s.held := rfl
@[simp] theorem State.setRing_heldLost (s : State) (n : Nat) (r : Ring) : (s.setRing n r).heldLost = s.heldLost := rfl
@[simp] theorem State.setRing_hostMem (s : State) (n : Nat) (r : Ring) : (s.setRing n r).hostMem = s.hostMem := rfl
@[simp] theorem State.setRing_mem (s : State) (n : Nat) (r : Ring) : (s.setRing n r).mem = s.mem := rfl
@[simp] theorem State.setRing_marks (s : State) (n : Nat) (r : Ring) : (s.setRing n r).marks = s.marks := rfl
@[simp] theorem State.setRing_counters (s : State) (n : Nat) (r : Ring) : (s.setRing n r).counters = s.counters := rfl
@[simp] theorem State.setRing_counterSat (s : State) (n : Nat) (r : Ring) : (s.setRing n r).counterSat = s.counterSat := rfl
@[simp] theorem State.setRing_writes (s : State) (n : Nat) (r : Ring) : (s.setRing n r).writes = s.writes := rfl
@[simp] theorem State.setRing_engines (s : State) (n : Nat) (r : Ring) : (s.setRing n r).engines = s.engines := rfl
@[simp] theorem State.setRing_galleries (s : State) (n : Nat) (r : Ring) : (s.setRing n r).galleries = s.galleries := rfl
@[simp] theorem State.setRing_partials (s : State) (n : Nat) (r : Ring) : (s.setRing n r).partials = s.partials := rfl
@[simp] theorem State.setRing_powerSteps (s : State) (n : Nat) (r : Ring) : (s.setRing n r).powerSteps = s.powerSteps := rfl
@[simp] theorem State.setRing_cells (s : State) (n : Nat) (r : Ring) : (s.setRing n r).cells = s.cells := rfl
@[simp] theorem State.setRing_arrays (s : State) (n : Nat) (r : Ring) : (s.setRing n r).arrays = s.arrays := rfl
@[simp] theorem State.setRing_nv (s : State) (n : Nat) (r : Ring) : (s.setRing n r).nv = s.nv := rfl
@[simp] theorem State.setRing_dme (s : State) (n : Nat) (r : Ring) : (s.setRing n r).dme = s.dme := rfl
@[simp] theorem State.setRing_spe (s : State) (n : Nat) (r : Ring) : (s.setRing n r).spe = s.spe := rfl
@[simp] theorem State.setRing_contexts (s : State) (n : Nat) (r : Ring) : (s.setRing n r).contexts = s.contexts := rfl
@[simp] theorem State.setRing_coreSlow (s : State) (n : Nat) (r : Ring) : (s.setRing n r).coreSlow = s.coreSlow := rfl
@[simp] theorem State.setRing_lastMargin (s : State) (n : Nat) (r : Ring) : (s.setRing n r).lastMargin = s.lastMargin := rfl
@[simp] theorem State.setRing_windowOpen (s : State) (n : Nat) (r : Ring) : (s.setRing n r).windowOpen = s.windowOpen := rfl
@[simp] theorem State.setRing_progActive (s : State) (n : Nat) (r : Ring) : (s.setRing n r).progActive = s.progActive := rfl
@[simp] theorem State.setRing_progWait (s : State) (n : Nat) (r : Ring) : (s.setRing n r).progWait = s.progWait := rfl
@[simp] theorem State.setRing_progHall (s : State) (n : Nat) (r : Ring) : (s.setRing n r).progHall = s.progHall := rfl
@[simp] theorem State.setRing_vprogAt (s : State) (n : Nat) (r : Ring) : (s.setRing n r).vprogAt = s.vprogAt := rfl
@[simp] theorem State.setRing_vprogOff (s : State) (n : Nat) (r : Ring) : (s.setRing n r).vprogOff = s.vprogOff := rfl
@[simp] theorem State.setRing_lastWear (s : State) (n : Nat) (r : Ring) : (s.setRing n r).lastWear = s.lastWear := rfl
@[simp] theorem State.setRing_loads (s : State) (n : Nat) (r : Ring) : (s.setRing n r).loads = s.loads := rfl
@[simp] theorem State.setRing_attQueue (s : State) (n : Nat) (r : Ring) : (s.setRing n r).attQueue = s.attQueue := rfl
@[simp] theorem State.setRing_attRuns (s : State) (n : Nat) (r : Ring) : (s.setRing n r).attRuns = s.attRuns := rfl
@[simp] theorem State.setRing_attBusy (s : State) (n : Nat) (r : Ring) : (s.setRing n r).attBusy = s.attBusy := rfl
@[simp] theorem State.setRing_kvCache (s : State) (n : Nat) (r : Ring) : (s.setRing n r).kvCache = s.kvCache := rfl
@[simp] theorem State.setRing_fetches (s : State) (n : Nat) (r : Ring) : (s.setRing n r).fetches = s.fetches := rfl
@[simp] theorem State.setRing_kvUsed (s : State) (n : Nat) (r : Ring) : (s.setRing n r).kvUsed = s.kvUsed := rfl
@[simp] theorem State.setRing_parks (s : State) (n : Nat) (r : Ring) : (s.setRing n r).parks = s.parks := rfl
@[simp] theorem State.setRing_tokenisers (s : State) (n : Nat) (r : Ring) : (s.setRing n r).tokenisers = s.tokenisers := rfl
@[simp] theorem State.setRing_tokWait (s : State) (n : Nat) (r : Ring) : (s.setRing n r).tokWait = s.tokWait := rfl
@[simp] theorem State.setRing_profileCmd (s : State) (n : Nat) (r : Ring) : (s.setRing n r).profileCmd = s.profileCmd := rfl
@[simp] theorem State.setRing_prefillTurn (s : State) (n : Nat) (r : Ring) : (s.setRing n r).prefillTurn = s.prefillTurn := rfl
@[simp] theorem State.setRing_lastBeat (s : State) (n : Nat) (r : Ring) : (s.setRing n r).lastBeat = s.lastBeat := rfl
@[simp] theorem State.setRing_streams (s : State) (n : Nat) (r : Ring) : (s.setRing n r).streams = s.streams := rfl
@[simp] theorem State.setRing_mgmtPort (s : State) (n : Nat) (r : Ring) : (s.setRing n r).mgmtPort = s.mgmtPort := rfl
@[simp] theorem State.setRing_boot (s : State) (n : Nat) (r : Ring) : (s.setRing n r).boot = s.boot := rfl
@[simp] theorem State.setRing_bootGiven (s : State) (n : Nat) (r : Ring) : (s.setRing n r).bootGiven = s.bootGiven := rfl
@[simp] theorem State.setRing_orphans (s : State) (n : Nat) (r : Ring) : (s.setRing n r).orphans = s.orphans := rfl
@[simp] theorem State.setRing_hostLines (s : State) (n : Nat) (r : Ring) : (s.setRing n r).hostLines = s.hostLines := rfl
@[simp] theorem State.setRing_dir (s : State) (n : Nat) (r : Ring) : (s.setRing n r).dir = s.dir := rfl
@[simp] theorem State.setRing_scoreboard (s : State) (n : Nat) (r : Ring) : (s.setRing n r).scoreboard = s.scoreboard := rfl
@[simp] theorem State.setRing_hbmStacks (s : State) (n : Nat) (r : Ring) : (s.setRing n r).hbmStacks = s.hbmStacks := rfl
@[simp] theorem State.setRing_t1Channels (s : State) (n : Nat) (r : Ring) : (s.setRing n r).t1Channels = s.t1Channels := rfl
@[simp] theorem State.setRing_t1ChannelBytes (s : State) (n : Nat) (r : Ring) : (s.setRing n r).t1ChannelBytes = s.t1ChannelBytes := rfl
@[simp] theorem State.setRing_t1Retired (s : State) (n : Nat) (r : Ring) : (s.setRing n r).t1Retired = s.t1Retired := rfl
@[simp] theorem State.setRing_tbStart (s : State) (n : Nat) (r : Ring) : (s.setRing n r).tbStart = s.tbStart := rfl
@[simp] theorem State.setRing_fabOut (s : State) (n : Nat) (r : Ring) : (s.setRing n r).fabOut = s.fabOut := rfl
@[simp] theorem State.setRing_fabNo (s : State) (n : Nat) (r : Ring) : (s.setRing n r).fabNo = s.fabNo := rfl
@[simp] theorem State.setRing_links (s : State) (n : Nat) (r : Ring) : (s.setRing n r).links = s.links := rfl
@[simp] theorem State.setRing_adverts (s : State) (n : Nat) (r : Ring) : (s.setRing n r).adverts = s.adverts := rfl
@[simp] theorem State.setRing_advertSeq (s : State) (n : Nat) (r : Ring) : (s.setRing n r).advertSeq = s.advertSeq := rfl
@[simp] theorem State.setRing_advertAt (s : State) (n : Nat) (r : Ring) : (s.setRing n r).advertAt = s.advertAt := rfl
@[simp] theorem State.setRing_members (s : State) (n : Nat) (r : Ring) : (s.setRing n r).members = s.members := rfl
@[simp] theorem State.setRing_fabIn (s : State) (n : Nat) (r : Ring) : (s.setRing n r).fabIn = s.fabIn := rfl
@[simp] theorem State.setRing_windows (s : State) (n : Nat) (r : Ring) : (s.setRing n r).windows = s.windows := rfl
@[simp] theorem State.setRing_flows (s : State) (n : Nat) (r : Ring) : (s.setRing n r).flows = s.flows := rfl
@[simp] theorem State.setRing_treeMap (s : State) (n : Nat) (r : Ring) : (s.setRing n r).treeMap = s.treeMap := rfl
@[simp] theorem State.setRing_trees (s : State) (n : Nat) (r : Ring) : (s.setRing n r).trees = s.trees := rfl
@[simp] theorem State.setRing_ueTimes (s : State) (n : Nat) (r : Ring) : (s.setRing n r).ueTimes = s.ueTimes := rfl
@[simp] theorem State.setRing_ceTimes (s : State) (n : Nat) (r : Ring) : (s.setRing n r).ceTimes = s.ceTimes := rfl
@[simp] theorem State.setRing_ceSince (s : State) (n : Nat) (r : Ring) : (s.setRing n r).ceSince = s.ceSince := rfl
@[simp] theorem State.setRing_ceLast (s : State) (n : Nat) (r : Ring) : (s.setRing n r).ceLast = s.ceLast := rfl
@[simp] theorem State.setRing_retirePending (s : State) (n : Nat) (r : Ring) : (s.setRing n r).retirePending = s.retirePending := rfl
@[simp] theorem State.setRing_t2Vol (s : State) (n : Nat) (r : Ring) : (s.setRing n r).t2Vol = s.t2Vol := rfl
@[simp] theorem State.setRing_t2Mem (s : State) (n : Nat) (r : Ring) : (s.setRing n r).t2Mem = s.t2Mem := rfl
@[simp] theorem State.setRing_drives (s : State) (n : Nat) (r : Ring) : (s.setRing n r).drives = s.drives := rfl
@[simp] theorem State.setRing_drivesRetired (s : State) (n : Nat) (r : Ring) : (s.setRing n r).drivesRetired = s.drivesRetired := rfl
@[simp] theorem State.setRing_tier2 (s : State) (n : Nat) (r : Ring) : (s.setRing n r).tier2 = s.tier2 := rfl
@[simp] theorem State.setRing_nvmeRetried (s : State) (n : Nat) (r : Ring) : (s.setRing n r).nvmeRetried = s.nvmeRetried := rfl
@[simp] theorem State.setRing_driveReset (s : State) (n : Nat) (r : Ring) : (s.setRing n r).driveReset = s.driveReset := rfl
@[simp] theorem State.setRing_hotUnits (s : State) (n : Nat) (r : Ring) : (s.setRing n r).hotUnits = s.hotUnits := rfl
@[simp] theorem State.setRing_lastLine (s : State) (n : Nat) (r : Ring) : (s.setRing n r).lastLine = s.lastLine := rfl
@[simp] theorem State.setRing_power (s : State) (n : Nat) (r : Ring) : (s.setRing n r).power = s.power := rfl
@[simp] theorem State.setRing_tmons (s : State) (n : Nat) (r : Ring) : (s.setRing n r).tmons = s.tmons := rfl
@[simp] theorem State.setRing_thermal (s : State) (n : Nat) (r : Ring) : (s.setRing n r).thermal = s.thermal := rfl
@[simp] theorem State.setRing_diags (s : State) (n : Nat) (r : Ring) : (s.setRing n r).diags = s.diags := rfl
@[simp] theorem State.setRing_test (s : State) (n : Nat) (r : Ring) : (s.setRing n r).test = s.test := rfl
@[simp] theorem State.setRing_snapDue (s : State) (n : Nat) (r : Ring) : (s.setRing n r).snapDue = s.snapDue := rfl
@[simp] theorem State.setRing_snap (s : State) (n : Nat) (r : Ring) : (s.setRing n r).snap = s.snap := rfl
@[simp] theorem State.setRing_lastEpoch (s : State) (n : Nat) (r : Ring) : (s.setRing n r).lastEpoch = s.lastEpoch := rfl
@[simp] theorem State.setRing_mpBeat (s : State) (n : Nat) (r : Ring) : (s.setRing n r).mpBeat = s.mpBeat := rfl
@[simp] theorem State.setRing_tbHi (s : State) (n : Nat) (r : Ring) : (s.setRing n r).tbHi = s.tbHi := rfl
@[simp] theorem State.setRing_staged (s : State) (n : Nat) (r : Ring) : (s.setRing n r).staged = s.staged := rfl
@[simp] theorem State.setRing_speHold (s : State) (n : Nat) (r : Ring) : (s.setRing n r).speHold = s.speHold := rfl
@[simp] theorem State.setRing_prefillJobs (s : State) (n : Nat) (r : Ring) : (s.setRing n r).prefillJobs = s.prefillJobs := rfl
@[simp] theorem State.setRing_unloads (s : State) (n : Nat) (r : Ring) : (s.setRing n r).unloads = s.unloads := rfl
@[simp] theorem State.setRing_l2 (s : State) (n : Nat) (r : Ring) : (s.setRing n r).l2 = s.l2 := rfl
@[simp] theorem State.setRing_fetchRing (s : State) (n : Nat) (r : Ring) : (s.setRing n r).fetchRing = s.fetchRing := rfl
@[simp] theorem State.setRing_fetchTaken (s : State) (n : Nat) (r : Ring) : (s.setRing n r).fetchTaken = s.fetchTaken := rfl
@[simp] theorem State.setRing_portReads (s : State) (n : Nat) (r : Ring) : (s.setRing n r).portReads = s.portReads := rfl
@[simp] theorem State.setRing_cntAdds (s : State) (n : Nat) (r : Ring) : (s.setRing n r).cntAdds = s.cntAdds := rfl
@[simp] theorem State.setRing_tbDiffs (s : State) (n : Nat) (r : Ring) : (s.setRing n r).tbDiffs = s.tbDiffs := rfl

/-! ### setFn -/

@[simp] theorem State.setFn_pending (s : State) (f : Nat) (r : FnRegs) : (s.setFn f r).pending = s.pending := rfl
@[simp] theorem State.setFn_now (s : State) (f : Nat) (r : FnRegs) : (s.setFn f r).now = s.now := rfl
@[simp] theorem State.setFn_free (s : State) (f : Nat) (r : FnRegs) : (s.setFn f r).free = s.free := rfl
@[simp] theorem State.setFn_nextId (s : State) (f : Nat) (r : FnRegs) : (s.setFn f r).nextId = s.nextId := rfl
@[simp] theorem State.setFn_bar0 (s : State) (f : Nat) (r : FnRegs) : (s.setFn f r).bar0 = s.bar0 := rfl
@[simp] theorem State.setFn_fns (s : State) (f : Nat) (r : FnRegs) : (s.setFn f r).fns = Tab.set FnRegs.reset s.fns f r := rfl
@[simp] theorem State.setFn_lastRead (s : State) (f : Nat) (r : FnRegs) : (s.setFn f r).lastRead = s.lastRead := rfl
@[simp] theorem State.setFn_rings (s : State) (f : Nat) (r : FnRegs) : (s.setFn f r).rings = s.rings := rfl
@[simp] theorem State.setFn_accepted (s : State) (f : Nat) (r : FnRegs) : (s.setFn f r).accepted = s.accepted := rfl
@[simp] theorem State.setFn_eventSeq (s : State) (f : Nat) (r : FnRegs) : (s.setFn f r).eventSeq = s.eventSeq := rfl
@[simp] theorem State.setFn_held (s : State) (f : Nat) (r : FnRegs) : (s.setFn f r).held = s.held := rfl
@[simp] theorem State.setFn_heldLost (s : State) (f : Nat) (r : FnRegs) : (s.setFn f r).heldLost = s.heldLost := rfl
@[simp] theorem State.setFn_hostMem (s : State) (f : Nat) (r : FnRegs) : (s.setFn f r).hostMem = s.hostMem := rfl
@[simp] theorem State.setFn_mem (s : State) (f : Nat) (r : FnRegs) : (s.setFn f r).mem = s.mem := rfl
@[simp] theorem State.setFn_marks (s : State) (f : Nat) (r : FnRegs) : (s.setFn f r).marks = s.marks := rfl
@[simp] theorem State.setFn_counters (s : State) (f : Nat) (r : FnRegs) : (s.setFn f r).counters = s.counters := rfl
@[simp] theorem State.setFn_counterSat (s : State) (f : Nat) (r : FnRegs) : (s.setFn f r).counterSat = s.counterSat := rfl
@[simp] theorem State.setFn_writes (s : State) (f : Nat) (r : FnRegs) : (s.setFn f r).writes = s.writes := rfl
@[simp] theorem State.setFn_engines (s : State) (f : Nat) (r : FnRegs) : (s.setFn f r).engines = s.engines := rfl
@[simp] theorem State.setFn_galleries (s : State) (f : Nat) (r : FnRegs) : (s.setFn f r).galleries = s.galleries := rfl
@[simp] theorem State.setFn_partials (s : State) (f : Nat) (r : FnRegs) : (s.setFn f r).partials = s.partials := rfl
@[simp] theorem State.setFn_powerSteps (s : State) (f : Nat) (r : FnRegs) : (s.setFn f r).powerSteps = s.powerSteps := rfl
@[simp] theorem State.setFn_cells (s : State) (f : Nat) (r : FnRegs) : (s.setFn f r).cells = s.cells := rfl
@[simp] theorem State.setFn_arrays (s : State) (f : Nat) (r : FnRegs) : (s.setFn f r).arrays = s.arrays := rfl
@[simp] theorem State.setFn_nv (s : State) (f : Nat) (r : FnRegs) : (s.setFn f r).nv = s.nv := rfl
@[simp] theorem State.setFn_dme (s : State) (f : Nat) (r : FnRegs) : (s.setFn f r).dme = s.dme := rfl
@[simp] theorem State.setFn_spe (s : State) (f : Nat) (r : FnRegs) : (s.setFn f r).spe = s.spe := rfl
@[simp] theorem State.setFn_contexts (s : State) (f : Nat) (r : FnRegs) : (s.setFn f r).contexts = s.contexts := rfl
@[simp] theorem State.setFn_coreSlow (s : State) (f : Nat) (r : FnRegs) : (s.setFn f r).coreSlow = s.coreSlow := rfl
@[simp] theorem State.setFn_lastMargin (s : State) (f : Nat) (r : FnRegs) : (s.setFn f r).lastMargin = s.lastMargin := rfl
@[simp] theorem State.setFn_windowOpen (s : State) (f : Nat) (r : FnRegs) : (s.setFn f r).windowOpen = s.windowOpen := rfl
@[simp] theorem State.setFn_progActive (s : State) (f : Nat) (r : FnRegs) : (s.setFn f r).progActive = s.progActive := rfl
@[simp] theorem State.setFn_progWait (s : State) (f : Nat) (r : FnRegs) : (s.setFn f r).progWait = s.progWait := rfl
@[simp] theorem State.setFn_progHall (s : State) (f : Nat) (r : FnRegs) : (s.setFn f r).progHall = s.progHall := rfl
@[simp] theorem State.setFn_vprogAt (s : State) (f : Nat) (r : FnRegs) : (s.setFn f r).vprogAt = s.vprogAt := rfl
@[simp] theorem State.setFn_vprogOff (s : State) (f : Nat) (r : FnRegs) : (s.setFn f r).vprogOff = s.vprogOff := rfl
@[simp] theorem State.setFn_lastWear (s : State) (f : Nat) (r : FnRegs) : (s.setFn f r).lastWear = s.lastWear := rfl
@[simp] theorem State.setFn_loads (s : State) (f : Nat) (r : FnRegs) : (s.setFn f r).loads = s.loads := rfl
@[simp] theorem State.setFn_attQueue (s : State) (f : Nat) (r : FnRegs) : (s.setFn f r).attQueue = s.attQueue := rfl
@[simp] theorem State.setFn_attRuns (s : State) (f : Nat) (r : FnRegs) : (s.setFn f r).attRuns = s.attRuns := rfl
@[simp] theorem State.setFn_attBusy (s : State) (f : Nat) (r : FnRegs) : (s.setFn f r).attBusy = s.attBusy := rfl
@[simp] theorem State.setFn_kvCache (s : State) (f : Nat) (r : FnRegs) : (s.setFn f r).kvCache = s.kvCache := rfl
@[simp] theorem State.setFn_fetches (s : State) (f : Nat) (r : FnRegs) : (s.setFn f r).fetches = s.fetches := rfl
@[simp] theorem State.setFn_kvUsed (s : State) (f : Nat) (r : FnRegs) : (s.setFn f r).kvUsed = s.kvUsed := rfl
@[simp] theorem State.setFn_parks (s : State) (f : Nat) (r : FnRegs) : (s.setFn f r).parks = s.parks := rfl
@[simp] theorem State.setFn_tokenisers (s : State) (f : Nat) (r : FnRegs) : (s.setFn f r).tokenisers = s.tokenisers := rfl
@[simp] theorem State.setFn_tokWait (s : State) (f : Nat) (r : FnRegs) : (s.setFn f r).tokWait = s.tokWait := rfl
@[simp] theorem State.setFn_profileCmd (s : State) (f : Nat) (r : FnRegs) : (s.setFn f r).profileCmd = s.profileCmd := rfl
@[simp] theorem State.setFn_prefillTurn (s : State) (f : Nat) (r : FnRegs) : (s.setFn f r).prefillTurn = s.prefillTurn := rfl
@[simp] theorem State.setFn_lastBeat (s : State) (f : Nat) (r : FnRegs) : (s.setFn f r).lastBeat = s.lastBeat := rfl
@[simp] theorem State.setFn_streams (s : State) (f : Nat) (r : FnRegs) : (s.setFn f r).streams = s.streams := rfl
@[simp] theorem State.setFn_mgmtPort (s : State) (f : Nat) (r : FnRegs) : (s.setFn f r).mgmtPort = s.mgmtPort := rfl
@[simp] theorem State.setFn_boot (s : State) (f : Nat) (r : FnRegs) : (s.setFn f r).boot = s.boot := rfl
@[simp] theorem State.setFn_bootGiven (s : State) (f : Nat) (r : FnRegs) : (s.setFn f r).bootGiven = s.bootGiven := rfl
@[simp] theorem State.setFn_orphans (s : State) (f : Nat) (r : FnRegs) : (s.setFn f r).orphans = s.orphans := rfl
@[simp] theorem State.setFn_hostLines (s : State) (f : Nat) (r : FnRegs) : (s.setFn f r).hostLines = s.hostLines := rfl
@[simp] theorem State.setFn_dir (s : State) (f : Nat) (r : FnRegs) : (s.setFn f r).dir = s.dir := rfl
@[simp] theorem State.setFn_scoreboard (s : State) (f : Nat) (r : FnRegs) : (s.setFn f r).scoreboard = s.scoreboard := rfl
@[simp] theorem State.setFn_hbmStacks (s : State) (f : Nat) (r : FnRegs) : (s.setFn f r).hbmStacks = s.hbmStacks := rfl
@[simp] theorem State.setFn_t1Channels (s : State) (f : Nat) (r : FnRegs) : (s.setFn f r).t1Channels = s.t1Channels := rfl
@[simp] theorem State.setFn_t1ChannelBytes (s : State) (f : Nat) (r : FnRegs) : (s.setFn f r).t1ChannelBytes = s.t1ChannelBytes := rfl
@[simp] theorem State.setFn_t1Retired (s : State) (f : Nat) (r : FnRegs) : (s.setFn f r).t1Retired = s.t1Retired := rfl
@[simp] theorem State.setFn_tbStart (s : State) (f : Nat) (r : FnRegs) : (s.setFn f r).tbStart = s.tbStart := rfl
@[simp] theorem State.setFn_fabOut (s : State) (f : Nat) (r : FnRegs) : (s.setFn f r).fabOut = s.fabOut := rfl
@[simp] theorem State.setFn_fabNo (s : State) (f : Nat) (r : FnRegs) : (s.setFn f r).fabNo = s.fabNo := rfl
@[simp] theorem State.setFn_links (s : State) (f : Nat) (r : FnRegs) : (s.setFn f r).links = s.links := rfl
@[simp] theorem State.setFn_adverts (s : State) (f : Nat) (r : FnRegs) : (s.setFn f r).adverts = s.adverts := rfl
@[simp] theorem State.setFn_advertSeq (s : State) (f : Nat) (r : FnRegs) : (s.setFn f r).advertSeq = s.advertSeq := rfl
@[simp] theorem State.setFn_advertAt (s : State) (f : Nat) (r : FnRegs) : (s.setFn f r).advertAt = s.advertAt := rfl
@[simp] theorem State.setFn_members (s : State) (f : Nat) (r : FnRegs) : (s.setFn f r).members = s.members := rfl
@[simp] theorem State.setFn_fabIn (s : State) (f : Nat) (r : FnRegs) : (s.setFn f r).fabIn = s.fabIn := rfl
@[simp] theorem State.setFn_windows (s : State) (f : Nat) (r : FnRegs) : (s.setFn f r).windows = s.windows := rfl
@[simp] theorem State.setFn_flows (s : State) (f : Nat) (r : FnRegs) : (s.setFn f r).flows = s.flows := rfl
@[simp] theorem State.setFn_treeMap (s : State) (f : Nat) (r : FnRegs) : (s.setFn f r).treeMap = s.treeMap := rfl
@[simp] theorem State.setFn_trees (s : State) (f : Nat) (r : FnRegs) : (s.setFn f r).trees = s.trees := rfl
@[simp] theorem State.setFn_ueTimes (s : State) (f : Nat) (r : FnRegs) : (s.setFn f r).ueTimes = s.ueTimes := rfl
@[simp] theorem State.setFn_ceTimes (s : State) (f : Nat) (r : FnRegs) : (s.setFn f r).ceTimes = s.ceTimes := rfl
@[simp] theorem State.setFn_ceSince (s : State) (f : Nat) (r : FnRegs) : (s.setFn f r).ceSince = s.ceSince := rfl
@[simp] theorem State.setFn_ceLast (s : State) (f : Nat) (r : FnRegs) : (s.setFn f r).ceLast = s.ceLast := rfl
@[simp] theorem State.setFn_retirePending (s : State) (f : Nat) (r : FnRegs) : (s.setFn f r).retirePending = s.retirePending := rfl
@[simp] theorem State.setFn_t2Vol (s : State) (f : Nat) (r : FnRegs) : (s.setFn f r).t2Vol = s.t2Vol := rfl
@[simp] theorem State.setFn_t2Mem (s : State) (f : Nat) (r : FnRegs) : (s.setFn f r).t2Mem = s.t2Mem := rfl
@[simp] theorem State.setFn_drives (s : State) (f : Nat) (r : FnRegs) : (s.setFn f r).drives = s.drives := rfl
@[simp] theorem State.setFn_drivesRetired (s : State) (f : Nat) (r : FnRegs) : (s.setFn f r).drivesRetired = s.drivesRetired := rfl
@[simp] theorem State.setFn_tier2 (s : State) (f : Nat) (r : FnRegs) : (s.setFn f r).tier2 = s.tier2 := rfl
@[simp] theorem State.setFn_nvmeRetried (s : State) (f : Nat) (r : FnRegs) : (s.setFn f r).nvmeRetried = s.nvmeRetried := rfl
@[simp] theorem State.setFn_driveReset (s : State) (f : Nat) (r : FnRegs) : (s.setFn f r).driveReset = s.driveReset := rfl
@[simp] theorem State.setFn_hotUnits (s : State) (f : Nat) (r : FnRegs) : (s.setFn f r).hotUnits = s.hotUnits := rfl
@[simp] theorem State.setFn_lastLine (s : State) (f : Nat) (r : FnRegs) : (s.setFn f r).lastLine = s.lastLine := rfl
@[simp] theorem State.setFn_power (s : State) (f : Nat) (r : FnRegs) : (s.setFn f r).power = s.power := rfl
@[simp] theorem State.setFn_tmons (s : State) (f : Nat) (r : FnRegs) : (s.setFn f r).tmons = s.tmons := rfl
@[simp] theorem State.setFn_thermal (s : State) (f : Nat) (r : FnRegs) : (s.setFn f r).thermal = s.thermal := rfl
@[simp] theorem State.setFn_diags (s : State) (f : Nat) (r : FnRegs) : (s.setFn f r).diags = s.diags := rfl
@[simp] theorem State.setFn_test (s : State) (f : Nat) (r : FnRegs) : (s.setFn f r).test = s.test := rfl
@[simp] theorem State.setFn_snapDue (s : State) (f : Nat) (r : FnRegs) : (s.setFn f r).snapDue = s.snapDue := rfl
@[simp] theorem State.setFn_snap (s : State) (f : Nat) (r : FnRegs) : (s.setFn f r).snap = s.snap := rfl
@[simp] theorem State.setFn_lastEpoch (s : State) (f : Nat) (r : FnRegs) : (s.setFn f r).lastEpoch = s.lastEpoch := rfl
@[simp] theorem State.setFn_mpBeat (s : State) (f : Nat) (r : FnRegs) : (s.setFn f r).mpBeat = s.mpBeat := rfl
@[simp] theorem State.setFn_tbHi (s : State) (f : Nat) (r : FnRegs) : (s.setFn f r).tbHi = s.tbHi := rfl
@[simp] theorem State.setFn_staged (s : State) (f : Nat) (r : FnRegs) : (s.setFn f r).staged = s.staged := rfl
@[simp] theorem State.setFn_speHold (s : State) (f : Nat) (r : FnRegs) : (s.setFn f r).speHold = s.speHold := rfl
@[simp] theorem State.setFn_prefillJobs (s : State) (f : Nat) (r : FnRegs) : (s.setFn f r).prefillJobs = s.prefillJobs := rfl
@[simp] theorem State.setFn_unloads (s : State) (f : Nat) (r : FnRegs) : (s.setFn f r).unloads = s.unloads := rfl
@[simp] theorem State.setFn_l2 (s : State) (f : Nat) (r : FnRegs) : (s.setFn f r).l2 = s.l2 := rfl
@[simp] theorem State.setFn_fetchRing (s : State) (f : Nat) (r : FnRegs) : (s.setFn f r).fetchRing = s.fetchRing := rfl
@[simp] theorem State.setFn_fetchTaken (s : State) (f : Nat) (r : FnRegs) : (s.setFn f r).fetchTaken = s.fetchTaken := rfl
@[simp] theorem State.setFn_portReads (s : State) (f : Nat) (r : FnRegs) : (s.setFn f r).portReads = s.portReads := rfl
@[simp] theorem State.setFn_cntAdds (s : State) (f : Nat) (r : FnRegs) : (s.setFn f r).cntAdds = s.cntAdds := rfl
@[simp] theorem State.setFn_tbDiffs (s : State) (f : Nat) (r : FnRegs) : (s.setFn f r).tbDiffs = s.tbDiffs := rfl

/-! ### setStream -/

@[simp] theorem State.setStream_pending (s : State) (n : Nat) (x : Stream) : (s.setStream n x).pending = s.pending := rfl
@[simp] theorem State.setStream_now (s : State) (n : Nat) (x : Stream) : (s.setStream n x).now = s.now := rfl
@[simp] theorem State.setStream_free (s : State) (n : Nat) (x : Stream) : (s.setStream n x).free = s.free := rfl
@[simp] theorem State.setStream_nextId (s : State) (n : Nat) (x : Stream) : (s.setStream n x).nextId = s.nextId := rfl
@[simp] theorem State.setStream_bar0 (s : State) (n : Nat) (x : Stream) : (s.setStream n x).bar0 = s.bar0 := rfl
@[simp] theorem State.setStream_fns (s : State) (n : Nat) (x : Stream) : (s.setStream n x).fns = s.fns := rfl
@[simp] theorem State.setStream_lastRead (s : State) (n : Nat) (x : Stream) : (s.setStream n x).lastRead = s.lastRead := rfl
@[simp] theorem State.setStream_rings (s : State) (n : Nat) (x : Stream) : (s.setStream n x).rings = s.rings := rfl
@[simp] theorem State.setStream_accepted (s : State) (n : Nat) (x : Stream) : (s.setStream n x).accepted = s.accepted := rfl
@[simp] theorem State.setStream_eventSeq (s : State) (n : Nat) (x : Stream) : (s.setStream n x).eventSeq = s.eventSeq := rfl
@[simp] theorem State.setStream_held (s : State) (n : Nat) (x : Stream) : (s.setStream n x).held = s.held := rfl
@[simp] theorem State.setStream_heldLost (s : State) (n : Nat) (x : Stream) : (s.setStream n x).heldLost = s.heldLost := rfl
@[simp] theorem State.setStream_hostMem (s : State) (n : Nat) (x : Stream) : (s.setStream n x).hostMem = s.hostMem := rfl
@[simp] theorem State.setStream_mem (s : State) (n : Nat) (x : Stream) : (s.setStream n x).mem = s.mem := rfl
@[simp] theorem State.setStream_marks (s : State) (n : Nat) (x : Stream) : (s.setStream n x).marks = s.marks := rfl
@[simp] theorem State.setStream_counters (s : State) (n : Nat) (x : Stream) : (s.setStream n x).counters = s.counters := rfl
@[simp] theorem State.setStream_counterSat (s : State) (n : Nat) (x : Stream) : (s.setStream n x).counterSat = s.counterSat := rfl
@[simp] theorem State.setStream_writes (s : State) (n : Nat) (x : Stream) : (s.setStream n x).writes = s.writes := rfl
@[simp] theorem State.setStream_engines (s : State) (n : Nat) (x : Stream) : (s.setStream n x).engines = s.engines := rfl
@[simp] theorem State.setStream_galleries (s : State) (n : Nat) (x : Stream) : (s.setStream n x).galleries = s.galleries := rfl
@[simp] theorem State.setStream_partials (s : State) (n : Nat) (x : Stream) : (s.setStream n x).partials = s.partials := rfl
@[simp] theorem State.setStream_powerSteps (s : State) (n : Nat) (x : Stream) : (s.setStream n x).powerSteps = s.powerSteps := rfl
@[simp] theorem State.setStream_cells (s : State) (n : Nat) (x : Stream) : (s.setStream n x).cells = s.cells := rfl
@[simp] theorem State.setStream_arrays (s : State) (n : Nat) (x : Stream) : (s.setStream n x).arrays = s.arrays := rfl
@[simp] theorem State.setStream_nv (s : State) (n : Nat) (x : Stream) : (s.setStream n x).nv = s.nv := rfl
@[simp] theorem State.setStream_dme (s : State) (n : Nat) (x : Stream) : (s.setStream n x).dme = s.dme := rfl
@[simp] theorem State.setStream_spe (s : State) (n : Nat) (x : Stream) : (s.setStream n x).spe = s.spe := rfl
@[simp] theorem State.setStream_contexts (s : State) (n : Nat) (x : Stream) : (s.setStream n x).contexts = s.contexts := rfl
@[simp] theorem State.setStream_coreSlow (s : State) (n : Nat) (x : Stream) : (s.setStream n x).coreSlow = s.coreSlow := rfl
@[simp] theorem State.setStream_lastMargin (s : State) (n : Nat) (x : Stream) : (s.setStream n x).lastMargin = s.lastMargin := rfl
@[simp] theorem State.setStream_windowOpen (s : State) (n : Nat) (x : Stream) : (s.setStream n x).windowOpen = s.windowOpen := rfl
@[simp] theorem State.setStream_progActive (s : State) (n : Nat) (x : Stream) : (s.setStream n x).progActive = s.progActive := rfl
@[simp] theorem State.setStream_progWait (s : State) (n : Nat) (x : Stream) : (s.setStream n x).progWait = s.progWait := rfl
@[simp] theorem State.setStream_progHall (s : State) (n : Nat) (x : Stream) : (s.setStream n x).progHall = s.progHall := rfl
@[simp] theorem State.setStream_vprogAt (s : State) (n : Nat) (x : Stream) : (s.setStream n x).vprogAt = s.vprogAt := rfl
@[simp] theorem State.setStream_vprogOff (s : State) (n : Nat) (x : Stream) : (s.setStream n x).vprogOff = s.vprogOff := rfl
@[simp] theorem State.setStream_lastWear (s : State) (n : Nat) (x : Stream) : (s.setStream n x).lastWear = s.lastWear := rfl
@[simp] theorem State.setStream_loads (s : State) (n : Nat) (x : Stream) : (s.setStream n x).loads = s.loads := rfl
@[simp] theorem State.setStream_attQueue (s : State) (n : Nat) (x : Stream) : (s.setStream n x).attQueue = s.attQueue := rfl
@[simp] theorem State.setStream_attRuns (s : State) (n : Nat) (x : Stream) : (s.setStream n x).attRuns = s.attRuns := rfl
@[simp] theorem State.setStream_attBusy (s : State) (n : Nat) (x : Stream) : (s.setStream n x).attBusy = s.attBusy := rfl
@[simp] theorem State.setStream_kvCache (s : State) (n : Nat) (x : Stream) : (s.setStream n x).kvCache = s.kvCache := rfl
@[simp] theorem State.setStream_fetches (s : State) (n : Nat) (x : Stream) : (s.setStream n x).fetches = s.fetches := rfl
@[simp] theorem State.setStream_kvUsed (s : State) (n : Nat) (x : Stream) : (s.setStream n x).kvUsed = s.kvUsed := rfl
@[simp] theorem State.setStream_parks (s : State) (n : Nat) (x : Stream) : (s.setStream n x).parks = s.parks := rfl
@[simp] theorem State.setStream_tokenisers (s : State) (n : Nat) (x : Stream) : (s.setStream n x).tokenisers = s.tokenisers := rfl
@[simp] theorem State.setStream_tokWait (s : State) (n : Nat) (x : Stream) : (s.setStream n x).tokWait = s.tokWait := rfl
@[simp] theorem State.setStream_profileCmd (s : State) (n : Nat) (x : Stream) : (s.setStream n x).profileCmd = s.profileCmd := rfl
@[simp] theorem State.setStream_prefillTurn (s : State) (n : Nat) (x : Stream) : (s.setStream n x).prefillTurn = s.prefillTurn := rfl
@[simp] theorem State.setStream_lastBeat (s : State) (n : Nat) (x : Stream) : (s.setStream n x).lastBeat = s.lastBeat := rfl
@[simp] theorem State.setStream_streams (s : State) (n : Nat) (x : Stream) : (s.setStream n x).streams = Tab.set Stream.reset s.streams n x := rfl
@[simp] theorem State.setStream_mgmtPort (s : State) (n : Nat) (x : Stream) : (s.setStream n x).mgmtPort = s.mgmtPort := rfl
@[simp] theorem State.setStream_boot (s : State) (n : Nat) (x : Stream) : (s.setStream n x).boot = s.boot := rfl
@[simp] theorem State.setStream_bootGiven (s : State) (n : Nat) (x : Stream) : (s.setStream n x).bootGiven = s.bootGiven := rfl
@[simp] theorem State.setStream_orphans (s : State) (n : Nat) (x : Stream) : (s.setStream n x).orphans = s.orphans := rfl
@[simp] theorem State.setStream_hostLines (s : State) (n : Nat) (x : Stream) : (s.setStream n x).hostLines = s.hostLines := rfl
@[simp] theorem State.setStream_dir (s : State) (n : Nat) (x : Stream) : (s.setStream n x).dir = s.dir := rfl
@[simp] theorem State.setStream_scoreboard (s : State) (n : Nat) (x : Stream) : (s.setStream n x).scoreboard = s.scoreboard := rfl
@[simp] theorem State.setStream_hbmStacks (s : State) (n : Nat) (x : Stream) : (s.setStream n x).hbmStacks = s.hbmStacks := rfl
@[simp] theorem State.setStream_t1Channels (s : State) (n : Nat) (x : Stream) : (s.setStream n x).t1Channels = s.t1Channels := rfl
@[simp] theorem State.setStream_t1ChannelBytes (s : State) (n : Nat) (x : Stream) : (s.setStream n x).t1ChannelBytes = s.t1ChannelBytes := rfl
@[simp] theorem State.setStream_t1Retired (s : State) (n : Nat) (x : Stream) : (s.setStream n x).t1Retired = s.t1Retired := rfl
@[simp] theorem State.setStream_tbStart (s : State) (n : Nat) (x : Stream) : (s.setStream n x).tbStart = s.tbStart := rfl
@[simp] theorem State.setStream_fabOut (s : State) (n : Nat) (x : Stream) : (s.setStream n x).fabOut = s.fabOut := rfl
@[simp] theorem State.setStream_fabNo (s : State) (n : Nat) (x : Stream) : (s.setStream n x).fabNo = s.fabNo := rfl
@[simp] theorem State.setStream_links (s : State) (n : Nat) (x : Stream) : (s.setStream n x).links = s.links := rfl
@[simp] theorem State.setStream_adverts (s : State) (n : Nat) (x : Stream) : (s.setStream n x).adverts = s.adverts := rfl
@[simp] theorem State.setStream_advertSeq (s : State) (n : Nat) (x : Stream) : (s.setStream n x).advertSeq = s.advertSeq := rfl
@[simp] theorem State.setStream_advertAt (s : State) (n : Nat) (x : Stream) : (s.setStream n x).advertAt = s.advertAt := rfl
@[simp] theorem State.setStream_members (s : State) (n : Nat) (x : Stream) : (s.setStream n x).members = s.members := rfl
@[simp] theorem State.setStream_fabIn (s : State) (n : Nat) (x : Stream) : (s.setStream n x).fabIn = s.fabIn := rfl
@[simp] theorem State.setStream_windows (s : State) (n : Nat) (x : Stream) : (s.setStream n x).windows = s.windows := rfl
@[simp] theorem State.setStream_flows (s : State) (n : Nat) (x : Stream) : (s.setStream n x).flows = s.flows := rfl
@[simp] theorem State.setStream_treeMap (s : State) (n : Nat) (x : Stream) : (s.setStream n x).treeMap = s.treeMap := rfl
@[simp] theorem State.setStream_trees (s : State) (n : Nat) (x : Stream) : (s.setStream n x).trees = s.trees := rfl
@[simp] theorem State.setStream_ueTimes (s : State) (n : Nat) (x : Stream) : (s.setStream n x).ueTimes = s.ueTimes := rfl
@[simp] theorem State.setStream_ceTimes (s : State) (n : Nat) (x : Stream) : (s.setStream n x).ceTimes = s.ceTimes := rfl
@[simp] theorem State.setStream_ceSince (s : State) (n : Nat) (x : Stream) : (s.setStream n x).ceSince = s.ceSince := rfl
@[simp] theorem State.setStream_ceLast (s : State) (n : Nat) (x : Stream) : (s.setStream n x).ceLast = s.ceLast := rfl
@[simp] theorem State.setStream_retirePending (s : State) (n : Nat) (x : Stream) : (s.setStream n x).retirePending = s.retirePending := rfl
@[simp] theorem State.setStream_t2Vol (s : State) (n : Nat) (x : Stream) : (s.setStream n x).t2Vol = s.t2Vol := rfl
@[simp] theorem State.setStream_t2Mem (s : State) (n : Nat) (x : Stream) : (s.setStream n x).t2Mem = s.t2Mem := rfl
@[simp] theorem State.setStream_drives (s : State) (n : Nat) (x : Stream) : (s.setStream n x).drives = s.drives := rfl
@[simp] theorem State.setStream_drivesRetired (s : State) (n : Nat) (x : Stream) : (s.setStream n x).drivesRetired = s.drivesRetired := rfl
@[simp] theorem State.setStream_tier2 (s : State) (n : Nat) (x : Stream) : (s.setStream n x).tier2 = s.tier2 := rfl
@[simp] theorem State.setStream_nvmeRetried (s : State) (n : Nat) (x : Stream) : (s.setStream n x).nvmeRetried = s.nvmeRetried := rfl
@[simp] theorem State.setStream_driveReset (s : State) (n : Nat) (x : Stream) : (s.setStream n x).driveReset = s.driveReset := rfl
@[simp] theorem State.setStream_hotUnits (s : State) (n : Nat) (x : Stream) : (s.setStream n x).hotUnits = s.hotUnits := rfl
@[simp] theorem State.setStream_lastLine (s : State) (n : Nat) (x : Stream) : (s.setStream n x).lastLine = s.lastLine := rfl
@[simp] theorem State.setStream_power (s : State) (n : Nat) (x : Stream) : (s.setStream n x).power = s.power := rfl
@[simp] theorem State.setStream_tmons (s : State) (n : Nat) (x : Stream) : (s.setStream n x).tmons = s.tmons := rfl
@[simp] theorem State.setStream_thermal (s : State) (n : Nat) (x : Stream) : (s.setStream n x).thermal = s.thermal := rfl
@[simp] theorem State.setStream_diags (s : State) (n : Nat) (x : Stream) : (s.setStream n x).diags = s.diags := rfl
@[simp] theorem State.setStream_test (s : State) (n : Nat) (x : Stream) : (s.setStream n x).test = s.test := rfl
@[simp] theorem State.setStream_snapDue (s : State) (n : Nat) (x : Stream) : (s.setStream n x).snapDue = s.snapDue := rfl
@[simp] theorem State.setStream_snap (s : State) (n : Nat) (x : Stream) : (s.setStream n x).snap = s.snap := rfl
@[simp] theorem State.setStream_lastEpoch (s : State) (n : Nat) (x : Stream) : (s.setStream n x).lastEpoch = s.lastEpoch := rfl
@[simp] theorem State.setStream_mpBeat (s : State) (n : Nat) (x : Stream) : (s.setStream n x).mpBeat = s.mpBeat := rfl
@[simp] theorem State.setStream_tbHi (s : State) (n : Nat) (x : Stream) : (s.setStream n x).tbHi = s.tbHi := rfl
@[simp] theorem State.setStream_staged (s : State) (n : Nat) (x : Stream) : (s.setStream n x).staged = s.staged := rfl
@[simp] theorem State.setStream_speHold (s : State) (n : Nat) (x : Stream) : (s.setStream n x).speHold = s.speHold := rfl
@[simp] theorem State.setStream_prefillJobs (s : State) (n : Nat) (x : Stream) : (s.setStream n x).prefillJobs = s.prefillJobs := rfl
@[simp] theorem State.setStream_unloads (s : State) (n : Nat) (x : Stream) : (s.setStream n x).unloads = s.unloads := rfl
@[simp] theorem State.setStream_l2 (s : State) (n : Nat) (x : Stream) : (s.setStream n x).l2 = s.l2 := rfl
@[simp] theorem State.setStream_fetchRing (s : State) (n : Nat) (x : Stream) : (s.setStream n x).fetchRing = s.fetchRing := rfl
@[simp] theorem State.setStream_fetchTaken (s : State) (n : Nat) (x : Stream) : (s.setStream n x).fetchTaken = s.fetchTaken := rfl
@[simp] theorem State.setStream_portReads (s : State) (n : Nat) (x : Stream) : (s.setStream n x).portReads = s.portReads := rfl
@[simp] theorem State.setStream_cntAdds (s : State) (n : Nat) (x : Stream) : (s.setStream n x).cntAdds = s.cntAdds := rfl
@[simp] theorem State.setStream_tbDiffs (s : State) (n : Nat) (x : Stream) : (s.setStream n x).tbDiffs = s.tbDiffs := rfl

/-! ### setCtx -/

@[simp] theorem State.setCtx_pending (s : State) (c : Nat) (x : Context) : (s.setCtx c x).pending = s.pending := rfl
@[simp] theorem State.setCtx_now (s : State) (c : Nat) (x : Context) : (s.setCtx c x).now = s.now := rfl
@[simp] theorem State.setCtx_free (s : State) (c : Nat) (x : Context) : (s.setCtx c x).free = s.free := rfl
@[simp] theorem State.setCtx_nextId (s : State) (c : Nat) (x : Context) : (s.setCtx c x).nextId = s.nextId := rfl
@[simp] theorem State.setCtx_bar0 (s : State) (c : Nat) (x : Context) : (s.setCtx c x).bar0 = s.bar0 := rfl
@[simp] theorem State.setCtx_fns (s : State) (c : Nat) (x : Context) : (s.setCtx c x).fns = s.fns := rfl
@[simp] theorem State.setCtx_lastRead (s : State) (c : Nat) (x : Context) : (s.setCtx c x).lastRead = s.lastRead := rfl
@[simp] theorem State.setCtx_rings (s : State) (c : Nat) (x : Context) : (s.setCtx c x).rings = s.rings := rfl
@[simp] theorem State.setCtx_accepted (s : State) (c : Nat) (x : Context) : (s.setCtx c x).accepted = s.accepted := rfl
@[simp] theorem State.setCtx_eventSeq (s : State) (c : Nat) (x : Context) : (s.setCtx c x).eventSeq = s.eventSeq := rfl
@[simp] theorem State.setCtx_held (s : State) (c : Nat) (x : Context) : (s.setCtx c x).held = s.held := rfl
@[simp] theorem State.setCtx_heldLost (s : State) (c : Nat) (x : Context) : (s.setCtx c x).heldLost = s.heldLost := rfl
@[simp] theorem State.setCtx_hostMem (s : State) (c : Nat) (x : Context) : (s.setCtx c x).hostMem = s.hostMem := rfl
@[simp] theorem State.setCtx_mem (s : State) (c : Nat) (x : Context) : (s.setCtx c x).mem = s.mem := rfl
@[simp] theorem State.setCtx_marks (s : State) (c : Nat) (x : Context) : (s.setCtx c x).marks = s.marks := rfl
@[simp] theorem State.setCtx_counters (s : State) (c : Nat) (x : Context) : (s.setCtx c x).counters = s.counters := rfl
@[simp] theorem State.setCtx_counterSat (s : State) (c : Nat) (x : Context) : (s.setCtx c x).counterSat = s.counterSat := rfl
@[simp] theorem State.setCtx_writes (s : State) (c : Nat) (x : Context) : (s.setCtx c x).writes = s.writes := rfl
@[simp] theorem State.setCtx_engines (s : State) (c : Nat) (x : Context) : (s.setCtx c x).engines = s.engines := rfl
@[simp] theorem State.setCtx_galleries (s : State) (c : Nat) (x : Context) : (s.setCtx c x).galleries = s.galleries := rfl
@[simp] theorem State.setCtx_partials (s : State) (c : Nat) (x : Context) : (s.setCtx c x).partials = s.partials := rfl
@[simp] theorem State.setCtx_powerSteps (s : State) (c : Nat) (x : Context) : (s.setCtx c x).powerSteps = s.powerSteps := rfl
@[simp] theorem State.setCtx_cells (s : State) (c : Nat) (x : Context) : (s.setCtx c x).cells = s.cells := rfl
@[simp] theorem State.setCtx_arrays (s : State) (c : Nat) (x : Context) : (s.setCtx c x).arrays = s.arrays := rfl
@[simp] theorem State.setCtx_nv (s : State) (c : Nat) (x : Context) : (s.setCtx c x).nv = s.nv := rfl
@[simp] theorem State.setCtx_dme (s : State) (c : Nat) (x : Context) : (s.setCtx c x).dme = s.dme := rfl
@[simp] theorem State.setCtx_spe (s : State) (c : Nat) (x : Context) : (s.setCtx c x).spe = s.spe := rfl
@[simp] theorem State.setCtx_contexts (s : State) (c : Nat) (x : Context) : (s.setCtx c x).contexts = Tab.set Context.reset s.contexts c x := rfl
@[simp] theorem State.setCtx_coreSlow (s : State) (c : Nat) (x : Context) : (s.setCtx c x).coreSlow = s.coreSlow := rfl
@[simp] theorem State.setCtx_lastMargin (s : State) (c : Nat) (x : Context) : (s.setCtx c x).lastMargin = s.lastMargin := rfl
@[simp] theorem State.setCtx_windowOpen (s : State) (c : Nat) (x : Context) : (s.setCtx c x).windowOpen = s.windowOpen := rfl
@[simp] theorem State.setCtx_progActive (s : State) (c : Nat) (x : Context) : (s.setCtx c x).progActive = s.progActive := rfl
@[simp] theorem State.setCtx_progWait (s : State) (c : Nat) (x : Context) : (s.setCtx c x).progWait = s.progWait := rfl
@[simp] theorem State.setCtx_progHall (s : State) (c : Nat) (x : Context) : (s.setCtx c x).progHall = s.progHall := rfl
@[simp] theorem State.setCtx_vprogAt (s : State) (c : Nat) (x : Context) : (s.setCtx c x).vprogAt = s.vprogAt := rfl
@[simp] theorem State.setCtx_vprogOff (s : State) (c : Nat) (x : Context) : (s.setCtx c x).vprogOff = s.vprogOff := rfl
@[simp] theorem State.setCtx_lastWear (s : State) (c : Nat) (x : Context) : (s.setCtx c x).lastWear = s.lastWear := rfl
@[simp] theorem State.setCtx_loads (s : State) (c : Nat) (x : Context) : (s.setCtx c x).loads = s.loads := rfl
@[simp] theorem State.setCtx_attQueue (s : State) (c : Nat) (x : Context) : (s.setCtx c x).attQueue = s.attQueue := rfl
@[simp] theorem State.setCtx_attRuns (s : State) (c : Nat) (x : Context) : (s.setCtx c x).attRuns = s.attRuns := rfl
@[simp] theorem State.setCtx_attBusy (s : State) (c : Nat) (x : Context) : (s.setCtx c x).attBusy = s.attBusy := rfl
@[simp] theorem State.setCtx_kvCache (s : State) (c : Nat) (x : Context) : (s.setCtx c x).kvCache = s.kvCache := rfl
@[simp] theorem State.setCtx_fetches (s : State) (c : Nat) (x : Context) : (s.setCtx c x).fetches = s.fetches := rfl
@[simp] theorem State.setCtx_kvUsed (s : State) (c : Nat) (x : Context) : (s.setCtx c x).kvUsed = s.kvUsed := rfl
@[simp] theorem State.setCtx_parks (s : State) (c : Nat) (x : Context) : (s.setCtx c x).parks = s.parks := rfl
@[simp] theorem State.setCtx_tokenisers (s : State) (c : Nat) (x : Context) : (s.setCtx c x).tokenisers = s.tokenisers := rfl
@[simp] theorem State.setCtx_tokWait (s : State) (c : Nat) (x : Context) : (s.setCtx c x).tokWait = s.tokWait := rfl
@[simp] theorem State.setCtx_profileCmd (s : State) (c : Nat) (x : Context) : (s.setCtx c x).profileCmd = s.profileCmd := rfl
@[simp] theorem State.setCtx_prefillTurn (s : State) (c : Nat) (x : Context) : (s.setCtx c x).prefillTurn = s.prefillTurn := rfl
@[simp] theorem State.setCtx_lastBeat (s : State) (c : Nat) (x : Context) : (s.setCtx c x).lastBeat = s.lastBeat := rfl
@[simp] theorem State.setCtx_streams (s : State) (c : Nat) (x : Context) : (s.setCtx c x).streams = s.streams := rfl
@[simp] theorem State.setCtx_mgmtPort (s : State) (c : Nat) (x : Context) : (s.setCtx c x).mgmtPort = s.mgmtPort := rfl
@[simp] theorem State.setCtx_boot (s : State) (c : Nat) (x : Context) : (s.setCtx c x).boot = s.boot := rfl
@[simp] theorem State.setCtx_bootGiven (s : State) (c : Nat) (x : Context) : (s.setCtx c x).bootGiven = s.bootGiven := rfl
@[simp] theorem State.setCtx_orphans (s : State) (c : Nat) (x : Context) : (s.setCtx c x).orphans = s.orphans := rfl
@[simp] theorem State.setCtx_hostLines (s : State) (c : Nat) (x : Context) : (s.setCtx c x).hostLines = s.hostLines := rfl
@[simp] theorem State.setCtx_dir (s : State) (c : Nat) (x : Context) : (s.setCtx c x).dir = s.dir := rfl
@[simp] theorem State.setCtx_scoreboard (s : State) (c : Nat) (x : Context) : (s.setCtx c x).scoreboard = s.scoreboard := rfl
@[simp] theorem State.setCtx_hbmStacks (s : State) (c : Nat) (x : Context) : (s.setCtx c x).hbmStacks = s.hbmStacks := rfl
@[simp] theorem State.setCtx_t1Channels (s : State) (c : Nat) (x : Context) : (s.setCtx c x).t1Channels = s.t1Channels := rfl
@[simp] theorem State.setCtx_t1ChannelBytes (s : State) (c : Nat) (x : Context) : (s.setCtx c x).t1ChannelBytes = s.t1ChannelBytes := rfl
@[simp] theorem State.setCtx_t1Retired (s : State) (c : Nat) (x : Context) : (s.setCtx c x).t1Retired = s.t1Retired := rfl
@[simp] theorem State.setCtx_tbStart (s : State) (c : Nat) (x : Context) : (s.setCtx c x).tbStart = s.tbStart := rfl
@[simp] theorem State.setCtx_fabOut (s : State) (c : Nat) (x : Context) : (s.setCtx c x).fabOut = s.fabOut := rfl
@[simp] theorem State.setCtx_fabNo (s : State) (c : Nat) (x : Context) : (s.setCtx c x).fabNo = s.fabNo := rfl
@[simp] theorem State.setCtx_links (s : State) (c : Nat) (x : Context) : (s.setCtx c x).links = s.links := rfl
@[simp] theorem State.setCtx_adverts (s : State) (c : Nat) (x : Context) : (s.setCtx c x).adverts = s.adverts := rfl
@[simp] theorem State.setCtx_advertSeq (s : State) (c : Nat) (x : Context) : (s.setCtx c x).advertSeq = s.advertSeq := rfl
@[simp] theorem State.setCtx_advertAt (s : State) (c : Nat) (x : Context) : (s.setCtx c x).advertAt = s.advertAt := rfl
@[simp] theorem State.setCtx_members (s : State) (c : Nat) (x : Context) : (s.setCtx c x).members = s.members := rfl
@[simp] theorem State.setCtx_fabIn (s : State) (c : Nat) (x : Context) : (s.setCtx c x).fabIn = s.fabIn := rfl
@[simp] theorem State.setCtx_windows (s : State) (c : Nat) (x : Context) : (s.setCtx c x).windows = s.windows := rfl
@[simp] theorem State.setCtx_flows (s : State) (c : Nat) (x : Context) : (s.setCtx c x).flows = s.flows := rfl
@[simp] theorem State.setCtx_treeMap (s : State) (c : Nat) (x : Context) : (s.setCtx c x).treeMap = s.treeMap := rfl
@[simp] theorem State.setCtx_trees (s : State) (c : Nat) (x : Context) : (s.setCtx c x).trees = s.trees := rfl
@[simp] theorem State.setCtx_ueTimes (s : State) (c : Nat) (x : Context) : (s.setCtx c x).ueTimes = s.ueTimes := rfl
@[simp] theorem State.setCtx_ceTimes (s : State) (c : Nat) (x : Context) : (s.setCtx c x).ceTimes = s.ceTimes := rfl
@[simp] theorem State.setCtx_ceSince (s : State) (c : Nat) (x : Context) : (s.setCtx c x).ceSince = s.ceSince := rfl
@[simp] theorem State.setCtx_ceLast (s : State) (c : Nat) (x : Context) : (s.setCtx c x).ceLast = s.ceLast := rfl
@[simp] theorem State.setCtx_retirePending (s : State) (c : Nat) (x : Context) : (s.setCtx c x).retirePending = s.retirePending := rfl
@[simp] theorem State.setCtx_t2Vol (s : State) (c : Nat) (x : Context) : (s.setCtx c x).t2Vol = s.t2Vol := rfl
@[simp] theorem State.setCtx_t2Mem (s : State) (c : Nat) (x : Context) : (s.setCtx c x).t2Mem = s.t2Mem := rfl
@[simp] theorem State.setCtx_drives (s : State) (c : Nat) (x : Context) : (s.setCtx c x).drives = s.drives := rfl
@[simp] theorem State.setCtx_drivesRetired (s : State) (c : Nat) (x : Context) : (s.setCtx c x).drivesRetired = s.drivesRetired := rfl
@[simp] theorem State.setCtx_tier2 (s : State) (c : Nat) (x : Context) : (s.setCtx c x).tier2 = s.tier2 := rfl
@[simp] theorem State.setCtx_nvmeRetried (s : State) (c : Nat) (x : Context) : (s.setCtx c x).nvmeRetried = s.nvmeRetried := rfl
@[simp] theorem State.setCtx_driveReset (s : State) (c : Nat) (x : Context) : (s.setCtx c x).driveReset = s.driveReset := rfl
@[simp] theorem State.setCtx_hotUnits (s : State) (c : Nat) (x : Context) : (s.setCtx c x).hotUnits = s.hotUnits := rfl
@[simp] theorem State.setCtx_lastLine (s : State) (c : Nat) (x : Context) : (s.setCtx c x).lastLine = s.lastLine := rfl
@[simp] theorem State.setCtx_power (s : State) (c : Nat) (x : Context) : (s.setCtx c x).power = s.power := rfl
@[simp] theorem State.setCtx_tmons (s : State) (c : Nat) (x : Context) : (s.setCtx c x).tmons = s.tmons := rfl
@[simp] theorem State.setCtx_thermal (s : State) (c : Nat) (x : Context) : (s.setCtx c x).thermal = s.thermal := rfl
@[simp] theorem State.setCtx_diags (s : State) (c : Nat) (x : Context) : (s.setCtx c x).diags = s.diags := rfl
@[simp] theorem State.setCtx_test (s : State) (c : Nat) (x : Context) : (s.setCtx c x).test = s.test := rfl
@[simp] theorem State.setCtx_snapDue (s : State) (c : Nat) (x : Context) : (s.setCtx c x).snapDue = s.snapDue := rfl
@[simp] theorem State.setCtx_snap (s : State) (c : Nat) (x : Context) : (s.setCtx c x).snap = s.snap := rfl
@[simp] theorem State.setCtx_lastEpoch (s : State) (c : Nat) (x : Context) : (s.setCtx c x).lastEpoch = s.lastEpoch := rfl
@[simp] theorem State.setCtx_mpBeat (s : State) (c : Nat) (x : Context) : (s.setCtx c x).mpBeat = s.mpBeat := rfl
@[simp] theorem State.setCtx_tbHi (s : State) (c : Nat) (x : Context) : (s.setCtx c x).tbHi = s.tbHi := rfl
@[simp] theorem State.setCtx_staged (s : State) (c : Nat) (x : Context) : (s.setCtx c x).staged = s.staged := rfl
@[simp] theorem State.setCtx_speHold (s : State) (c : Nat) (x : Context) : (s.setCtx c x).speHold = s.speHold := rfl
@[simp] theorem State.setCtx_prefillJobs (s : State) (c : Nat) (x : Context) : (s.setCtx c x).prefillJobs = s.prefillJobs := rfl
@[simp] theorem State.setCtx_unloads (s : State) (c : Nat) (x : Context) : (s.setCtx c x).unloads = s.unloads := rfl
@[simp] theorem State.setCtx_l2 (s : State) (c : Nat) (x : Context) : (s.setCtx c x).l2 = s.l2 := rfl
@[simp] theorem State.setCtx_fetchRing (s : State) (c : Nat) (x : Context) : (s.setCtx c x).fetchRing = s.fetchRing := rfl
@[simp] theorem State.setCtx_fetchTaken (s : State) (c : Nat) (x : Context) : (s.setCtx c x).fetchTaken = s.fetchTaken := rfl
@[simp] theorem State.setCtx_portReads (s : State) (c : Nat) (x : Context) : (s.setCtx c x).portReads = s.portReads := rfl
@[simp] theorem State.setCtx_cntAdds (s : State) (c : Nat) (x : Context) : (s.setCtx c x).cntAdds = s.cntAdds := rfl
@[simp] theorem State.setCtx_tbDiffs (s : State) (c : Nat) (x : Context) : (s.setCtx c x).tbDiffs = s.tbDiffs := rfl

/-! ### setLoad -/

@[simp] theorem State.setLoad_pending (s : State) (c : Nat) (l : Load) : (s.setLoad c l).pending = s.pending := rfl
@[simp] theorem State.setLoad_now (s : State) (c : Nat) (l : Load) : (s.setLoad c l).now = s.now := rfl
@[simp] theorem State.setLoad_free (s : State) (c : Nat) (l : Load) : (s.setLoad c l).free = s.free := rfl
@[simp] theorem State.setLoad_nextId (s : State) (c : Nat) (l : Load) : (s.setLoad c l).nextId = s.nextId := rfl
@[simp] theorem State.setLoad_bar0 (s : State) (c : Nat) (l : Load) : (s.setLoad c l).bar0 = s.bar0 := rfl
@[simp] theorem State.setLoad_fns (s : State) (c : Nat) (l : Load) : (s.setLoad c l).fns = s.fns := rfl
@[simp] theorem State.setLoad_lastRead (s : State) (c : Nat) (l : Load) : (s.setLoad c l).lastRead = s.lastRead := rfl
@[simp] theorem State.setLoad_rings (s : State) (c : Nat) (l : Load) : (s.setLoad c l).rings = s.rings := rfl
@[simp] theorem State.setLoad_accepted (s : State) (c : Nat) (l : Load) : (s.setLoad c l).accepted = s.accepted := rfl
@[simp] theorem State.setLoad_eventSeq (s : State) (c : Nat) (l : Load) : (s.setLoad c l).eventSeq = s.eventSeq := rfl
@[simp] theorem State.setLoad_held (s : State) (c : Nat) (l : Load) : (s.setLoad c l).held = s.held := rfl
@[simp] theorem State.setLoad_heldLost (s : State) (c : Nat) (l : Load) : (s.setLoad c l).heldLost = s.heldLost := rfl
@[simp] theorem State.setLoad_hostMem (s : State) (c : Nat) (l : Load) : (s.setLoad c l).hostMem = s.hostMem := rfl
@[simp] theorem State.setLoad_mem (s : State) (c : Nat) (l : Load) : (s.setLoad c l).mem = s.mem := rfl
@[simp] theorem State.setLoad_marks (s : State) (c : Nat) (l : Load) : (s.setLoad c l).marks = s.marks := rfl
@[simp] theorem State.setLoad_counters (s : State) (c : Nat) (l : Load) : (s.setLoad c l).counters = s.counters := rfl
@[simp] theorem State.setLoad_counterSat (s : State) (c : Nat) (l : Load) : (s.setLoad c l).counterSat = s.counterSat := rfl
@[simp] theorem State.setLoad_writes (s : State) (c : Nat) (l : Load) : (s.setLoad c l).writes = s.writes := rfl
@[simp] theorem State.setLoad_engines (s : State) (c : Nat) (l : Load) : (s.setLoad c l).engines = s.engines := rfl
@[simp] theorem State.setLoad_galleries (s : State) (c : Nat) (l : Load) : (s.setLoad c l).galleries = s.galleries := rfl
@[simp] theorem State.setLoad_partials (s : State) (c : Nat) (l : Load) : (s.setLoad c l).partials = s.partials := rfl
@[simp] theorem State.setLoad_powerSteps (s : State) (c : Nat) (l : Load) : (s.setLoad c l).powerSteps = s.powerSteps := rfl
@[simp] theorem State.setLoad_cells (s : State) (c : Nat) (l : Load) : (s.setLoad c l).cells = s.cells := rfl
@[simp] theorem State.setLoad_arrays (s : State) (c : Nat) (l : Load) : (s.setLoad c l).arrays = s.arrays := rfl
@[simp] theorem State.setLoad_nv (s : State) (c : Nat) (l : Load) : (s.setLoad c l).nv = s.nv := rfl
@[simp] theorem State.setLoad_dme (s : State) (c : Nat) (l : Load) : (s.setLoad c l).dme = s.dme := rfl
@[simp] theorem State.setLoad_spe (s : State) (c : Nat) (l : Load) : (s.setLoad c l).spe = s.spe := rfl
@[simp] theorem State.setLoad_contexts (s : State) (c : Nat) (l : Load) : (s.setLoad c l).contexts = s.contexts := rfl
@[simp] theorem State.setLoad_coreSlow (s : State) (c : Nat) (l : Load) : (s.setLoad c l).coreSlow = s.coreSlow := rfl
@[simp] theorem State.setLoad_lastMargin (s : State) (c : Nat) (l : Load) : (s.setLoad c l).lastMargin = s.lastMargin := rfl
@[simp] theorem State.setLoad_windowOpen (s : State) (c : Nat) (l : Load) : (s.setLoad c l).windowOpen = s.windowOpen := rfl
@[simp] theorem State.setLoad_progActive (s : State) (c : Nat) (l : Load) : (s.setLoad c l).progActive = s.progActive := rfl
@[simp] theorem State.setLoad_progWait (s : State) (c : Nat) (l : Load) : (s.setLoad c l).progWait = s.progWait := rfl
@[simp] theorem State.setLoad_progHall (s : State) (c : Nat) (l : Load) : (s.setLoad c l).progHall = s.progHall := rfl
@[simp] theorem State.setLoad_vprogAt (s : State) (c : Nat) (l : Load) : (s.setLoad c l).vprogAt = s.vprogAt := rfl
@[simp] theorem State.setLoad_vprogOff (s : State) (c : Nat) (l : Load) : (s.setLoad c l).vprogOff = s.vprogOff := rfl
@[simp] theorem State.setLoad_lastWear (s : State) (c : Nat) (l : Load) : (s.setLoad c l).lastWear = s.lastWear := rfl
@[simp] theorem State.setLoad_loads (s : State) (c : Nat) (l : Load) : (s.setLoad c l).loads = Tab.put s.loads c l := rfl
@[simp] theorem State.setLoad_attQueue (s : State) (c : Nat) (l : Load) : (s.setLoad c l).attQueue = s.attQueue := rfl
@[simp] theorem State.setLoad_attRuns (s : State) (c : Nat) (l : Load) : (s.setLoad c l).attRuns = s.attRuns := rfl
@[simp] theorem State.setLoad_attBusy (s : State) (c : Nat) (l : Load) : (s.setLoad c l).attBusy = s.attBusy := rfl
@[simp] theorem State.setLoad_kvCache (s : State) (c : Nat) (l : Load) : (s.setLoad c l).kvCache = s.kvCache := rfl
@[simp] theorem State.setLoad_fetches (s : State) (c : Nat) (l : Load) : (s.setLoad c l).fetches = s.fetches := rfl
@[simp] theorem State.setLoad_kvUsed (s : State) (c : Nat) (l : Load) : (s.setLoad c l).kvUsed = s.kvUsed := rfl
@[simp] theorem State.setLoad_parks (s : State) (c : Nat) (l : Load) : (s.setLoad c l).parks = s.parks := rfl
@[simp] theorem State.setLoad_tokenisers (s : State) (c : Nat) (l : Load) : (s.setLoad c l).tokenisers = s.tokenisers := rfl
@[simp] theorem State.setLoad_tokWait (s : State) (c : Nat) (l : Load) : (s.setLoad c l).tokWait = s.tokWait := rfl
@[simp] theorem State.setLoad_profileCmd (s : State) (c : Nat) (l : Load) : (s.setLoad c l).profileCmd = s.profileCmd := rfl
@[simp] theorem State.setLoad_prefillTurn (s : State) (c : Nat) (l : Load) : (s.setLoad c l).prefillTurn = s.prefillTurn := rfl
@[simp] theorem State.setLoad_lastBeat (s : State) (c : Nat) (l : Load) : (s.setLoad c l).lastBeat = s.lastBeat := rfl
@[simp] theorem State.setLoad_streams (s : State) (c : Nat) (l : Load) : (s.setLoad c l).streams = s.streams := rfl
@[simp] theorem State.setLoad_mgmtPort (s : State) (c : Nat) (l : Load) : (s.setLoad c l).mgmtPort = s.mgmtPort := rfl
@[simp] theorem State.setLoad_boot (s : State) (c : Nat) (l : Load) : (s.setLoad c l).boot = s.boot := rfl
@[simp] theorem State.setLoad_bootGiven (s : State) (c : Nat) (l : Load) : (s.setLoad c l).bootGiven = s.bootGiven := rfl
@[simp] theorem State.setLoad_orphans (s : State) (c : Nat) (l : Load) : (s.setLoad c l).orphans = s.orphans := rfl
@[simp] theorem State.setLoad_hostLines (s : State) (c : Nat) (l : Load) : (s.setLoad c l).hostLines = s.hostLines := rfl
@[simp] theorem State.setLoad_dir (s : State) (c : Nat) (l : Load) : (s.setLoad c l).dir = s.dir := rfl
@[simp] theorem State.setLoad_scoreboard (s : State) (c : Nat) (l : Load) : (s.setLoad c l).scoreboard = s.scoreboard := rfl
@[simp] theorem State.setLoad_hbmStacks (s : State) (c : Nat) (l : Load) : (s.setLoad c l).hbmStacks = s.hbmStacks := rfl
@[simp] theorem State.setLoad_t1Channels (s : State) (c : Nat) (l : Load) : (s.setLoad c l).t1Channels = s.t1Channels := rfl
@[simp] theorem State.setLoad_t1ChannelBytes (s : State) (c : Nat) (l : Load) : (s.setLoad c l).t1ChannelBytes = s.t1ChannelBytes := rfl
@[simp] theorem State.setLoad_t1Retired (s : State) (c : Nat) (l : Load) : (s.setLoad c l).t1Retired = s.t1Retired := rfl
@[simp] theorem State.setLoad_tbStart (s : State) (c : Nat) (l : Load) : (s.setLoad c l).tbStart = s.tbStart := rfl
@[simp] theorem State.setLoad_fabOut (s : State) (c : Nat) (l : Load) : (s.setLoad c l).fabOut = s.fabOut := rfl
@[simp] theorem State.setLoad_fabNo (s : State) (c : Nat) (l : Load) : (s.setLoad c l).fabNo = s.fabNo := rfl
@[simp] theorem State.setLoad_links (s : State) (c : Nat) (l : Load) : (s.setLoad c l).links = s.links := rfl
@[simp] theorem State.setLoad_adverts (s : State) (c : Nat) (l : Load) : (s.setLoad c l).adverts = s.adverts := rfl
@[simp] theorem State.setLoad_advertSeq (s : State) (c : Nat) (l : Load) : (s.setLoad c l).advertSeq = s.advertSeq := rfl
@[simp] theorem State.setLoad_advertAt (s : State) (c : Nat) (l : Load) : (s.setLoad c l).advertAt = s.advertAt := rfl
@[simp] theorem State.setLoad_members (s : State) (c : Nat) (l : Load) : (s.setLoad c l).members = s.members := rfl
@[simp] theorem State.setLoad_fabIn (s : State) (c : Nat) (l : Load) : (s.setLoad c l).fabIn = s.fabIn := rfl
@[simp] theorem State.setLoad_windows (s : State) (c : Nat) (l : Load) : (s.setLoad c l).windows = s.windows := rfl
@[simp] theorem State.setLoad_flows (s : State) (c : Nat) (l : Load) : (s.setLoad c l).flows = s.flows := rfl
@[simp] theorem State.setLoad_treeMap (s : State) (c : Nat) (l : Load) : (s.setLoad c l).treeMap = s.treeMap := rfl
@[simp] theorem State.setLoad_trees (s : State) (c : Nat) (l : Load) : (s.setLoad c l).trees = s.trees := rfl
@[simp] theorem State.setLoad_ueTimes (s : State) (c : Nat) (l : Load) : (s.setLoad c l).ueTimes = s.ueTimes := rfl
@[simp] theorem State.setLoad_ceTimes (s : State) (c : Nat) (l : Load) : (s.setLoad c l).ceTimes = s.ceTimes := rfl
@[simp] theorem State.setLoad_ceSince (s : State) (c : Nat) (l : Load) : (s.setLoad c l).ceSince = s.ceSince := rfl
@[simp] theorem State.setLoad_ceLast (s : State) (c : Nat) (l : Load) : (s.setLoad c l).ceLast = s.ceLast := rfl
@[simp] theorem State.setLoad_retirePending (s : State) (c : Nat) (l : Load) : (s.setLoad c l).retirePending = s.retirePending := rfl
@[simp] theorem State.setLoad_t2Vol (s : State) (c : Nat) (l : Load) : (s.setLoad c l).t2Vol = s.t2Vol := rfl
@[simp] theorem State.setLoad_t2Mem (s : State) (c : Nat) (l : Load) : (s.setLoad c l).t2Mem = s.t2Mem := rfl
@[simp] theorem State.setLoad_drives (s : State) (c : Nat) (l : Load) : (s.setLoad c l).drives = s.drives := rfl
@[simp] theorem State.setLoad_drivesRetired (s : State) (c : Nat) (l : Load) : (s.setLoad c l).drivesRetired = s.drivesRetired := rfl
@[simp] theorem State.setLoad_tier2 (s : State) (c : Nat) (l : Load) : (s.setLoad c l).tier2 = s.tier2 := rfl
@[simp] theorem State.setLoad_nvmeRetried (s : State) (c : Nat) (l : Load) : (s.setLoad c l).nvmeRetried = s.nvmeRetried := rfl
@[simp] theorem State.setLoad_driveReset (s : State) (c : Nat) (l : Load) : (s.setLoad c l).driveReset = s.driveReset := rfl
@[simp] theorem State.setLoad_hotUnits (s : State) (c : Nat) (l : Load) : (s.setLoad c l).hotUnits = s.hotUnits := rfl
@[simp] theorem State.setLoad_lastLine (s : State) (c : Nat) (l : Load) : (s.setLoad c l).lastLine = s.lastLine := rfl
@[simp] theorem State.setLoad_power (s : State) (c : Nat) (l : Load) : (s.setLoad c l).power = s.power := rfl
@[simp] theorem State.setLoad_tmons (s : State) (c : Nat) (l : Load) : (s.setLoad c l).tmons = s.tmons := rfl
@[simp] theorem State.setLoad_thermal (s : State) (c : Nat) (l : Load) : (s.setLoad c l).thermal = s.thermal := rfl
@[simp] theorem State.setLoad_diags (s : State) (c : Nat) (l : Load) : (s.setLoad c l).diags = s.diags := rfl
@[simp] theorem State.setLoad_test (s : State) (c : Nat) (l : Load) : (s.setLoad c l).test = s.test := rfl
@[simp] theorem State.setLoad_snapDue (s : State) (c : Nat) (l : Load) : (s.setLoad c l).snapDue = s.snapDue := rfl
@[simp] theorem State.setLoad_snap (s : State) (c : Nat) (l : Load) : (s.setLoad c l).snap = s.snap := rfl
@[simp] theorem State.setLoad_lastEpoch (s : State) (c : Nat) (l : Load) : (s.setLoad c l).lastEpoch = s.lastEpoch := rfl
@[simp] theorem State.setLoad_mpBeat (s : State) (c : Nat) (l : Load) : (s.setLoad c l).mpBeat = s.mpBeat := rfl
@[simp] theorem State.setLoad_tbHi (s : State) (c : Nat) (l : Load) : (s.setLoad c l).tbHi = s.tbHi := rfl
@[simp] theorem State.setLoad_staged (s : State) (c : Nat) (l : Load) : (s.setLoad c l).staged = s.staged := rfl
@[simp] theorem State.setLoad_speHold (s : State) (c : Nat) (l : Load) : (s.setLoad c l).speHold = s.speHold := rfl
@[simp] theorem State.setLoad_prefillJobs (s : State) (c : Nat) (l : Load) : (s.setLoad c l).prefillJobs = s.prefillJobs := rfl
@[simp] theorem State.setLoad_unloads (s : State) (c : Nat) (l : Load) : (s.setLoad c l).unloads = s.unloads := rfl
@[simp] theorem State.setLoad_l2 (s : State) (c : Nat) (l : Load) : (s.setLoad c l).l2 = s.l2 := rfl
@[simp] theorem State.setLoad_fetchRing (s : State) (c : Nat) (l : Load) : (s.setLoad c l).fetchRing = s.fetchRing := rfl
@[simp] theorem State.setLoad_fetchTaken (s : State) (c : Nat) (l : Load) : (s.setLoad c l).fetchTaken = s.fetchTaken := rfl
@[simp] theorem State.setLoad_portReads (s : State) (c : Nat) (l : Load) : (s.setLoad c l).portReads = s.portReads := rfl
@[simp] theorem State.setLoad_cntAdds (s : State) (c : Nat) (l : Load) : (s.setLoad c l).cntAdds = s.cntAdds := rfl
@[simp] theorem State.setLoad_tbDiffs (s : State) (c : Nat) (l : Load) : (s.setLoad c l).tbDiffs = s.tbDiffs := rfl

/-! ### setEng -/

@[simp] theorem State.setEng_pending (s : State) (n : Nat) (e : DmaEngine) : (s.setEng n e).pending = s.pending := rfl
@[simp] theorem State.setEng_now (s : State) (n : Nat) (e : DmaEngine) : (s.setEng n e).now = s.now := rfl
@[simp] theorem State.setEng_free (s : State) (n : Nat) (e : DmaEngine) : (s.setEng n e).free = s.free := rfl
@[simp] theorem State.setEng_nextId (s : State) (n : Nat) (e : DmaEngine) : (s.setEng n e).nextId = s.nextId := rfl
@[simp] theorem State.setEng_bar0 (s : State) (n : Nat) (e : DmaEngine) : (s.setEng n e).bar0 = s.bar0 := rfl
@[simp] theorem State.setEng_fns (s : State) (n : Nat) (e : DmaEngine) : (s.setEng n e).fns = s.fns := rfl
@[simp] theorem State.setEng_lastRead (s : State) (n : Nat) (e : DmaEngine) : (s.setEng n e).lastRead = s.lastRead := rfl
@[simp] theorem State.setEng_rings (s : State) (n : Nat) (e : DmaEngine) : (s.setEng n e).rings = s.rings := rfl
@[simp] theorem State.setEng_accepted (s : State) (n : Nat) (e : DmaEngine) : (s.setEng n e).accepted = s.accepted := rfl
@[simp] theorem State.setEng_eventSeq (s : State) (n : Nat) (e : DmaEngine) : (s.setEng n e).eventSeq = s.eventSeq := rfl
@[simp] theorem State.setEng_held (s : State) (n : Nat) (e : DmaEngine) : (s.setEng n e).held = s.held := rfl
@[simp] theorem State.setEng_heldLost (s : State) (n : Nat) (e : DmaEngine) : (s.setEng n e).heldLost = s.heldLost := rfl
@[simp] theorem State.setEng_hostMem (s : State) (n : Nat) (e : DmaEngine) : (s.setEng n e).hostMem = s.hostMem := rfl
@[simp] theorem State.setEng_mem (s : State) (n : Nat) (e : DmaEngine) : (s.setEng n e).mem = s.mem := rfl
@[simp] theorem State.setEng_marks (s : State) (n : Nat) (e : DmaEngine) : (s.setEng n e).marks = s.marks := rfl
@[simp] theorem State.setEng_counters (s : State) (n : Nat) (e : DmaEngine) : (s.setEng n e).counters = s.counters := rfl
@[simp] theorem State.setEng_counterSat (s : State) (n : Nat) (e : DmaEngine) : (s.setEng n e).counterSat = s.counterSat := rfl
@[simp] theorem State.setEng_writes (s : State) (n : Nat) (e : DmaEngine) : (s.setEng n e).writes = s.writes := rfl
@[simp] theorem State.setEng_engines (s : State) (n : Nat) (e : DmaEngine) : (s.setEng n e).engines = Tab.set DmaEngine.reset s.engines n e := rfl
@[simp] theorem State.setEng_galleries (s : State) (n : Nat) (e : DmaEngine) : (s.setEng n e).galleries = s.galleries := rfl
@[simp] theorem State.setEng_partials (s : State) (n : Nat) (e : DmaEngine) : (s.setEng n e).partials = s.partials := rfl
@[simp] theorem State.setEng_powerSteps (s : State) (n : Nat) (e : DmaEngine) : (s.setEng n e).powerSteps = s.powerSteps := rfl
@[simp] theorem State.setEng_cells (s : State) (n : Nat) (e : DmaEngine) : (s.setEng n e).cells = s.cells := rfl
@[simp] theorem State.setEng_arrays (s : State) (n : Nat) (e : DmaEngine) : (s.setEng n e).arrays = s.arrays := rfl
@[simp] theorem State.setEng_nv (s : State) (n : Nat) (e : DmaEngine) : (s.setEng n e).nv = s.nv := rfl
@[simp] theorem State.setEng_dme (s : State) (n : Nat) (e : DmaEngine) : (s.setEng n e).dme = s.dme := rfl
@[simp] theorem State.setEng_spe (s : State) (n : Nat) (e : DmaEngine) : (s.setEng n e).spe = s.spe := rfl
@[simp] theorem State.setEng_contexts (s : State) (n : Nat) (e : DmaEngine) : (s.setEng n e).contexts = s.contexts := rfl
@[simp] theorem State.setEng_coreSlow (s : State) (n : Nat) (e : DmaEngine) : (s.setEng n e).coreSlow = s.coreSlow := rfl
@[simp] theorem State.setEng_lastMargin (s : State) (n : Nat) (e : DmaEngine) : (s.setEng n e).lastMargin = s.lastMargin := rfl
@[simp] theorem State.setEng_windowOpen (s : State) (n : Nat) (e : DmaEngine) : (s.setEng n e).windowOpen = s.windowOpen := rfl
@[simp] theorem State.setEng_progActive (s : State) (n : Nat) (e : DmaEngine) : (s.setEng n e).progActive = s.progActive := rfl
@[simp] theorem State.setEng_progWait (s : State) (n : Nat) (e : DmaEngine) : (s.setEng n e).progWait = s.progWait := rfl
@[simp] theorem State.setEng_progHall (s : State) (n : Nat) (e : DmaEngine) : (s.setEng n e).progHall = s.progHall := rfl
@[simp] theorem State.setEng_vprogAt (s : State) (n : Nat) (e : DmaEngine) : (s.setEng n e).vprogAt = s.vprogAt := rfl
@[simp] theorem State.setEng_vprogOff (s : State) (n : Nat) (e : DmaEngine) : (s.setEng n e).vprogOff = s.vprogOff := rfl
@[simp] theorem State.setEng_lastWear (s : State) (n : Nat) (e : DmaEngine) : (s.setEng n e).lastWear = s.lastWear := rfl
@[simp] theorem State.setEng_loads (s : State) (n : Nat) (e : DmaEngine) : (s.setEng n e).loads = s.loads := rfl
@[simp] theorem State.setEng_attQueue (s : State) (n : Nat) (e : DmaEngine) : (s.setEng n e).attQueue = s.attQueue := rfl
@[simp] theorem State.setEng_attRuns (s : State) (n : Nat) (e : DmaEngine) : (s.setEng n e).attRuns = s.attRuns := rfl
@[simp] theorem State.setEng_attBusy (s : State) (n : Nat) (e : DmaEngine) : (s.setEng n e).attBusy = s.attBusy := rfl
@[simp] theorem State.setEng_kvCache (s : State) (n : Nat) (e : DmaEngine) : (s.setEng n e).kvCache = s.kvCache := rfl
@[simp] theorem State.setEng_fetches (s : State) (n : Nat) (e : DmaEngine) : (s.setEng n e).fetches = s.fetches := rfl
@[simp] theorem State.setEng_kvUsed (s : State) (n : Nat) (e : DmaEngine) : (s.setEng n e).kvUsed = s.kvUsed := rfl
@[simp] theorem State.setEng_parks (s : State) (n : Nat) (e : DmaEngine) : (s.setEng n e).parks = s.parks := rfl
@[simp] theorem State.setEng_tokenisers (s : State) (n : Nat) (e : DmaEngine) : (s.setEng n e).tokenisers = s.tokenisers := rfl
@[simp] theorem State.setEng_tokWait (s : State) (n : Nat) (e : DmaEngine) : (s.setEng n e).tokWait = s.tokWait := rfl
@[simp] theorem State.setEng_profileCmd (s : State) (n : Nat) (e : DmaEngine) : (s.setEng n e).profileCmd = s.profileCmd := rfl
@[simp] theorem State.setEng_prefillTurn (s : State) (n : Nat) (e : DmaEngine) : (s.setEng n e).prefillTurn = s.prefillTurn := rfl
@[simp] theorem State.setEng_lastBeat (s : State) (n : Nat) (e : DmaEngine) : (s.setEng n e).lastBeat = s.lastBeat := rfl
@[simp] theorem State.setEng_streams (s : State) (n : Nat) (e : DmaEngine) : (s.setEng n e).streams = s.streams := rfl
@[simp] theorem State.setEng_mgmtPort (s : State) (n : Nat) (e : DmaEngine) : (s.setEng n e).mgmtPort = s.mgmtPort := rfl
@[simp] theorem State.setEng_boot (s : State) (n : Nat) (e : DmaEngine) : (s.setEng n e).boot = s.boot := rfl
@[simp] theorem State.setEng_bootGiven (s : State) (n : Nat) (e : DmaEngine) : (s.setEng n e).bootGiven = s.bootGiven := rfl
@[simp] theorem State.setEng_orphans (s : State) (n : Nat) (e : DmaEngine) : (s.setEng n e).orphans = s.orphans := rfl
@[simp] theorem State.setEng_hostLines (s : State) (n : Nat) (e : DmaEngine) : (s.setEng n e).hostLines = s.hostLines := rfl
@[simp] theorem State.setEng_dir (s : State) (n : Nat) (e : DmaEngine) : (s.setEng n e).dir = s.dir := rfl
@[simp] theorem State.setEng_scoreboard (s : State) (n : Nat) (e : DmaEngine) : (s.setEng n e).scoreboard = s.scoreboard := rfl
@[simp] theorem State.setEng_hbmStacks (s : State) (n : Nat) (e : DmaEngine) : (s.setEng n e).hbmStacks = s.hbmStacks := rfl
@[simp] theorem State.setEng_t1Channels (s : State) (n : Nat) (e : DmaEngine) : (s.setEng n e).t1Channels = s.t1Channels := rfl
@[simp] theorem State.setEng_t1ChannelBytes (s : State) (n : Nat) (e : DmaEngine) : (s.setEng n e).t1ChannelBytes = s.t1ChannelBytes := rfl
@[simp] theorem State.setEng_t1Retired (s : State) (n : Nat) (e : DmaEngine) : (s.setEng n e).t1Retired = s.t1Retired := rfl
@[simp] theorem State.setEng_tbStart (s : State) (n : Nat) (e : DmaEngine) : (s.setEng n e).tbStart = s.tbStart := rfl
@[simp] theorem State.setEng_fabOut (s : State) (n : Nat) (e : DmaEngine) : (s.setEng n e).fabOut = s.fabOut := rfl
@[simp] theorem State.setEng_fabNo (s : State) (n : Nat) (e : DmaEngine) : (s.setEng n e).fabNo = s.fabNo := rfl
@[simp] theorem State.setEng_links (s : State) (n : Nat) (e : DmaEngine) : (s.setEng n e).links = s.links := rfl
@[simp] theorem State.setEng_adverts (s : State) (n : Nat) (e : DmaEngine) : (s.setEng n e).adverts = s.adverts := rfl
@[simp] theorem State.setEng_advertSeq (s : State) (n : Nat) (e : DmaEngine) : (s.setEng n e).advertSeq = s.advertSeq := rfl
@[simp] theorem State.setEng_advertAt (s : State) (n : Nat) (e : DmaEngine) : (s.setEng n e).advertAt = s.advertAt := rfl
@[simp] theorem State.setEng_members (s : State) (n : Nat) (e : DmaEngine) : (s.setEng n e).members = s.members := rfl
@[simp] theorem State.setEng_fabIn (s : State) (n : Nat) (e : DmaEngine) : (s.setEng n e).fabIn = s.fabIn := rfl
@[simp] theorem State.setEng_windows (s : State) (n : Nat) (e : DmaEngine) : (s.setEng n e).windows = s.windows := rfl
@[simp] theorem State.setEng_flows (s : State) (n : Nat) (e : DmaEngine) : (s.setEng n e).flows = s.flows := rfl
@[simp] theorem State.setEng_treeMap (s : State) (n : Nat) (e : DmaEngine) : (s.setEng n e).treeMap = s.treeMap := rfl
@[simp] theorem State.setEng_trees (s : State) (n : Nat) (e : DmaEngine) : (s.setEng n e).trees = s.trees := rfl
@[simp] theorem State.setEng_ueTimes (s : State) (n : Nat) (e : DmaEngine) : (s.setEng n e).ueTimes = s.ueTimes := rfl
@[simp] theorem State.setEng_ceTimes (s : State) (n : Nat) (e : DmaEngine) : (s.setEng n e).ceTimes = s.ceTimes := rfl
@[simp] theorem State.setEng_ceSince (s : State) (n : Nat) (e : DmaEngine) : (s.setEng n e).ceSince = s.ceSince := rfl
@[simp] theorem State.setEng_ceLast (s : State) (n : Nat) (e : DmaEngine) : (s.setEng n e).ceLast = s.ceLast := rfl
@[simp] theorem State.setEng_retirePending (s : State) (n : Nat) (e : DmaEngine) : (s.setEng n e).retirePending = s.retirePending := rfl
@[simp] theorem State.setEng_t2Vol (s : State) (n : Nat) (e : DmaEngine) : (s.setEng n e).t2Vol = s.t2Vol := rfl
@[simp] theorem State.setEng_t2Mem (s : State) (n : Nat) (e : DmaEngine) : (s.setEng n e).t2Mem = s.t2Mem := rfl
@[simp] theorem State.setEng_drives (s : State) (n : Nat) (e : DmaEngine) : (s.setEng n e).drives = s.drives := rfl
@[simp] theorem State.setEng_drivesRetired (s : State) (n : Nat) (e : DmaEngine) : (s.setEng n e).drivesRetired = s.drivesRetired := rfl
@[simp] theorem State.setEng_tier2 (s : State) (n : Nat) (e : DmaEngine) : (s.setEng n e).tier2 = s.tier2 := rfl
@[simp] theorem State.setEng_nvmeRetried (s : State) (n : Nat) (e : DmaEngine) : (s.setEng n e).nvmeRetried = s.nvmeRetried := rfl
@[simp] theorem State.setEng_driveReset (s : State) (n : Nat) (e : DmaEngine) : (s.setEng n e).driveReset = s.driveReset := rfl
@[simp] theorem State.setEng_hotUnits (s : State) (n : Nat) (e : DmaEngine) : (s.setEng n e).hotUnits = s.hotUnits := rfl
@[simp] theorem State.setEng_lastLine (s : State) (n : Nat) (e : DmaEngine) : (s.setEng n e).lastLine = s.lastLine := rfl
@[simp] theorem State.setEng_power (s : State) (n : Nat) (e : DmaEngine) : (s.setEng n e).power = s.power := rfl
@[simp] theorem State.setEng_tmons (s : State) (n : Nat) (e : DmaEngine) : (s.setEng n e).tmons = s.tmons := rfl
@[simp] theorem State.setEng_thermal (s : State) (n : Nat) (e : DmaEngine) : (s.setEng n e).thermal = s.thermal := rfl
@[simp] theorem State.setEng_diags (s : State) (n : Nat) (e : DmaEngine) : (s.setEng n e).diags = s.diags := rfl
@[simp] theorem State.setEng_test (s : State) (n : Nat) (e : DmaEngine) : (s.setEng n e).test = s.test := rfl
@[simp] theorem State.setEng_snapDue (s : State) (n : Nat) (e : DmaEngine) : (s.setEng n e).snapDue = s.snapDue := rfl
@[simp] theorem State.setEng_snap (s : State) (n : Nat) (e : DmaEngine) : (s.setEng n e).snap = s.snap := rfl
@[simp] theorem State.setEng_lastEpoch (s : State) (n : Nat) (e : DmaEngine) : (s.setEng n e).lastEpoch = s.lastEpoch := rfl
@[simp] theorem State.setEng_mpBeat (s : State) (n : Nat) (e : DmaEngine) : (s.setEng n e).mpBeat = s.mpBeat := rfl
@[simp] theorem State.setEng_tbHi (s : State) (n : Nat) (e : DmaEngine) : (s.setEng n e).tbHi = s.tbHi := rfl
@[simp] theorem State.setEng_staged (s : State) (n : Nat) (e : DmaEngine) : (s.setEng n e).staged = s.staged := rfl
@[simp] theorem State.setEng_speHold (s : State) (n : Nat) (e : DmaEngine) : (s.setEng n e).speHold = s.speHold := rfl
@[simp] theorem State.setEng_prefillJobs (s : State) (n : Nat) (e : DmaEngine) : (s.setEng n e).prefillJobs = s.prefillJobs := rfl
@[simp] theorem State.setEng_unloads (s : State) (n : Nat) (e : DmaEngine) : (s.setEng n e).unloads = s.unloads := rfl
@[simp] theorem State.setEng_l2 (s : State) (n : Nat) (e : DmaEngine) : (s.setEng n e).l2 = s.l2 := rfl
@[simp] theorem State.setEng_fetchRing (s : State) (n : Nat) (e : DmaEngine) : (s.setEng n e).fetchRing = s.fetchRing := rfl
@[simp] theorem State.setEng_fetchTaken (s : State) (n : Nat) (e : DmaEngine) : (s.setEng n e).fetchTaken = s.fetchTaken := rfl
@[simp] theorem State.setEng_portReads (s : State) (n : Nat) (e : DmaEngine) : (s.setEng n e).portReads = s.portReads := rfl
@[simp] theorem State.setEng_cntAdds (s : State) (n : Nat) (e : DmaEngine) : (s.setEng n e).cntAdds = s.cntAdds := rfl
@[simp] theorem State.setEng_tbDiffs (s : State) (n : Nat) (e : DmaEngine) : (s.setEng n e).tbDiffs = s.tbDiffs := rfl

/-! ### setLnk -/

@[simp] theorem State.setLnk_pending (s : State) (l : Nat) (k : Link) : (s.setLnk l k).pending = s.pending := rfl
@[simp] theorem State.setLnk_now (s : State) (l : Nat) (k : Link) : (s.setLnk l k).now = s.now := rfl
@[simp] theorem State.setLnk_free (s : State) (l : Nat) (k : Link) : (s.setLnk l k).free = s.free := rfl
@[simp] theorem State.setLnk_nextId (s : State) (l : Nat) (k : Link) : (s.setLnk l k).nextId = s.nextId := rfl
@[simp] theorem State.setLnk_bar0 (s : State) (l : Nat) (k : Link) : (s.setLnk l k).bar0 = s.bar0 := rfl
@[simp] theorem State.setLnk_fns (s : State) (l : Nat) (k : Link) : (s.setLnk l k).fns = s.fns := rfl
@[simp] theorem State.setLnk_lastRead (s : State) (l : Nat) (k : Link) : (s.setLnk l k).lastRead = s.lastRead := rfl
@[simp] theorem State.setLnk_rings (s : State) (l : Nat) (k : Link) : (s.setLnk l k).rings = s.rings := rfl
@[simp] theorem State.setLnk_accepted (s : State) (l : Nat) (k : Link) : (s.setLnk l k).accepted = s.accepted := rfl
@[simp] theorem State.setLnk_eventSeq (s : State) (l : Nat) (k : Link) : (s.setLnk l k).eventSeq = s.eventSeq := rfl
@[simp] theorem State.setLnk_held (s : State) (l : Nat) (k : Link) : (s.setLnk l k).held = s.held := rfl
@[simp] theorem State.setLnk_heldLost (s : State) (l : Nat) (k : Link) : (s.setLnk l k).heldLost = s.heldLost := rfl
@[simp] theorem State.setLnk_hostMem (s : State) (l : Nat) (k : Link) : (s.setLnk l k).hostMem = s.hostMem := rfl
@[simp] theorem State.setLnk_mem (s : State) (l : Nat) (k : Link) : (s.setLnk l k).mem = s.mem := rfl
@[simp] theorem State.setLnk_marks (s : State) (l : Nat) (k : Link) : (s.setLnk l k).marks = s.marks := rfl
@[simp] theorem State.setLnk_counters (s : State) (l : Nat) (k : Link) : (s.setLnk l k).counters = s.counters := rfl
@[simp] theorem State.setLnk_counterSat (s : State) (l : Nat) (k : Link) : (s.setLnk l k).counterSat = s.counterSat := rfl
@[simp] theorem State.setLnk_writes (s : State) (l : Nat) (k : Link) : (s.setLnk l k).writes = s.writes := rfl
@[simp] theorem State.setLnk_engines (s : State) (l : Nat) (k : Link) : (s.setLnk l k).engines = s.engines := rfl
@[simp] theorem State.setLnk_galleries (s : State) (l : Nat) (k : Link) : (s.setLnk l k).galleries = s.galleries := rfl
@[simp] theorem State.setLnk_partials (s : State) (l : Nat) (k : Link) : (s.setLnk l k).partials = s.partials := rfl
@[simp] theorem State.setLnk_powerSteps (s : State) (l : Nat) (k : Link) : (s.setLnk l k).powerSteps = s.powerSteps := rfl
@[simp] theorem State.setLnk_cells (s : State) (l : Nat) (k : Link) : (s.setLnk l k).cells = s.cells := rfl
@[simp] theorem State.setLnk_arrays (s : State) (l : Nat) (k : Link) : (s.setLnk l k).arrays = s.arrays := rfl
@[simp] theorem State.setLnk_nv (s : State) (l : Nat) (k : Link) : (s.setLnk l k).nv = s.nv := rfl
@[simp] theorem State.setLnk_dme (s : State) (l : Nat) (k : Link) : (s.setLnk l k).dme = s.dme := rfl
@[simp] theorem State.setLnk_spe (s : State) (l : Nat) (k : Link) : (s.setLnk l k).spe = s.spe := rfl
@[simp] theorem State.setLnk_contexts (s : State) (l : Nat) (k : Link) : (s.setLnk l k).contexts = s.contexts := rfl
@[simp] theorem State.setLnk_coreSlow (s : State) (l : Nat) (k : Link) : (s.setLnk l k).coreSlow = s.coreSlow := rfl
@[simp] theorem State.setLnk_lastMargin (s : State) (l : Nat) (k : Link) : (s.setLnk l k).lastMargin = s.lastMargin := rfl
@[simp] theorem State.setLnk_windowOpen (s : State) (l : Nat) (k : Link) : (s.setLnk l k).windowOpen = s.windowOpen := rfl
@[simp] theorem State.setLnk_progActive (s : State) (l : Nat) (k : Link) : (s.setLnk l k).progActive = s.progActive := rfl
@[simp] theorem State.setLnk_progWait (s : State) (l : Nat) (k : Link) : (s.setLnk l k).progWait = s.progWait := rfl
@[simp] theorem State.setLnk_progHall (s : State) (l : Nat) (k : Link) : (s.setLnk l k).progHall = s.progHall := rfl
@[simp] theorem State.setLnk_vprogAt (s : State) (l : Nat) (k : Link) : (s.setLnk l k).vprogAt = s.vprogAt := rfl
@[simp] theorem State.setLnk_vprogOff (s : State) (l : Nat) (k : Link) : (s.setLnk l k).vprogOff = s.vprogOff := rfl
@[simp] theorem State.setLnk_lastWear (s : State) (l : Nat) (k : Link) : (s.setLnk l k).lastWear = s.lastWear := rfl
@[simp] theorem State.setLnk_loads (s : State) (l : Nat) (k : Link) : (s.setLnk l k).loads = s.loads := rfl
@[simp] theorem State.setLnk_attQueue (s : State) (l : Nat) (k : Link) : (s.setLnk l k).attQueue = s.attQueue := rfl
@[simp] theorem State.setLnk_attRuns (s : State) (l : Nat) (k : Link) : (s.setLnk l k).attRuns = s.attRuns := rfl
@[simp] theorem State.setLnk_attBusy (s : State) (l : Nat) (k : Link) : (s.setLnk l k).attBusy = s.attBusy := rfl
@[simp] theorem State.setLnk_kvCache (s : State) (l : Nat) (k : Link) : (s.setLnk l k).kvCache = s.kvCache := rfl
@[simp] theorem State.setLnk_fetches (s : State) (l : Nat) (k : Link) : (s.setLnk l k).fetches = s.fetches := rfl
@[simp] theorem State.setLnk_kvUsed (s : State) (l : Nat) (k : Link) : (s.setLnk l k).kvUsed = s.kvUsed := rfl
@[simp] theorem State.setLnk_parks (s : State) (l : Nat) (k : Link) : (s.setLnk l k).parks = s.parks := rfl
@[simp] theorem State.setLnk_tokenisers (s : State) (l : Nat) (k : Link) : (s.setLnk l k).tokenisers = s.tokenisers := rfl
@[simp] theorem State.setLnk_tokWait (s : State) (l : Nat) (k : Link) : (s.setLnk l k).tokWait = s.tokWait := rfl
@[simp] theorem State.setLnk_profileCmd (s : State) (l : Nat) (k : Link) : (s.setLnk l k).profileCmd = s.profileCmd := rfl
@[simp] theorem State.setLnk_prefillTurn (s : State) (l : Nat) (k : Link) : (s.setLnk l k).prefillTurn = s.prefillTurn := rfl
@[simp] theorem State.setLnk_lastBeat (s : State) (l : Nat) (k : Link) : (s.setLnk l k).lastBeat = s.lastBeat := rfl
@[simp] theorem State.setLnk_streams (s : State) (l : Nat) (k : Link) : (s.setLnk l k).streams = s.streams := rfl
@[simp] theorem State.setLnk_mgmtPort (s : State) (l : Nat) (k : Link) : (s.setLnk l k).mgmtPort = s.mgmtPort := rfl
@[simp] theorem State.setLnk_boot (s : State) (l : Nat) (k : Link) : (s.setLnk l k).boot = s.boot := rfl
@[simp] theorem State.setLnk_bootGiven (s : State) (l : Nat) (k : Link) : (s.setLnk l k).bootGiven = s.bootGiven := rfl
@[simp] theorem State.setLnk_orphans (s : State) (l : Nat) (k : Link) : (s.setLnk l k).orphans = s.orphans := rfl
@[simp] theorem State.setLnk_hostLines (s : State) (l : Nat) (k : Link) : (s.setLnk l k).hostLines = s.hostLines := rfl
@[simp] theorem State.setLnk_dir (s : State) (l : Nat) (k : Link) : (s.setLnk l k).dir = s.dir := rfl
@[simp] theorem State.setLnk_scoreboard (s : State) (l : Nat) (k : Link) : (s.setLnk l k).scoreboard = s.scoreboard := rfl
@[simp] theorem State.setLnk_hbmStacks (s : State) (l : Nat) (k : Link) : (s.setLnk l k).hbmStacks = s.hbmStacks := rfl
@[simp] theorem State.setLnk_t1Channels (s : State) (l : Nat) (k : Link) : (s.setLnk l k).t1Channels = s.t1Channels := rfl
@[simp] theorem State.setLnk_t1ChannelBytes (s : State) (l : Nat) (k : Link) : (s.setLnk l k).t1ChannelBytes = s.t1ChannelBytes := rfl
@[simp] theorem State.setLnk_t1Retired (s : State) (l : Nat) (k : Link) : (s.setLnk l k).t1Retired = s.t1Retired := rfl
@[simp] theorem State.setLnk_tbStart (s : State) (l : Nat) (k : Link) : (s.setLnk l k).tbStart = s.tbStart := rfl
@[simp] theorem State.setLnk_fabOut (s : State) (l : Nat) (k : Link) : (s.setLnk l k).fabOut = s.fabOut := rfl
@[simp] theorem State.setLnk_fabNo (s : State) (l : Nat) (k : Link) : (s.setLnk l k).fabNo = s.fabNo := rfl
@[simp] theorem State.setLnk_links (s : State) (l : Nat) (k : Link) : (s.setLnk l k).links = Tab.set Link.reset s.links l k := rfl
@[simp] theorem State.setLnk_adverts (s : State) (l : Nat) (k : Link) : (s.setLnk l k).adverts = s.adverts := rfl
@[simp] theorem State.setLnk_advertSeq (s : State) (l : Nat) (k : Link) : (s.setLnk l k).advertSeq = s.advertSeq := rfl
@[simp] theorem State.setLnk_advertAt (s : State) (l : Nat) (k : Link) : (s.setLnk l k).advertAt = s.advertAt := rfl
@[simp] theorem State.setLnk_members (s : State) (l : Nat) (k : Link) : (s.setLnk l k).members = s.members := rfl
@[simp] theorem State.setLnk_fabIn (s : State) (l : Nat) (k : Link) : (s.setLnk l k).fabIn = s.fabIn := rfl
@[simp] theorem State.setLnk_windows (s : State) (l : Nat) (k : Link) : (s.setLnk l k).windows = s.windows := rfl
@[simp] theorem State.setLnk_flows (s : State) (l : Nat) (k : Link) : (s.setLnk l k).flows = s.flows := rfl
@[simp] theorem State.setLnk_treeMap (s : State) (l : Nat) (k : Link) : (s.setLnk l k).treeMap = s.treeMap := rfl
@[simp] theorem State.setLnk_trees (s : State) (l : Nat) (k : Link) : (s.setLnk l k).trees = s.trees := rfl
@[simp] theorem State.setLnk_ueTimes (s : State) (l : Nat) (k : Link) : (s.setLnk l k).ueTimes = s.ueTimes := rfl
@[simp] theorem State.setLnk_ceTimes (s : State) (l : Nat) (k : Link) : (s.setLnk l k).ceTimes = s.ceTimes := rfl
@[simp] theorem State.setLnk_ceSince (s : State) (l : Nat) (k : Link) : (s.setLnk l k).ceSince = s.ceSince := rfl
@[simp] theorem State.setLnk_ceLast (s : State) (l : Nat) (k : Link) : (s.setLnk l k).ceLast = s.ceLast := rfl
@[simp] theorem State.setLnk_retirePending (s : State) (l : Nat) (k : Link) : (s.setLnk l k).retirePending = s.retirePending := rfl
@[simp] theorem State.setLnk_t2Vol (s : State) (l : Nat) (k : Link) : (s.setLnk l k).t2Vol = s.t2Vol := rfl
@[simp] theorem State.setLnk_t2Mem (s : State) (l : Nat) (k : Link) : (s.setLnk l k).t2Mem = s.t2Mem := rfl
@[simp] theorem State.setLnk_drives (s : State) (l : Nat) (k : Link) : (s.setLnk l k).drives = s.drives := rfl
@[simp] theorem State.setLnk_drivesRetired (s : State) (l : Nat) (k : Link) : (s.setLnk l k).drivesRetired = s.drivesRetired := rfl
@[simp] theorem State.setLnk_tier2 (s : State) (l : Nat) (k : Link) : (s.setLnk l k).tier2 = s.tier2 := rfl
@[simp] theorem State.setLnk_nvmeRetried (s : State) (l : Nat) (k : Link) : (s.setLnk l k).nvmeRetried = s.nvmeRetried := rfl
@[simp] theorem State.setLnk_driveReset (s : State) (l : Nat) (k : Link) : (s.setLnk l k).driveReset = s.driveReset := rfl
@[simp] theorem State.setLnk_hotUnits (s : State) (l : Nat) (k : Link) : (s.setLnk l k).hotUnits = s.hotUnits := rfl
@[simp] theorem State.setLnk_lastLine (s : State) (l : Nat) (k : Link) : (s.setLnk l k).lastLine = s.lastLine := rfl
@[simp] theorem State.setLnk_power (s : State) (l : Nat) (k : Link) : (s.setLnk l k).power = s.power := rfl
@[simp] theorem State.setLnk_tmons (s : State) (l : Nat) (k : Link) : (s.setLnk l k).tmons = s.tmons := rfl
@[simp] theorem State.setLnk_thermal (s : State) (l : Nat) (k : Link) : (s.setLnk l k).thermal = s.thermal := rfl
@[simp] theorem State.setLnk_diags (s : State) (l : Nat) (k : Link) : (s.setLnk l k).diags = s.diags := rfl
@[simp] theorem State.setLnk_test (s : State) (l : Nat) (k : Link) : (s.setLnk l k).test = s.test := rfl
@[simp] theorem State.setLnk_snapDue (s : State) (l : Nat) (k : Link) : (s.setLnk l k).snapDue = s.snapDue := rfl
@[simp] theorem State.setLnk_snap (s : State) (l : Nat) (k : Link) : (s.setLnk l k).snap = s.snap := rfl
@[simp] theorem State.setLnk_lastEpoch (s : State) (l : Nat) (k : Link) : (s.setLnk l k).lastEpoch = s.lastEpoch := rfl
@[simp] theorem State.setLnk_mpBeat (s : State) (l : Nat) (k : Link) : (s.setLnk l k).mpBeat = s.mpBeat := rfl
@[simp] theorem State.setLnk_tbHi (s : State) (l : Nat) (k : Link) : (s.setLnk l k).tbHi = s.tbHi := rfl
@[simp] theorem State.setLnk_staged (s : State) (l : Nat) (k : Link) : (s.setLnk l k).staged = s.staged := rfl
@[simp] theorem State.setLnk_speHold (s : State) (l : Nat) (k : Link) : (s.setLnk l k).speHold = s.speHold := rfl
@[simp] theorem State.setLnk_prefillJobs (s : State) (l : Nat) (k : Link) : (s.setLnk l k).prefillJobs = s.prefillJobs := rfl
@[simp] theorem State.setLnk_unloads (s : State) (l : Nat) (k : Link) : (s.setLnk l k).unloads = s.unloads := rfl
@[simp] theorem State.setLnk_l2 (s : State) (l : Nat) (k : Link) : (s.setLnk l k).l2 = s.l2 := rfl
@[simp] theorem State.setLnk_fetchRing (s : State) (l : Nat) (k : Link) : (s.setLnk l k).fetchRing = s.fetchRing := rfl
@[simp] theorem State.setLnk_fetchTaken (s : State) (l : Nat) (k : Link) : (s.setLnk l k).fetchTaken = s.fetchTaken := rfl
@[simp] theorem State.setLnk_portReads (s : State) (l : Nat) (k : Link) : (s.setLnk l k).portReads = s.portReads := rfl
@[simp] theorem State.setLnk_cntAdds (s : State) (l : Nat) (k : Link) : (s.setLnk l k).cntAdds = s.cntAdds := rfl
@[simp] theorem State.setLnk_tbDiffs (s : State) (l : Nat) (k : Link) : (s.setLnk l k).tbDiffs = s.tbDiffs := rfl

/-! ### setTree -/

@[simp] theorem State.setTree_pending (s : State) (t : Nat) (r : TreeRun) : (s.setTree t r).pending = s.pending := rfl
@[simp] theorem State.setTree_now (s : State) (t : Nat) (r : TreeRun) : (s.setTree t r).now = s.now := rfl
@[simp] theorem State.setTree_free (s : State) (t : Nat) (r : TreeRun) : (s.setTree t r).free = s.free := rfl
@[simp] theorem State.setTree_nextId (s : State) (t : Nat) (r : TreeRun) : (s.setTree t r).nextId = s.nextId := rfl
@[simp] theorem State.setTree_bar0 (s : State) (t : Nat) (r : TreeRun) : (s.setTree t r).bar0 = s.bar0 := rfl
@[simp] theorem State.setTree_fns (s : State) (t : Nat) (r : TreeRun) : (s.setTree t r).fns = s.fns := rfl
@[simp] theorem State.setTree_lastRead (s : State) (t : Nat) (r : TreeRun) : (s.setTree t r).lastRead = s.lastRead := rfl
@[simp] theorem State.setTree_rings (s : State) (t : Nat) (r : TreeRun) : (s.setTree t r).rings = s.rings := rfl
@[simp] theorem State.setTree_accepted (s : State) (t : Nat) (r : TreeRun) : (s.setTree t r).accepted = s.accepted := rfl
@[simp] theorem State.setTree_eventSeq (s : State) (t : Nat) (r : TreeRun) : (s.setTree t r).eventSeq = s.eventSeq := rfl
@[simp] theorem State.setTree_held (s : State) (t : Nat) (r : TreeRun) : (s.setTree t r).held = s.held := rfl
@[simp] theorem State.setTree_heldLost (s : State) (t : Nat) (r : TreeRun) : (s.setTree t r).heldLost = s.heldLost := rfl
@[simp] theorem State.setTree_hostMem (s : State) (t : Nat) (r : TreeRun) : (s.setTree t r).hostMem = s.hostMem := rfl
@[simp] theorem State.setTree_mem (s : State) (t : Nat) (r : TreeRun) : (s.setTree t r).mem = s.mem := rfl
@[simp] theorem State.setTree_marks (s : State) (t : Nat) (r : TreeRun) : (s.setTree t r).marks = s.marks := rfl
@[simp] theorem State.setTree_counters (s : State) (t : Nat) (r : TreeRun) : (s.setTree t r).counters = s.counters := rfl
@[simp] theorem State.setTree_counterSat (s : State) (t : Nat) (r : TreeRun) : (s.setTree t r).counterSat = s.counterSat := rfl
@[simp] theorem State.setTree_writes (s : State) (t : Nat) (r : TreeRun) : (s.setTree t r).writes = s.writes := rfl
@[simp] theorem State.setTree_engines (s : State) (t : Nat) (r : TreeRun) : (s.setTree t r).engines = s.engines := rfl
@[simp] theorem State.setTree_galleries (s : State) (t : Nat) (r : TreeRun) : (s.setTree t r).galleries = s.galleries := rfl
@[simp] theorem State.setTree_partials (s : State) (t : Nat) (r : TreeRun) : (s.setTree t r).partials = s.partials := rfl
@[simp] theorem State.setTree_powerSteps (s : State) (t : Nat) (r : TreeRun) : (s.setTree t r).powerSteps = s.powerSteps := rfl
@[simp] theorem State.setTree_cells (s : State) (t : Nat) (r : TreeRun) : (s.setTree t r).cells = s.cells := rfl
@[simp] theorem State.setTree_arrays (s : State) (t : Nat) (r : TreeRun) : (s.setTree t r).arrays = s.arrays := rfl
@[simp] theorem State.setTree_nv (s : State) (t : Nat) (r : TreeRun) : (s.setTree t r).nv = s.nv := rfl
@[simp] theorem State.setTree_dme (s : State) (t : Nat) (r : TreeRun) : (s.setTree t r).dme = s.dme := rfl
@[simp] theorem State.setTree_spe (s : State) (t : Nat) (r : TreeRun) : (s.setTree t r).spe = s.spe := rfl
@[simp] theorem State.setTree_contexts (s : State) (t : Nat) (r : TreeRun) : (s.setTree t r).contexts = s.contexts := rfl
@[simp] theorem State.setTree_coreSlow (s : State) (t : Nat) (r : TreeRun) : (s.setTree t r).coreSlow = s.coreSlow := rfl
@[simp] theorem State.setTree_lastMargin (s : State) (t : Nat) (r : TreeRun) : (s.setTree t r).lastMargin = s.lastMargin := rfl
@[simp] theorem State.setTree_windowOpen (s : State) (t : Nat) (r : TreeRun) : (s.setTree t r).windowOpen = s.windowOpen := rfl
@[simp] theorem State.setTree_progActive (s : State) (t : Nat) (r : TreeRun) : (s.setTree t r).progActive = s.progActive := rfl
@[simp] theorem State.setTree_progWait (s : State) (t : Nat) (r : TreeRun) : (s.setTree t r).progWait = s.progWait := rfl
@[simp] theorem State.setTree_progHall (s : State) (t : Nat) (r : TreeRun) : (s.setTree t r).progHall = s.progHall := rfl
@[simp] theorem State.setTree_vprogAt (s : State) (t : Nat) (r : TreeRun) : (s.setTree t r).vprogAt = s.vprogAt := rfl
@[simp] theorem State.setTree_vprogOff (s : State) (t : Nat) (r : TreeRun) : (s.setTree t r).vprogOff = s.vprogOff := rfl
@[simp] theorem State.setTree_lastWear (s : State) (t : Nat) (r : TreeRun) : (s.setTree t r).lastWear = s.lastWear := rfl
@[simp] theorem State.setTree_loads (s : State) (t : Nat) (r : TreeRun) : (s.setTree t r).loads = s.loads := rfl
@[simp] theorem State.setTree_attQueue (s : State) (t : Nat) (r : TreeRun) : (s.setTree t r).attQueue = s.attQueue := rfl
@[simp] theorem State.setTree_attRuns (s : State) (t : Nat) (r : TreeRun) : (s.setTree t r).attRuns = s.attRuns := rfl
@[simp] theorem State.setTree_attBusy (s : State) (t : Nat) (r : TreeRun) : (s.setTree t r).attBusy = s.attBusy := rfl
@[simp] theorem State.setTree_kvCache (s : State) (t : Nat) (r : TreeRun) : (s.setTree t r).kvCache = s.kvCache := rfl
@[simp] theorem State.setTree_fetches (s : State) (t : Nat) (r : TreeRun) : (s.setTree t r).fetches = s.fetches := rfl
@[simp] theorem State.setTree_kvUsed (s : State) (t : Nat) (r : TreeRun) : (s.setTree t r).kvUsed = s.kvUsed := rfl
@[simp] theorem State.setTree_parks (s : State) (t : Nat) (r : TreeRun) : (s.setTree t r).parks = s.parks := rfl
@[simp] theorem State.setTree_tokenisers (s : State) (t : Nat) (r : TreeRun) : (s.setTree t r).tokenisers = s.tokenisers := rfl
@[simp] theorem State.setTree_tokWait (s : State) (t : Nat) (r : TreeRun) : (s.setTree t r).tokWait = s.tokWait := rfl
@[simp] theorem State.setTree_profileCmd (s : State) (t : Nat) (r : TreeRun) : (s.setTree t r).profileCmd = s.profileCmd := rfl
@[simp] theorem State.setTree_prefillTurn (s : State) (t : Nat) (r : TreeRun) : (s.setTree t r).prefillTurn = s.prefillTurn := rfl
@[simp] theorem State.setTree_lastBeat (s : State) (t : Nat) (r : TreeRun) : (s.setTree t r).lastBeat = s.lastBeat := rfl
@[simp] theorem State.setTree_streams (s : State) (t : Nat) (r : TreeRun) : (s.setTree t r).streams = s.streams := rfl
@[simp] theorem State.setTree_mgmtPort (s : State) (t : Nat) (r : TreeRun) : (s.setTree t r).mgmtPort = s.mgmtPort := rfl
@[simp] theorem State.setTree_boot (s : State) (t : Nat) (r : TreeRun) : (s.setTree t r).boot = s.boot := rfl
@[simp] theorem State.setTree_bootGiven (s : State) (t : Nat) (r : TreeRun) : (s.setTree t r).bootGiven = s.bootGiven := rfl
@[simp] theorem State.setTree_orphans (s : State) (t : Nat) (r : TreeRun) : (s.setTree t r).orphans = s.orphans := rfl
@[simp] theorem State.setTree_hostLines (s : State) (t : Nat) (r : TreeRun) : (s.setTree t r).hostLines = s.hostLines := rfl
@[simp] theorem State.setTree_dir (s : State) (t : Nat) (r : TreeRun) : (s.setTree t r).dir = s.dir := rfl
@[simp] theorem State.setTree_scoreboard (s : State) (t : Nat) (r : TreeRun) : (s.setTree t r).scoreboard = s.scoreboard := rfl
@[simp] theorem State.setTree_hbmStacks (s : State) (t : Nat) (r : TreeRun) : (s.setTree t r).hbmStacks = s.hbmStacks := rfl
@[simp] theorem State.setTree_t1Channels (s : State) (t : Nat) (r : TreeRun) : (s.setTree t r).t1Channels = s.t1Channels := rfl
@[simp] theorem State.setTree_t1ChannelBytes (s : State) (t : Nat) (r : TreeRun) : (s.setTree t r).t1ChannelBytes = s.t1ChannelBytes := rfl
@[simp] theorem State.setTree_t1Retired (s : State) (t : Nat) (r : TreeRun) : (s.setTree t r).t1Retired = s.t1Retired := rfl
@[simp] theorem State.setTree_tbStart (s : State) (t : Nat) (r : TreeRun) : (s.setTree t r).tbStart = s.tbStart := rfl
@[simp] theorem State.setTree_fabOut (s : State) (t : Nat) (r : TreeRun) : (s.setTree t r).fabOut = s.fabOut := rfl
@[simp] theorem State.setTree_fabNo (s : State) (t : Nat) (r : TreeRun) : (s.setTree t r).fabNo = s.fabNo := rfl
@[simp] theorem State.setTree_links (s : State) (t : Nat) (r : TreeRun) : (s.setTree t r).links = s.links := rfl
@[simp] theorem State.setTree_adverts (s : State) (t : Nat) (r : TreeRun) : (s.setTree t r).adverts = s.adverts := rfl
@[simp] theorem State.setTree_advertSeq (s : State) (t : Nat) (r : TreeRun) : (s.setTree t r).advertSeq = s.advertSeq := rfl
@[simp] theorem State.setTree_advertAt (s : State) (t : Nat) (r : TreeRun) : (s.setTree t r).advertAt = s.advertAt := rfl
@[simp] theorem State.setTree_members (s : State) (t : Nat) (r : TreeRun) : (s.setTree t r).members = s.members := rfl
@[simp] theorem State.setTree_fabIn (s : State) (t : Nat) (r : TreeRun) : (s.setTree t r).fabIn = s.fabIn := rfl
@[simp] theorem State.setTree_windows (s : State) (t : Nat) (r : TreeRun) : (s.setTree t r).windows = s.windows := rfl
@[simp] theorem State.setTree_flows (s : State) (t : Nat) (r : TreeRun) : (s.setTree t r).flows = s.flows := rfl
@[simp] theorem State.setTree_treeMap (s : State) (t : Nat) (r : TreeRun) : (s.setTree t r).treeMap = s.treeMap := rfl
@[simp] theorem State.setTree_trees (s : State) (t : Nat) (r : TreeRun) : (s.setTree t r).trees = Tab.set TreeRun.reset s.trees t r := rfl
@[simp] theorem State.setTree_ueTimes (s : State) (t : Nat) (r : TreeRun) : (s.setTree t r).ueTimes = s.ueTimes := rfl
@[simp] theorem State.setTree_ceTimes (s : State) (t : Nat) (r : TreeRun) : (s.setTree t r).ceTimes = s.ceTimes := rfl
@[simp] theorem State.setTree_ceSince (s : State) (t : Nat) (r : TreeRun) : (s.setTree t r).ceSince = s.ceSince := rfl
@[simp] theorem State.setTree_ceLast (s : State) (t : Nat) (r : TreeRun) : (s.setTree t r).ceLast = s.ceLast := rfl
@[simp] theorem State.setTree_retirePending (s : State) (t : Nat) (r : TreeRun) : (s.setTree t r).retirePending = s.retirePending := rfl
@[simp] theorem State.setTree_t2Vol (s : State) (t : Nat) (r : TreeRun) : (s.setTree t r).t2Vol = s.t2Vol := rfl
@[simp] theorem State.setTree_t2Mem (s : State) (t : Nat) (r : TreeRun) : (s.setTree t r).t2Mem = s.t2Mem := rfl
@[simp] theorem State.setTree_drives (s : State) (t : Nat) (r : TreeRun) : (s.setTree t r).drives = s.drives := rfl
@[simp] theorem State.setTree_drivesRetired (s : State) (t : Nat) (r : TreeRun) : (s.setTree t r).drivesRetired = s.drivesRetired := rfl
@[simp] theorem State.setTree_tier2 (s : State) (t : Nat) (r : TreeRun) : (s.setTree t r).tier2 = s.tier2 := rfl
@[simp] theorem State.setTree_nvmeRetried (s : State) (t : Nat) (r : TreeRun) : (s.setTree t r).nvmeRetried = s.nvmeRetried := rfl
@[simp] theorem State.setTree_driveReset (s : State) (t : Nat) (r : TreeRun) : (s.setTree t r).driveReset = s.driveReset := rfl
@[simp] theorem State.setTree_hotUnits (s : State) (t : Nat) (r : TreeRun) : (s.setTree t r).hotUnits = s.hotUnits := rfl
@[simp] theorem State.setTree_lastLine (s : State) (t : Nat) (r : TreeRun) : (s.setTree t r).lastLine = s.lastLine := rfl
@[simp] theorem State.setTree_power (s : State) (t : Nat) (r : TreeRun) : (s.setTree t r).power = s.power := rfl
@[simp] theorem State.setTree_tmons (s : State) (t : Nat) (r : TreeRun) : (s.setTree t r).tmons = s.tmons := rfl
@[simp] theorem State.setTree_thermal (s : State) (t : Nat) (r : TreeRun) : (s.setTree t r).thermal = s.thermal := rfl
@[simp] theorem State.setTree_diags (s : State) (t : Nat) (r : TreeRun) : (s.setTree t r).diags = s.diags := rfl
@[simp] theorem State.setTree_test (s : State) (t : Nat) (r : TreeRun) : (s.setTree t r).test = s.test := rfl
@[simp] theorem State.setTree_snapDue (s : State) (t : Nat) (r : TreeRun) : (s.setTree t r).snapDue = s.snapDue := rfl
@[simp] theorem State.setTree_snap (s : State) (t : Nat) (r : TreeRun) : (s.setTree t r).snap = s.snap := rfl
@[simp] theorem State.setTree_lastEpoch (s : State) (t : Nat) (r : TreeRun) : (s.setTree t r).lastEpoch = s.lastEpoch := rfl
@[simp] theorem State.setTree_mpBeat (s : State) (t : Nat) (r : TreeRun) : (s.setTree t r).mpBeat = s.mpBeat := rfl
@[simp] theorem State.setTree_tbHi (s : State) (t : Nat) (r : TreeRun) : (s.setTree t r).tbHi = s.tbHi := rfl
@[simp] theorem State.setTree_staged (s : State) (t : Nat) (r : TreeRun) : (s.setTree t r).staged = s.staged := rfl
@[simp] theorem State.setTree_speHold (s : State) (t : Nat) (r : TreeRun) : (s.setTree t r).speHold = s.speHold := rfl
@[simp] theorem State.setTree_prefillJobs (s : State) (t : Nat) (r : TreeRun) : (s.setTree t r).prefillJobs = s.prefillJobs := rfl
@[simp] theorem State.setTree_unloads (s : State) (t : Nat) (r : TreeRun) : (s.setTree t r).unloads = s.unloads := rfl
@[simp] theorem State.setTree_l2 (s : State) (t : Nat) (r : TreeRun) : (s.setTree t r).l2 = s.l2 := rfl
@[simp] theorem State.setTree_fetchRing (s : State) (t : Nat) (r : TreeRun) : (s.setTree t r).fetchRing = s.fetchRing := rfl
@[simp] theorem State.setTree_fetchTaken (s : State) (t : Nat) (r : TreeRun) : (s.setTree t r).fetchTaken = s.fetchTaken := rfl
@[simp] theorem State.setTree_portReads (s : State) (t : Nat) (r : TreeRun) : (s.setTree t r).portReads = s.portReads := rfl
@[simp] theorem State.setTree_cntAdds (s : State) (t : Nat) (r : TreeRun) : (s.setTree t r).cntAdds = s.cntAdds := rfl
@[simp] theorem State.setTree_tbDiffs (s : State) (t : Nat) (r : TreeRun) : (s.setTree t r).tbDiffs = s.tbDiffs := rfl

/-! ### setCounter -/

@[simp] theorem State.setCounter_pending (s : State) (key v : Nat) : (s.setCounter key v).pending = s.pending := rfl
@[simp] theorem State.setCounter_now (s : State) (key v : Nat) : (s.setCounter key v).now = s.now := rfl
@[simp] theorem State.setCounter_free (s : State) (key v : Nat) : (s.setCounter key v).free = s.free := rfl
@[simp] theorem State.setCounter_nextId (s : State) (key v : Nat) : (s.setCounter key v).nextId = s.nextId := rfl
@[simp] theorem State.setCounter_bar0 (s : State) (key v : Nat) : (s.setCounter key v).bar0 = s.bar0 := rfl
@[simp] theorem State.setCounter_fns (s : State) (key v : Nat) : (s.setCounter key v).fns = s.fns := rfl
@[simp] theorem State.setCounter_lastRead (s : State) (key v : Nat) : (s.setCounter key v).lastRead = s.lastRead := rfl
@[simp] theorem State.setCounter_rings (s : State) (key v : Nat) : (s.setCounter key v).rings = s.rings := rfl
@[simp] theorem State.setCounter_accepted (s : State) (key v : Nat) : (s.setCounter key v).accepted = s.accepted := rfl
@[simp] theorem State.setCounter_eventSeq (s : State) (key v : Nat) : (s.setCounter key v).eventSeq = s.eventSeq := rfl
@[simp] theorem State.setCounter_held (s : State) (key v : Nat) : (s.setCounter key v).held = s.held := rfl
@[simp] theorem State.setCounter_heldLost (s : State) (key v : Nat) : (s.setCounter key v).heldLost = s.heldLost := rfl
@[simp] theorem State.setCounter_hostMem (s : State) (key v : Nat) : (s.setCounter key v).hostMem = s.hostMem := rfl
@[simp] theorem State.setCounter_mem (s : State) (key v : Nat) : (s.setCounter key v).mem = s.mem := rfl
@[simp] theorem State.setCounter_marks (s : State) (key v : Nat) : (s.setCounter key v).marks = s.marks := rfl
@[simp] theorem State.setCounter_counters (s : State) (key v : Nat) : (s.setCounter key v).counters = Tab.set 0 s.counters key v := rfl
@[simp] theorem State.setCounter_counterSat (s : State) (key v : Nat) : (s.setCounter key v).counterSat = s.counterSat := rfl
@[simp] theorem State.setCounter_writes (s : State) (key v : Nat) : (s.setCounter key v).writes = s.writes := rfl
@[simp] theorem State.setCounter_engines (s : State) (key v : Nat) : (s.setCounter key v).engines = s.engines := rfl
@[simp] theorem State.setCounter_galleries (s : State) (key v : Nat) : (s.setCounter key v).galleries = s.galleries := rfl
@[simp] theorem State.setCounter_partials (s : State) (key v : Nat) : (s.setCounter key v).partials = s.partials := rfl
@[simp] theorem State.setCounter_powerSteps (s : State) (key v : Nat) : (s.setCounter key v).powerSteps = s.powerSteps := rfl
@[simp] theorem State.setCounter_cells (s : State) (key v : Nat) : (s.setCounter key v).cells = s.cells := rfl
@[simp] theorem State.setCounter_arrays (s : State) (key v : Nat) : (s.setCounter key v).arrays = s.arrays := rfl
@[simp] theorem State.setCounter_nv (s : State) (key v : Nat) : (s.setCounter key v).nv = s.nv := rfl
@[simp] theorem State.setCounter_dme (s : State) (key v : Nat) : (s.setCounter key v).dme = s.dme := rfl
@[simp] theorem State.setCounter_spe (s : State) (key v : Nat) : (s.setCounter key v).spe = s.spe := rfl
@[simp] theorem State.setCounter_contexts (s : State) (key v : Nat) : (s.setCounter key v).contexts = s.contexts := rfl
@[simp] theorem State.setCounter_coreSlow (s : State) (key v : Nat) : (s.setCounter key v).coreSlow = s.coreSlow := rfl
@[simp] theorem State.setCounter_lastMargin (s : State) (key v : Nat) : (s.setCounter key v).lastMargin = s.lastMargin := rfl
@[simp] theorem State.setCounter_windowOpen (s : State) (key v : Nat) : (s.setCounter key v).windowOpen = s.windowOpen := rfl
@[simp] theorem State.setCounter_progActive (s : State) (key v : Nat) : (s.setCounter key v).progActive = s.progActive := rfl
@[simp] theorem State.setCounter_progWait (s : State) (key v : Nat) : (s.setCounter key v).progWait = s.progWait := rfl
@[simp] theorem State.setCounter_progHall (s : State) (key v : Nat) : (s.setCounter key v).progHall = s.progHall := rfl
@[simp] theorem State.setCounter_vprogAt (s : State) (key v : Nat) : (s.setCounter key v).vprogAt = s.vprogAt := rfl
@[simp] theorem State.setCounter_vprogOff (s : State) (key v : Nat) : (s.setCounter key v).vprogOff = s.vprogOff := rfl
@[simp] theorem State.setCounter_lastWear (s : State) (key v : Nat) : (s.setCounter key v).lastWear = s.lastWear := rfl
@[simp] theorem State.setCounter_loads (s : State) (key v : Nat) : (s.setCounter key v).loads = s.loads := rfl
@[simp] theorem State.setCounter_attQueue (s : State) (key v : Nat) : (s.setCounter key v).attQueue = s.attQueue := rfl
@[simp] theorem State.setCounter_attRuns (s : State) (key v : Nat) : (s.setCounter key v).attRuns = s.attRuns := rfl
@[simp] theorem State.setCounter_attBusy (s : State) (key v : Nat) : (s.setCounter key v).attBusy = s.attBusy := rfl
@[simp] theorem State.setCounter_kvCache (s : State) (key v : Nat) : (s.setCounter key v).kvCache = s.kvCache := rfl
@[simp] theorem State.setCounter_fetches (s : State) (key v : Nat) : (s.setCounter key v).fetches = s.fetches := rfl
@[simp] theorem State.setCounter_kvUsed (s : State) (key v : Nat) : (s.setCounter key v).kvUsed = s.kvUsed := rfl
@[simp] theorem State.setCounter_parks (s : State) (key v : Nat) : (s.setCounter key v).parks = s.parks := rfl
@[simp] theorem State.setCounter_tokenisers (s : State) (key v : Nat) : (s.setCounter key v).tokenisers = s.tokenisers := rfl
@[simp] theorem State.setCounter_tokWait (s : State) (key v : Nat) : (s.setCounter key v).tokWait = s.tokWait := rfl
@[simp] theorem State.setCounter_profileCmd (s : State) (key v : Nat) : (s.setCounter key v).profileCmd = s.profileCmd := rfl
@[simp] theorem State.setCounter_prefillTurn (s : State) (key v : Nat) : (s.setCounter key v).prefillTurn = s.prefillTurn := rfl
@[simp] theorem State.setCounter_lastBeat (s : State) (key v : Nat) : (s.setCounter key v).lastBeat = s.lastBeat := rfl
@[simp] theorem State.setCounter_streams (s : State) (key v : Nat) : (s.setCounter key v).streams = s.streams := rfl
@[simp] theorem State.setCounter_mgmtPort (s : State) (key v : Nat) : (s.setCounter key v).mgmtPort = s.mgmtPort := rfl
@[simp] theorem State.setCounter_boot (s : State) (key v : Nat) : (s.setCounter key v).boot = s.boot := rfl
@[simp] theorem State.setCounter_bootGiven (s : State) (key v : Nat) : (s.setCounter key v).bootGiven = s.bootGiven := rfl
@[simp] theorem State.setCounter_orphans (s : State) (key v : Nat) : (s.setCounter key v).orphans = s.orphans := rfl
@[simp] theorem State.setCounter_hostLines (s : State) (key v : Nat) : (s.setCounter key v).hostLines = s.hostLines := rfl
@[simp] theorem State.setCounter_dir (s : State) (key v : Nat) : (s.setCounter key v).dir = s.dir := rfl
@[simp] theorem State.setCounter_scoreboard (s : State) (key v : Nat) : (s.setCounter key v).scoreboard = s.scoreboard := rfl
@[simp] theorem State.setCounter_hbmStacks (s : State) (key v : Nat) : (s.setCounter key v).hbmStacks = s.hbmStacks := rfl
@[simp] theorem State.setCounter_t1Channels (s : State) (key v : Nat) : (s.setCounter key v).t1Channels = s.t1Channels := rfl
@[simp] theorem State.setCounter_t1ChannelBytes (s : State) (key v : Nat) : (s.setCounter key v).t1ChannelBytes = s.t1ChannelBytes := rfl
@[simp] theorem State.setCounter_t1Retired (s : State) (key v : Nat) : (s.setCounter key v).t1Retired = s.t1Retired := rfl
@[simp] theorem State.setCounter_tbStart (s : State) (key v : Nat) : (s.setCounter key v).tbStart = s.tbStart := rfl
@[simp] theorem State.setCounter_fabOut (s : State) (key v : Nat) : (s.setCounter key v).fabOut = s.fabOut := rfl
@[simp] theorem State.setCounter_fabNo (s : State) (key v : Nat) : (s.setCounter key v).fabNo = s.fabNo := rfl
@[simp] theorem State.setCounter_links (s : State) (key v : Nat) : (s.setCounter key v).links = s.links := rfl
@[simp] theorem State.setCounter_adverts (s : State) (key v : Nat) : (s.setCounter key v).adverts = s.adverts := rfl
@[simp] theorem State.setCounter_advertSeq (s : State) (key v : Nat) : (s.setCounter key v).advertSeq = s.advertSeq := rfl
@[simp] theorem State.setCounter_advertAt (s : State) (key v : Nat) : (s.setCounter key v).advertAt = s.advertAt := rfl
@[simp] theorem State.setCounter_members (s : State) (key v : Nat) : (s.setCounter key v).members = s.members := rfl
@[simp] theorem State.setCounter_fabIn (s : State) (key v : Nat) : (s.setCounter key v).fabIn = s.fabIn := rfl
@[simp] theorem State.setCounter_windows (s : State) (key v : Nat) : (s.setCounter key v).windows = s.windows := rfl
@[simp] theorem State.setCounter_flows (s : State) (key v : Nat) : (s.setCounter key v).flows = s.flows := rfl
@[simp] theorem State.setCounter_treeMap (s : State) (key v : Nat) : (s.setCounter key v).treeMap = s.treeMap := rfl
@[simp] theorem State.setCounter_trees (s : State) (key v : Nat) : (s.setCounter key v).trees = s.trees := rfl
@[simp] theorem State.setCounter_ueTimes (s : State) (key v : Nat) : (s.setCounter key v).ueTimes = s.ueTimes := rfl
@[simp] theorem State.setCounter_ceTimes (s : State) (key v : Nat) : (s.setCounter key v).ceTimes = s.ceTimes := rfl
@[simp] theorem State.setCounter_ceSince (s : State) (key v : Nat) : (s.setCounter key v).ceSince = s.ceSince := rfl
@[simp] theorem State.setCounter_ceLast (s : State) (key v : Nat) : (s.setCounter key v).ceLast = s.ceLast := rfl
@[simp] theorem State.setCounter_retirePending (s : State) (key v : Nat) : (s.setCounter key v).retirePending = s.retirePending := rfl
@[simp] theorem State.setCounter_t2Vol (s : State) (key v : Nat) : (s.setCounter key v).t2Vol = s.t2Vol := rfl
@[simp] theorem State.setCounter_t2Mem (s : State) (key v : Nat) : (s.setCounter key v).t2Mem = s.t2Mem := rfl
@[simp] theorem State.setCounter_drives (s : State) (key v : Nat) : (s.setCounter key v).drives = s.drives := rfl
@[simp] theorem State.setCounter_drivesRetired (s : State) (key v : Nat) : (s.setCounter key v).drivesRetired = s.drivesRetired := rfl
@[simp] theorem State.setCounter_tier2 (s : State) (key v : Nat) : (s.setCounter key v).tier2 = s.tier2 := rfl
@[simp] theorem State.setCounter_nvmeRetried (s : State) (key v : Nat) : (s.setCounter key v).nvmeRetried = s.nvmeRetried := rfl
@[simp] theorem State.setCounter_driveReset (s : State) (key v : Nat) : (s.setCounter key v).driveReset = s.driveReset := rfl
@[simp] theorem State.setCounter_hotUnits (s : State) (key v : Nat) : (s.setCounter key v).hotUnits = s.hotUnits := rfl
@[simp] theorem State.setCounter_lastLine (s : State) (key v : Nat) : (s.setCounter key v).lastLine = s.lastLine := rfl
@[simp] theorem State.setCounter_power (s : State) (key v : Nat) : (s.setCounter key v).power = s.power := rfl
@[simp] theorem State.setCounter_tmons (s : State) (key v : Nat) : (s.setCounter key v).tmons = s.tmons := rfl
@[simp] theorem State.setCounter_thermal (s : State) (key v : Nat) : (s.setCounter key v).thermal = s.thermal := rfl
@[simp] theorem State.setCounter_diags (s : State) (key v : Nat) : (s.setCounter key v).diags = s.diags := rfl
@[simp] theorem State.setCounter_test (s : State) (key v : Nat) : (s.setCounter key v).test = s.test := rfl
@[simp] theorem State.setCounter_snapDue (s : State) (key v : Nat) : (s.setCounter key v).snapDue = s.snapDue := rfl
@[simp] theorem State.setCounter_snap (s : State) (key v : Nat) : (s.setCounter key v).snap = s.snap := rfl
@[simp] theorem State.setCounter_lastEpoch (s : State) (key v : Nat) : (s.setCounter key v).lastEpoch = s.lastEpoch := rfl
@[simp] theorem State.setCounter_mpBeat (s : State) (key v : Nat) : (s.setCounter key v).mpBeat = s.mpBeat := rfl
@[simp] theorem State.setCounter_tbHi (s : State) (key v : Nat) : (s.setCounter key v).tbHi = s.tbHi := rfl
@[simp] theorem State.setCounter_staged (s : State) (key v : Nat) : (s.setCounter key v).staged = s.staged := rfl
@[simp] theorem State.setCounter_speHold (s : State) (key v : Nat) : (s.setCounter key v).speHold = s.speHold := rfl
@[simp] theorem State.setCounter_prefillJobs (s : State) (key v : Nat) : (s.setCounter key v).prefillJobs = s.prefillJobs := rfl
@[simp] theorem State.setCounter_unloads (s : State) (key v : Nat) : (s.setCounter key v).unloads = s.unloads := rfl
@[simp] theorem State.setCounter_l2 (s : State) (key v : Nat) : (s.setCounter key v).l2 = s.l2 := rfl
@[simp] theorem State.setCounter_fetchRing (s : State) (key v : Nat) : (s.setCounter key v).fetchRing = s.fetchRing := rfl
@[simp] theorem State.setCounter_fetchTaken (s : State) (key v : Nat) : (s.setCounter key v).fetchTaken = s.fetchTaken := rfl
@[simp] theorem State.setCounter_portReads (s : State) (key v : Nat) : (s.setCounter key v).portReads = s.portReads := rfl
@[simp] theorem State.setCounter_cntAdds (s : State) (key v : Nat) : (s.setCounter key v).cntAdds = s.cntAdds := rfl
@[simp] theorem State.setCounter_tbDiffs (s : State) (key v : Nat) : (s.setCounter key v).tbDiffs = s.tbDiffs := rfl

/-! ### markLine -/

@[simp] theorem State.markLine_pending (s : State) (a : Nat) : (s.markLine a).pending = s.pending := rfl
@[simp] theorem State.markLine_now (s : State) (a : Nat) : (s.markLine a).now = s.now := rfl
@[simp] theorem State.markLine_free (s : State) (a : Nat) : (s.markLine a).free = s.free := rfl
@[simp] theorem State.markLine_nextId (s : State) (a : Nat) : (s.markLine a).nextId = s.nextId := rfl
@[simp] theorem State.markLine_bar0 (s : State) (a : Nat) : (s.markLine a).bar0 = s.bar0 := rfl
@[simp] theorem State.markLine_fns (s : State) (a : Nat) : (s.markLine a).fns = s.fns := rfl
@[simp] theorem State.markLine_lastRead (s : State) (a : Nat) : (s.markLine a).lastRead = s.lastRead := rfl
@[simp] theorem State.markLine_rings (s : State) (a : Nat) : (s.markLine a).rings = s.rings := rfl
@[simp] theorem State.markLine_accepted (s : State) (a : Nat) : (s.markLine a).accepted = s.accepted := rfl
@[simp] theorem State.markLine_eventSeq (s : State) (a : Nat) : (s.markLine a).eventSeq = s.eventSeq := rfl
@[simp] theorem State.markLine_held (s : State) (a : Nat) : (s.markLine a).held = s.held := rfl
@[simp] theorem State.markLine_heldLost (s : State) (a : Nat) : (s.markLine a).heldLost = s.heldLost := rfl
@[simp] theorem State.markLine_hostMem (s : State) (a : Nat) : (s.markLine a).hostMem = s.hostMem := rfl
@[simp] theorem State.markLine_mem (s : State) (a : Nat) : (s.markLine a).mem = s.mem := rfl
@[simp] theorem State.markLine_marks (s : State) (a : Nat) : (s.markLine a).marks = Tab.set false s.marks (a / 64) true := rfl
@[simp] theorem State.markLine_counters (s : State) (a : Nat) : (s.markLine a).counters = s.counters := rfl
@[simp] theorem State.markLine_counterSat (s : State) (a : Nat) : (s.markLine a).counterSat = s.counterSat := rfl
@[simp] theorem State.markLine_writes (s : State) (a : Nat) : (s.markLine a).writes = s.writes := rfl
@[simp] theorem State.markLine_engines (s : State) (a : Nat) : (s.markLine a).engines = s.engines := rfl
@[simp] theorem State.markLine_galleries (s : State) (a : Nat) : (s.markLine a).galleries = s.galleries := rfl
@[simp] theorem State.markLine_partials (s : State) (a : Nat) : (s.markLine a).partials = s.partials := rfl
@[simp] theorem State.markLine_powerSteps (s : State) (a : Nat) : (s.markLine a).powerSteps = s.powerSteps := rfl
@[simp] theorem State.markLine_cells (s : State) (a : Nat) : (s.markLine a).cells = s.cells := rfl
@[simp] theorem State.markLine_arrays (s : State) (a : Nat) : (s.markLine a).arrays = s.arrays := rfl
@[simp] theorem State.markLine_nv (s : State) (a : Nat) : (s.markLine a).nv = s.nv := rfl
@[simp] theorem State.markLine_dme (s : State) (a : Nat) : (s.markLine a).dme = s.dme := rfl
@[simp] theorem State.markLine_spe (s : State) (a : Nat) : (s.markLine a).spe = s.spe := rfl
@[simp] theorem State.markLine_contexts (s : State) (a : Nat) : (s.markLine a).contexts = s.contexts := rfl
@[simp] theorem State.markLine_coreSlow (s : State) (a : Nat) : (s.markLine a).coreSlow = s.coreSlow := rfl
@[simp] theorem State.markLine_lastMargin (s : State) (a : Nat) : (s.markLine a).lastMargin = s.lastMargin := rfl
@[simp] theorem State.markLine_windowOpen (s : State) (a : Nat) : (s.markLine a).windowOpen = s.windowOpen := rfl
@[simp] theorem State.markLine_progActive (s : State) (a : Nat) : (s.markLine a).progActive = s.progActive := rfl
@[simp] theorem State.markLine_progWait (s : State) (a : Nat) : (s.markLine a).progWait = s.progWait := rfl
@[simp] theorem State.markLine_progHall (s : State) (a : Nat) : (s.markLine a).progHall = s.progHall := rfl
@[simp] theorem State.markLine_vprogAt (s : State) (a : Nat) : (s.markLine a).vprogAt = s.vprogAt := rfl
@[simp] theorem State.markLine_vprogOff (s : State) (a : Nat) : (s.markLine a).vprogOff = s.vprogOff := rfl
@[simp] theorem State.markLine_lastWear (s : State) (a : Nat) : (s.markLine a).lastWear = s.lastWear := rfl
@[simp] theorem State.markLine_loads (s : State) (a : Nat) : (s.markLine a).loads = s.loads := rfl
@[simp] theorem State.markLine_attQueue (s : State) (a : Nat) : (s.markLine a).attQueue = s.attQueue := rfl
@[simp] theorem State.markLine_attRuns (s : State) (a : Nat) : (s.markLine a).attRuns = s.attRuns := rfl
@[simp] theorem State.markLine_attBusy (s : State) (a : Nat) : (s.markLine a).attBusy = s.attBusy := rfl
@[simp] theorem State.markLine_kvCache (s : State) (a : Nat) : (s.markLine a).kvCache = s.kvCache := rfl
@[simp] theorem State.markLine_fetches (s : State) (a : Nat) : (s.markLine a).fetches = s.fetches := rfl
@[simp] theorem State.markLine_kvUsed (s : State) (a : Nat) : (s.markLine a).kvUsed = s.kvUsed := rfl
@[simp] theorem State.markLine_parks (s : State) (a : Nat) : (s.markLine a).parks = s.parks := rfl
@[simp] theorem State.markLine_tokenisers (s : State) (a : Nat) : (s.markLine a).tokenisers = s.tokenisers := rfl
@[simp] theorem State.markLine_tokWait (s : State) (a : Nat) : (s.markLine a).tokWait = s.tokWait := rfl
@[simp] theorem State.markLine_profileCmd (s : State) (a : Nat) : (s.markLine a).profileCmd = s.profileCmd := rfl
@[simp] theorem State.markLine_prefillTurn (s : State) (a : Nat) : (s.markLine a).prefillTurn = s.prefillTurn := rfl
@[simp] theorem State.markLine_lastBeat (s : State) (a : Nat) : (s.markLine a).lastBeat = s.lastBeat := rfl
@[simp] theorem State.markLine_streams (s : State) (a : Nat) : (s.markLine a).streams = s.streams := rfl
@[simp] theorem State.markLine_mgmtPort (s : State) (a : Nat) : (s.markLine a).mgmtPort = s.mgmtPort := rfl
@[simp] theorem State.markLine_boot (s : State) (a : Nat) : (s.markLine a).boot = s.boot := rfl
@[simp] theorem State.markLine_bootGiven (s : State) (a : Nat) : (s.markLine a).bootGiven = s.bootGiven := rfl
@[simp] theorem State.markLine_orphans (s : State) (a : Nat) : (s.markLine a).orphans = s.orphans := rfl
@[simp] theorem State.markLine_hostLines (s : State) (a : Nat) : (s.markLine a).hostLines = s.hostLines := rfl
@[simp] theorem State.markLine_dir (s : State) (a : Nat) : (s.markLine a).dir = s.dir := rfl
@[simp] theorem State.markLine_scoreboard (s : State) (a : Nat) : (s.markLine a).scoreboard = s.scoreboard := rfl
@[simp] theorem State.markLine_hbmStacks (s : State) (a : Nat) : (s.markLine a).hbmStacks = s.hbmStacks := rfl
@[simp] theorem State.markLine_t1Channels (s : State) (a : Nat) : (s.markLine a).t1Channels = s.t1Channels := rfl
@[simp] theorem State.markLine_t1ChannelBytes (s : State) (a : Nat) : (s.markLine a).t1ChannelBytes = s.t1ChannelBytes := rfl
@[simp] theorem State.markLine_t1Retired (s : State) (a : Nat) : (s.markLine a).t1Retired = s.t1Retired := rfl
@[simp] theorem State.markLine_tbStart (s : State) (a : Nat) : (s.markLine a).tbStart = s.tbStart := rfl
@[simp] theorem State.markLine_fabOut (s : State) (a : Nat) : (s.markLine a).fabOut = s.fabOut := rfl
@[simp] theorem State.markLine_fabNo (s : State) (a : Nat) : (s.markLine a).fabNo = s.fabNo := rfl
@[simp] theorem State.markLine_links (s : State) (a : Nat) : (s.markLine a).links = s.links := rfl
@[simp] theorem State.markLine_adverts (s : State) (a : Nat) : (s.markLine a).adverts = s.adverts := rfl
@[simp] theorem State.markLine_advertSeq (s : State) (a : Nat) : (s.markLine a).advertSeq = s.advertSeq := rfl
@[simp] theorem State.markLine_advertAt (s : State) (a : Nat) : (s.markLine a).advertAt = s.advertAt := rfl
@[simp] theorem State.markLine_members (s : State) (a : Nat) : (s.markLine a).members = s.members := rfl
@[simp] theorem State.markLine_fabIn (s : State) (a : Nat) : (s.markLine a).fabIn = s.fabIn := rfl
@[simp] theorem State.markLine_windows (s : State) (a : Nat) : (s.markLine a).windows = s.windows := rfl
@[simp] theorem State.markLine_flows (s : State) (a : Nat) : (s.markLine a).flows = s.flows := rfl
@[simp] theorem State.markLine_treeMap (s : State) (a : Nat) : (s.markLine a).treeMap = s.treeMap := rfl
@[simp] theorem State.markLine_trees (s : State) (a : Nat) : (s.markLine a).trees = s.trees := rfl
@[simp] theorem State.markLine_ueTimes (s : State) (a : Nat) : (s.markLine a).ueTimes = s.ueTimes := rfl
@[simp] theorem State.markLine_ceTimes (s : State) (a : Nat) : (s.markLine a).ceTimes = s.ceTimes := rfl
@[simp] theorem State.markLine_ceSince (s : State) (a : Nat) : (s.markLine a).ceSince = s.ceSince := rfl
@[simp] theorem State.markLine_ceLast (s : State) (a : Nat) : (s.markLine a).ceLast = s.ceLast := rfl
@[simp] theorem State.markLine_retirePending (s : State) (a : Nat) : (s.markLine a).retirePending = s.retirePending := rfl
@[simp] theorem State.markLine_t2Vol (s : State) (a : Nat) : (s.markLine a).t2Vol = s.t2Vol := rfl
@[simp] theorem State.markLine_t2Mem (s : State) (a : Nat) : (s.markLine a).t2Mem = s.t2Mem := rfl
@[simp] theorem State.markLine_drives (s : State) (a : Nat) : (s.markLine a).drives = s.drives := rfl
@[simp] theorem State.markLine_drivesRetired (s : State) (a : Nat) : (s.markLine a).drivesRetired = s.drivesRetired := rfl
@[simp] theorem State.markLine_tier2 (s : State) (a : Nat) : (s.markLine a).tier2 = s.tier2 := rfl
@[simp] theorem State.markLine_nvmeRetried (s : State) (a : Nat) : (s.markLine a).nvmeRetried = s.nvmeRetried := rfl
@[simp] theorem State.markLine_driveReset (s : State) (a : Nat) : (s.markLine a).driveReset = s.driveReset := rfl
@[simp] theorem State.markLine_hotUnits (s : State) (a : Nat) : (s.markLine a).hotUnits = s.hotUnits := rfl
@[simp] theorem State.markLine_lastLine (s : State) (a : Nat) : (s.markLine a).lastLine = s.lastLine := rfl
@[simp] theorem State.markLine_power (s : State) (a : Nat) : (s.markLine a).power = s.power := rfl
@[simp] theorem State.markLine_tmons (s : State) (a : Nat) : (s.markLine a).tmons = s.tmons := rfl
@[simp] theorem State.markLine_thermal (s : State) (a : Nat) : (s.markLine a).thermal = s.thermal := rfl
@[simp] theorem State.markLine_diags (s : State) (a : Nat) : (s.markLine a).diags = s.diags := rfl
@[simp] theorem State.markLine_test (s : State) (a : Nat) : (s.markLine a).test = s.test := rfl
@[simp] theorem State.markLine_snapDue (s : State) (a : Nat) : (s.markLine a).snapDue = s.snapDue := rfl
@[simp] theorem State.markLine_snap (s : State) (a : Nat) : (s.markLine a).snap = s.snap := rfl
@[simp] theorem State.markLine_lastEpoch (s : State) (a : Nat) : (s.markLine a).lastEpoch = s.lastEpoch := rfl
@[simp] theorem State.markLine_mpBeat (s : State) (a : Nat) : (s.markLine a).mpBeat = s.mpBeat := rfl
@[simp] theorem State.markLine_tbHi (s : State) (a : Nat) : (s.markLine a).tbHi = s.tbHi := rfl
@[simp] theorem State.markLine_staged (s : State) (a : Nat) : (s.markLine a).staged = s.staged := rfl
@[simp] theorem State.markLine_speHold (s : State) (a : Nat) : (s.markLine a).speHold = s.speHold := rfl
@[simp] theorem State.markLine_prefillJobs (s : State) (a : Nat) : (s.markLine a).prefillJobs = s.prefillJobs := rfl
@[simp] theorem State.markLine_unloads (s : State) (a : Nat) : (s.markLine a).unloads = s.unloads := rfl
@[simp] theorem State.markLine_l2 (s : State) (a : Nat) : (s.markLine a).l2 = s.l2 := rfl
@[simp] theorem State.markLine_fetchRing (s : State) (a : Nat) : (s.markLine a).fetchRing = s.fetchRing := rfl
@[simp] theorem State.markLine_fetchTaken (s : State) (a : Nat) : (s.markLine a).fetchTaken = s.fetchTaken := rfl
@[simp] theorem State.markLine_portReads (s : State) (a : Nat) : (s.markLine a).portReads = s.portReads := rfl
@[simp] theorem State.markLine_cntAdds (s : State) (a : Nat) : (s.markLine a).cntAdds = s.cntAdds := rfl
@[simp] theorem State.markLine_tbDiffs (s : State) (a : Nat) : (s.markLine a).tbDiffs = s.tbDiffs := rfl

/-! ### writeBytes -/

@[simp] theorem State.writeBytes_pending (s : State) (a : Nat) (bs : List Byte) : (s.writeBytes a bs).pending = s.pending := rfl
@[simp] theorem State.writeBytes_now (s : State) (a : Nat) (bs : List Byte) : (s.writeBytes a bs).now = s.now := rfl
@[simp] theorem State.writeBytes_free (s : State) (a : Nat) (bs : List Byte) : (s.writeBytes a bs).free = s.free := rfl
@[simp] theorem State.writeBytes_nextId (s : State) (a : Nat) (bs : List Byte) : (s.writeBytes a bs).nextId = s.nextId := rfl
@[simp] theorem State.writeBytes_bar0 (s : State) (a : Nat) (bs : List Byte) : (s.writeBytes a bs).bar0 = s.bar0 := rfl
@[simp] theorem State.writeBytes_fns (s : State) (a : Nat) (bs : List Byte) : (s.writeBytes a bs).fns = s.fns := rfl
@[simp] theorem State.writeBytes_lastRead (s : State) (a : Nat) (bs : List Byte) : (s.writeBytes a bs).lastRead = s.lastRead := rfl
@[simp] theorem State.writeBytes_rings (s : State) (a : Nat) (bs : List Byte) : (s.writeBytes a bs).rings = s.rings := rfl
@[simp] theorem State.writeBytes_accepted (s : State) (a : Nat) (bs : List Byte) : (s.writeBytes a bs).accepted = s.accepted := rfl
@[simp] theorem State.writeBytes_eventSeq (s : State) (a : Nat) (bs : List Byte) : (s.writeBytes a bs).eventSeq = s.eventSeq := rfl
@[simp] theorem State.writeBytes_held (s : State) (a : Nat) (bs : List Byte) : (s.writeBytes a bs).held = s.held := rfl
@[simp] theorem State.writeBytes_heldLost (s : State) (a : Nat) (bs : List Byte) : (s.writeBytes a bs).heldLost = s.heldLost := rfl
@[simp] theorem State.writeBytes_hostMem (s : State) (a : Nat) (bs : List Byte) : (s.writeBytes a bs).hostMem = s.hostMem := rfl
@[simp] theorem State.writeBytes_counters (s : State) (a : Nat) (bs : List Byte) : (s.writeBytes a bs).counters = s.counters := rfl
@[simp] theorem State.writeBytes_counterSat (s : State) (a : Nat) (bs : List Byte) : (s.writeBytes a bs).counterSat = s.counterSat := rfl
@[simp] theorem State.writeBytes_writes (s : State) (a : Nat) (bs : List Byte) : (s.writeBytes a bs).writes = s.writes := rfl
@[simp] theorem State.writeBytes_engines (s : State) (a : Nat) (bs : List Byte) : (s.writeBytes a bs).engines = s.engines := rfl
@[simp] theorem State.writeBytes_galleries (s : State) (a : Nat) (bs : List Byte) : (s.writeBytes a bs).galleries = s.galleries := rfl
@[simp] theorem State.writeBytes_partials (s : State) (a : Nat) (bs : List Byte) : (s.writeBytes a bs).partials = s.partials := rfl
@[simp] theorem State.writeBytes_powerSteps (s : State) (a : Nat) (bs : List Byte) : (s.writeBytes a bs).powerSteps = s.powerSteps := rfl
@[simp] theorem State.writeBytes_cells (s : State) (a : Nat) (bs : List Byte) : (s.writeBytes a bs).cells = s.cells := rfl
@[simp] theorem State.writeBytes_arrays (s : State) (a : Nat) (bs : List Byte) : (s.writeBytes a bs).arrays = s.arrays := rfl
@[simp] theorem State.writeBytes_nv (s : State) (a : Nat) (bs : List Byte) : (s.writeBytes a bs).nv = s.nv := rfl
@[simp] theorem State.writeBytes_dme (s : State) (a : Nat) (bs : List Byte) : (s.writeBytes a bs).dme = s.dme := rfl
@[simp] theorem State.writeBytes_spe (s : State) (a : Nat) (bs : List Byte) : (s.writeBytes a bs).spe = s.spe := rfl
@[simp] theorem State.writeBytes_contexts (s : State) (a : Nat) (bs : List Byte) : (s.writeBytes a bs).contexts = s.contexts := rfl
@[simp] theorem State.writeBytes_coreSlow (s : State) (a : Nat) (bs : List Byte) : (s.writeBytes a bs).coreSlow = s.coreSlow := rfl
@[simp] theorem State.writeBytes_lastMargin (s : State) (a : Nat) (bs : List Byte) : (s.writeBytes a bs).lastMargin = s.lastMargin := rfl
@[simp] theorem State.writeBytes_windowOpen (s : State) (a : Nat) (bs : List Byte) : (s.writeBytes a bs).windowOpen = s.windowOpen := rfl
@[simp] theorem State.writeBytes_progActive (s : State) (a : Nat) (bs : List Byte) : (s.writeBytes a bs).progActive = s.progActive := rfl
@[simp] theorem State.writeBytes_progWait (s : State) (a : Nat) (bs : List Byte) : (s.writeBytes a bs).progWait = s.progWait := rfl
@[simp] theorem State.writeBytes_progHall (s : State) (a : Nat) (bs : List Byte) : (s.writeBytes a bs).progHall = s.progHall := rfl
@[simp] theorem State.writeBytes_vprogAt (s : State) (a : Nat) (bs : List Byte) : (s.writeBytes a bs).vprogAt = s.vprogAt := rfl
@[simp] theorem State.writeBytes_vprogOff (s : State) (a : Nat) (bs : List Byte) : (s.writeBytes a bs).vprogOff = s.vprogOff := rfl
@[simp] theorem State.writeBytes_lastWear (s : State) (a : Nat) (bs : List Byte) : (s.writeBytes a bs).lastWear = s.lastWear := rfl
@[simp] theorem State.writeBytes_loads (s : State) (a : Nat) (bs : List Byte) : (s.writeBytes a bs).loads = s.loads := rfl
@[simp] theorem State.writeBytes_attQueue (s : State) (a : Nat) (bs : List Byte) : (s.writeBytes a bs).attQueue = s.attQueue := rfl
@[simp] theorem State.writeBytes_attRuns (s : State) (a : Nat) (bs : List Byte) : (s.writeBytes a bs).attRuns = s.attRuns := rfl
@[simp] theorem State.writeBytes_attBusy (s : State) (a : Nat) (bs : List Byte) : (s.writeBytes a bs).attBusy = s.attBusy := rfl
@[simp] theorem State.writeBytes_kvCache (s : State) (a : Nat) (bs : List Byte) : (s.writeBytes a bs).kvCache = s.kvCache := rfl
@[simp] theorem State.writeBytes_fetches (s : State) (a : Nat) (bs : List Byte) : (s.writeBytes a bs).fetches = s.fetches := rfl
@[simp] theorem State.writeBytes_kvUsed (s : State) (a : Nat) (bs : List Byte) : (s.writeBytes a bs).kvUsed = s.kvUsed := rfl
@[simp] theorem State.writeBytes_parks (s : State) (a : Nat) (bs : List Byte) : (s.writeBytes a bs).parks = s.parks := rfl
@[simp] theorem State.writeBytes_tokenisers (s : State) (a : Nat) (bs : List Byte) : (s.writeBytes a bs).tokenisers = s.tokenisers := rfl
@[simp] theorem State.writeBytes_tokWait (s : State) (a : Nat) (bs : List Byte) : (s.writeBytes a bs).tokWait = s.tokWait := rfl
@[simp] theorem State.writeBytes_profileCmd (s : State) (a : Nat) (bs : List Byte) : (s.writeBytes a bs).profileCmd = s.profileCmd := rfl
@[simp] theorem State.writeBytes_prefillTurn (s : State) (a : Nat) (bs : List Byte) : (s.writeBytes a bs).prefillTurn = s.prefillTurn := rfl
@[simp] theorem State.writeBytes_lastBeat (s : State) (a : Nat) (bs : List Byte) : (s.writeBytes a bs).lastBeat = s.lastBeat := rfl
@[simp] theorem State.writeBytes_streams (s : State) (a : Nat) (bs : List Byte) : (s.writeBytes a bs).streams = s.streams := rfl
@[simp] theorem State.writeBytes_mgmtPort (s : State) (a : Nat) (bs : List Byte) : (s.writeBytes a bs).mgmtPort = s.mgmtPort := rfl
@[simp] theorem State.writeBytes_boot (s : State) (a : Nat) (bs : List Byte) : (s.writeBytes a bs).boot = s.boot := rfl
@[simp] theorem State.writeBytes_bootGiven (s : State) (a : Nat) (bs : List Byte) : (s.writeBytes a bs).bootGiven = s.bootGiven := rfl
@[simp] theorem State.writeBytes_orphans (s : State) (a : Nat) (bs : List Byte) : (s.writeBytes a bs).orphans = s.orphans := rfl
@[simp] theorem State.writeBytes_hostLines (s : State) (a : Nat) (bs : List Byte) : (s.writeBytes a bs).hostLines = s.hostLines := rfl
@[simp] theorem State.writeBytes_scoreboard (s : State) (a : Nat) (bs : List Byte) : (s.writeBytes a bs).scoreboard = s.scoreboard := rfl
@[simp] theorem State.writeBytes_hbmStacks (s : State) (a : Nat) (bs : List Byte) : (s.writeBytes a bs).hbmStacks = s.hbmStacks := rfl
@[simp] theorem State.writeBytes_t1Channels (s : State) (a : Nat) (bs : List Byte) : (s.writeBytes a bs).t1Channels = s.t1Channels := rfl
@[simp] theorem State.writeBytes_t1ChannelBytes (s : State) (a : Nat) (bs : List Byte) : (s.writeBytes a bs).t1ChannelBytes = s.t1ChannelBytes := rfl
@[simp] theorem State.writeBytes_t1Retired (s : State) (a : Nat) (bs : List Byte) : (s.writeBytes a bs).t1Retired = s.t1Retired := rfl
@[simp] theorem State.writeBytes_tbStart (s : State) (a : Nat) (bs : List Byte) : (s.writeBytes a bs).tbStart = s.tbStart := rfl
@[simp] theorem State.writeBytes_fabOut (s : State) (a : Nat) (bs : List Byte) : (s.writeBytes a bs).fabOut = s.fabOut := rfl
@[simp] theorem State.writeBytes_fabNo (s : State) (a : Nat) (bs : List Byte) : (s.writeBytes a bs).fabNo = s.fabNo := rfl
@[simp] theorem State.writeBytes_links (s : State) (a : Nat) (bs : List Byte) : (s.writeBytes a bs).links = s.links := rfl
@[simp] theorem State.writeBytes_adverts (s : State) (a : Nat) (bs : List Byte) : (s.writeBytes a bs).adverts = s.adverts := rfl
@[simp] theorem State.writeBytes_advertSeq (s : State) (a : Nat) (bs : List Byte) : (s.writeBytes a bs).advertSeq = s.advertSeq := rfl
@[simp] theorem State.writeBytes_advertAt (s : State) (a : Nat) (bs : List Byte) : (s.writeBytes a bs).advertAt = s.advertAt := rfl
@[simp] theorem State.writeBytes_members (s : State) (a : Nat) (bs : List Byte) : (s.writeBytes a bs).members = s.members := rfl
@[simp] theorem State.writeBytes_fabIn (s : State) (a : Nat) (bs : List Byte) : (s.writeBytes a bs).fabIn = s.fabIn := rfl
@[simp] theorem State.writeBytes_windows (s : State) (a : Nat) (bs : List Byte) : (s.writeBytes a bs).windows = s.windows := rfl
@[simp] theorem State.writeBytes_flows (s : State) (a : Nat) (bs : List Byte) : (s.writeBytes a bs).flows = s.flows := rfl
@[simp] theorem State.writeBytes_treeMap (s : State) (a : Nat) (bs : List Byte) : (s.writeBytes a bs).treeMap = s.treeMap := rfl
@[simp] theorem State.writeBytes_trees (s : State) (a : Nat) (bs : List Byte) : (s.writeBytes a bs).trees = s.trees := rfl
@[simp] theorem State.writeBytes_ueTimes (s : State) (a : Nat) (bs : List Byte) : (s.writeBytes a bs).ueTimes = s.ueTimes := rfl
@[simp] theorem State.writeBytes_ceTimes (s : State) (a : Nat) (bs : List Byte) : (s.writeBytes a bs).ceTimes = s.ceTimes := rfl
@[simp] theorem State.writeBytes_ceSince (s : State) (a : Nat) (bs : List Byte) : (s.writeBytes a bs).ceSince = s.ceSince := rfl
@[simp] theorem State.writeBytes_ceLast (s : State) (a : Nat) (bs : List Byte) : (s.writeBytes a bs).ceLast = s.ceLast := rfl
@[simp] theorem State.writeBytes_retirePending (s : State) (a : Nat) (bs : List Byte) : (s.writeBytes a bs).retirePending = s.retirePending := rfl
@[simp] theorem State.writeBytes_t2Vol (s : State) (a : Nat) (bs : List Byte) : (s.writeBytes a bs).t2Vol = s.t2Vol := rfl
@[simp] theorem State.writeBytes_t2Mem (s : State) (a : Nat) (bs : List Byte) : (s.writeBytes a bs).t2Mem = s.t2Mem := rfl
@[simp] theorem State.writeBytes_drives (s : State) (a : Nat) (bs : List Byte) : (s.writeBytes a bs).drives = s.drives := rfl
@[simp] theorem State.writeBytes_drivesRetired (s : State) (a : Nat) (bs : List Byte) : (s.writeBytes a bs).drivesRetired = s.drivesRetired := rfl
@[simp] theorem State.writeBytes_tier2 (s : State) (a : Nat) (bs : List Byte) : (s.writeBytes a bs).tier2 = s.tier2 := rfl
@[simp] theorem State.writeBytes_nvmeRetried (s : State) (a : Nat) (bs : List Byte) : (s.writeBytes a bs).nvmeRetried = s.nvmeRetried := rfl
@[simp] theorem State.writeBytes_driveReset (s : State) (a : Nat) (bs : List Byte) : (s.writeBytes a bs).driveReset = s.driveReset := rfl
@[simp] theorem State.writeBytes_hotUnits (s : State) (a : Nat) (bs : List Byte) : (s.writeBytes a bs).hotUnits = s.hotUnits := rfl
@[simp] theorem State.writeBytes_lastLine (s : State) (a : Nat) (bs : List Byte) : (s.writeBytes a bs).lastLine = s.lastLine := rfl
@[simp] theorem State.writeBytes_power (s : State) (a : Nat) (bs : List Byte) : (s.writeBytes a bs).power = s.power := rfl
@[simp] theorem State.writeBytes_tmons (s : State) (a : Nat) (bs : List Byte) : (s.writeBytes a bs).tmons = s.tmons := rfl
@[simp] theorem State.writeBytes_thermal (s : State) (a : Nat) (bs : List Byte) : (s.writeBytes a bs).thermal = s.thermal := rfl
@[simp] theorem State.writeBytes_diags (s : State) (a : Nat) (bs : List Byte) : (s.writeBytes a bs).diags = s.diags := rfl
@[simp] theorem State.writeBytes_test (s : State) (a : Nat) (bs : List Byte) : (s.writeBytes a bs).test = s.test := rfl
@[simp] theorem State.writeBytes_snapDue (s : State) (a : Nat) (bs : List Byte) : (s.writeBytes a bs).snapDue = s.snapDue := rfl
@[simp] theorem State.writeBytes_snap (s : State) (a : Nat) (bs : List Byte) : (s.writeBytes a bs).snap = s.snap := rfl
@[simp] theorem State.writeBytes_lastEpoch (s : State) (a : Nat) (bs : List Byte) : (s.writeBytes a bs).lastEpoch = s.lastEpoch := rfl
@[simp] theorem State.writeBytes_mpBeat (s : State) (a : Nat) (bs : List Byte) : (s.writeBytes a bs).mpBeat = s.mpBeat := rfl
@[simp] theorem State.writeBytes_tbHi (s : State) (a : Nat) (bs : List Byte) : (s.writeBytes a bs).tbHi = s.tbHi := rfl
@[simp] theorem State.writeBytes_staged (s : State) (a : Nat) (bs : List Byte) : (s.writeBytes a bs).staged = s.staged := rfl
@[simp] theorem State.writeBytes_speHold (s : State) (a : Nat) (bs : List Byte) : (s.writeBytes a bs).speHold = s.speHold := rfl
@[simp] theorem State.writeBytes_prefillJobs (s : State) (a : Nat) (bs : List Byte) : (s.writeBytes a bs).prefillJobs = s.prefillJobs := rfl
@[simp] theorem State.writeBytes_unloads (s : State) (a : Nat) (bs : List Byte) : (s.writeBytes a bs).unloads = s.unloads := rfl
@[simp] theorem State.writeBytes_l2 (s : State) (a : Nat) (bs : List Byte) : (s.writeBytes a bs).l2 = s.l2 := rfl
@[simp] theorem State.writeBytes_fetchRing (s : State) (a : Nat) (bs : List Byte) : (s.writeBytes a bs).fetchRing = s.fetchRing := rfl
@[simp] theorem State.writeBytes_fetchTaken (s : State) (a : Nat) (bs : List Byte) : (s.writeBytes a bs).fetchTaken = s.fetchTaken := rfl
@[simp] theorem State.writeBytes_portReads (s : State) (a : Nat) (bs : List Byte) : (s.writeBytes a bs).portReads = s.portReads := rfl
@[simp] theorem State.writeBytes_cntAdds (s : State) (a : Nat) (bs : List Byte) : (s.writeBytes a bs).cntAdds = s.cntAdds := rfl
@[simp] theorem State.writeBytes_tbDiffs (s : State) (a : Nat) (bs : List Byte) : (s.writeBytes a bs).tbDiffs = s.tbDiffs := rfl

/-! ### hostWrite -/

@[simp] theorem State.hostWrite_pending (s : State) (port a : Nat) (bs : List Byte) : (s.hostWrite port a bs).pending = s.pending := rfl
@[simp] theorem State.hostWrite_now (s : State) (port a : Nat) (bs : List Byte) : (s.hostWrite port a bs).now = s.now := rfl
@[simp] theorem State.hostWrite_free (s : State) (port a : Nat) (bs : List Byte) : (s.hostWrite port a bs).free = s.free := rfl
@[simp] theorem State.hostWrite_nextId (s : State) (port a : Nat) (bs : List Byte) : (s.hostWrite port a bs).nextId = s.nextId := rfl
@[simp] theorem State.hostWrite_bar0 (s : State) (port a : Nat) (bs : List Byte) : (s.hostWrite port a bs).bar0 = s.bar0 := rfl
@[simp] theorem State.hostWrite_fns (s : State) (port a : Nat) (bs : List Byte) : (s.hostWrite port a bs).fns = s.fns := rfl
@[simp] theorem State.hostWrite_lastRead (s : State) (port a : Nat) (bs : List Byte) : (s.hostWrite port a bs).lastRead = s.lastRead := rfl
@[simp] theorem State.hostWrite_rings (s : State) (port a : Nat) (bs : List Byte) : (s.hostWrite port a bs).rings = s.rings := rfl
@[simp] theorem State.hostWrite_accepted (s : State) (port a : Nat) (bs : List Byte) : (s.hostWrite port a bs).accepted = s.accepted := rfl
@[simp] theorem State.hostWrite_eventSeq (s : State) (port a : Nat) (bs : List Byte) : (s.hostWrite port a bs).eventSeq = s.eventSeq := rfl
@[simp] theorem State.hostWrite_held (s : State) (port a : Nat) (bs : List Byte) : (s.hostWrite port a bs).held = s.held := rfl
@[simp] theorem State.hostWrite_heldLost (s : State) (port a : Nat) (bs : List Byte) : (s.hostWrite port a bs).heldLost = s.heldLost := rfl
@[simp] theorem State.hostWrite_hostMem (s : State) (port a : Nat) (bs : List Byte) : (s.hostWrite port a bs).hostMem = putBytes s.hostMem (port * 2 ^ 64 + a) bs := rfl
@[simp] theorem State.hostWrite_mem (s : State) (port a : Nat) (bs : List Byte) : (s.hostWrite port a bs).mem = s.mem := rfl
@[simp] theorem State.hostWrite_marks (s : State) (port a : Nat) (bs : List Byte) : (s.hostWrite port a bs).marks = s.marks := rfl
@[simp] theorem State.hostWrite_counters (s : State) (port a : Nat) (bs : List Byte) : (s.hostWrite port a bs).counters = s.counters := rfl
@[simp] theorem State.hostWrite_counterSat (s : State) (port a : Nat) (bs : List Byte) : (s.hostWrite port a bs).counterSat = s.counterSat := rfl
@[simp] theorem State.hostWrite_writes (s : State) (port a : Nat) (bs : List Byte) : (s.hostWrite port a bs).writes = s.writes := rfl
@[simp] theorem State.hostWrite_engines (s : State) (port a : Nat) (bs : List Byte) : (s.hostWrite port a bs).engines = s.engines := rfl
@[simp] theorem State.hostWrite_galleries (s : State) (port a : Nat) (bs : List Byte) : (s.hostWrite port a bs).galleries = s.galleries := rfl
@[simp] theorem State.hostWrite_partials (s : State) (port a : Nat) (bs : List Byte) : (s.hostWrite port a bs).partials = s.partials := rfl
@[simp] theorem State.hostWrite_powerSteps (s : State) (port a : Nat) (bs : List Byte) : (s.hostWrite port a bs).powerSteps = s.powerSteps := rfl
@[simp] theorem State.hostWrite_cells (s : State) (port a : Nat) (bs : List Byte) : (s.hostWrite port a bs).cells = s.cells := rfl
@[simp] theorem State.hostWrite_arrays (s : State) (port a : Nat) (bs : List Byte) : (s.hostWrite port a bs).arrays = s.arrays := rfl
@[simp] theorem State.hostWrite_nv (s : State) (port a : Nat) (bs : List Byte) : (s.hostWrite port a bs).nv = s.nv := rfl
@[simp] theorem State.hostWrite_dme (s : State) (port a : Nat) (bs : List Byte) : (s.hostWrite port a bs).dme = s.dme := rfl
@[simp] theorem State.hostWrite_spe (s : State) (port a : Nat) (bs : List Byte) : (s.hostWrite port a bs).spe = s.spe := rfl
@[simp] theorem State.hostWrite_contexts (s : State) (port a : Nat) (bs : List Byte) : (s.hostWrite port a bs).contexts = s.contexts := rfl
@[simp] theorem State.hostWrite_coreSlow (s : State) (port a : Nat) (bs : List Byte) : (s.hostWrite port a bs).coreSlow = s.coreSlow := rfl
@[simp] theorem State.hostWrite_lastMargin (s : State) (port a : Nat) (bs : List Byte) : (s.hostWrite port a bs).lastMargin = s.lastMargin := rfl
@[simp] theorem State.hostWrite_windowOpen (s : State) (port a : Nat) (bs : List Byte) : (s.hostWrite port a bs).windowOpen = s.windowOpen := rfl
@[simp] theorem State.hostWrite_progActive (s : State) (port a : Nat) (bs : List Byte) : (s.hostWrite port a bs).progActive = s.progActive := rfl
@[simp] theorem State.hostWrite_progWait (s : State) (port a : Nat) (bs : List Byte) : (s.hostWrite port a bs).progWait = s.progWait := rfl
@[simp] theorem State.hostWrite_progHall (s : State) (port a : Nat) (bs : List Byte) : (s.hostWrite port a bs).progHall = s.progHall := rfl
@[simp] theorem State.hostWrite_vprogAt (s : State) (port a : Nat) (bs : List Byte) : (s.hostWrite port a bs).vprogAt = s.vprogAt := rfl
@[simp] theorem State.hostWrite_vprogOff (s : State) (port a : Nat) (bs : List Byte) : (s.hostWrite port a bs).vprogOff = s.vprogOff := rfl
@[simp] theorem State.hostWrite_lastWear (s : State) (port a : Nat) (bs : List Byte) : (s.hostWrite port a bs).lastWear = s.lastWear := rfl
@[simp] theorem State.hostWrite_loads (s : State) (port a : Nat) (bs : List Byte) : (s.hostWrite port a bs).loads = s.loads := rfl
@[simp] theorem State.hostWrite_attQueue (s : State) (port a : Nat) (bs : List Byte) : (s.hostWrite port a bs).attQueue = s.attQueue := rfl
@[simp] theorem State.hostWrite_attRuns (s : State) (port a : Nat) (bs : List Byte) : (s.hostWrite port a bs).attRuns = s.attRuns := rfl
@[simp] theorem State.hostWrite_attBusy (s : State) (port a : Nat) (bs : List Byte) : (s.hostWrite port a bs).attBusy = s.attBusy := rfl
@[simp] theorem State.hostWrite_kvCache (s : State) (port a : Nat) (bs : List Byte) : (s.hostWrite port a bs).kvCache = s.kvCache := rfl
@[simp] theorem State.hostWrite_fetches (s : State) (port a : Nat) (bs : List Byte) : (s.hostWrite port a bs).fetches = s.fetches := rfl
@[simp] theorem State.hostWrite_kvUsed (s : State) (port a : Nat) (bs : List Byte) : (s.hostWrite port a bs).kvUsed = s.kvUsed := rfl
@[simp] theorem State.hostWrite_parks (s : State) (port a : Nat) (bs : List Byte) : (s.hostWrite port a bs).parks = s.parks := rfl
@[simp] theorem State.hostWrite_tokenisers (s : State) (port a : Nat) (bs : List Byte) : (s.hostWrite port a bs).tokenisers = s.tokenisers := rfl
@[simp] theorem State.hostWrite_tokWait (s : State) (port a : Nat) (bs : List Byte) : (s.hostWrite port a bs).tokWait = s.tokWait := rfl
@[simp] theorem State.hostWrite_profileCmd (s : State) (port a : Nat) (bs : List Byte) : (s.hostWrite port a bs).profileCmd = s.profileCmd := rfl
@[simp] theorem State.hostWrite_prefillTurn (s : State) (port a : Nat) (bs : List Byte) : (s.hostWrite port a bs).prefillTurn = s.prefillTurn := rfl
@[simp] theorem State.hostWrite_lastBeat (s : State) (port a : Nat) (bs : List Byte) : (s.hostWrite port a bs).lastBeat = s.lastBeat := rfl
@[simp] theorem State.hostWrite_streams (s : State) (port a : Nat) (bs : List Byte) : (s.hostWrite port a bs).streams = s.streams := rfl
@[simp] theorem State.hostWrite_mgmtPort (s : State) (port a : Nat) (bs : List Byte) : (s.hostWrite port a bs).mgmtPort = s.mgmtPort := rfl
@[simp] theorem State.hostWrite_boot (s : State) (port a : Nat) (bs : List Byte) : (s.hostWrite port a bs).boot = s.boot := rfl
@[simp] theorem State.hostWrite_bootGiven (s : State) (port a : Nat) (bs : List Byte) : (s.hostWrite port a bs).bootGiven = s.bootGiven := rfl
@[simp] theorem State.hostWrite_orphans (s : State) (port a : Nat) (bs : List Byte) : (s.hostWrite port a bs).orphans = s.orphans := rfl
@[simp] theorem State.hostWrite_hostLines (s : State) (port a : Nat) (bs : List Byte) : (s.hostWrite port a bs).hostLines = s.hostLines := rfl
@[simp] theorem State.hostWrite_dir (s : State) (port a : Nat) (bs : List Byte) : (s.hostWrite port a bs).dir = s.dir := rfl
@[simp] theorem State.hostWrite_scoreboard (s : State) (port a : Nat) (bs : List Byte) : (s.hostWrite port a bs).scoreboard = s.scoreboard := rfl
@[simp] theorem State.hostWrite_hbmStacks (s : State) (port a : Nat) (bs : List Byte) : (s.hostWrite port a bs).hbmStacks = s.hbmStacks := rfl
@[simp] theorem State.hostWrite_t1Channels (s : State) (port a : Nat) (bs : List Byte) : (s.hostWrite port a bs).t1Channels = s.t1Channels := rfl
@[simp] theorem State.hostWrite_t1ChannelBytes (s : State) (port a : Nat) (bs : List Byte) : (s.hostWrite port a bs).t1ChannelBytes = s.t1ChannelBytes := rfl
@[simp] theorem State.hostWrite_t1Retired (s : State) (port a : Nat) (bs : List Byte) : (s.hostWrite port a bs).t1Retired = s.t1Retired := rfl
@[simp] theorem State.hostWrite_tbStart (s : State) (port a : Nat) (bs : List Byte) : (s.hostWrite port a bs).tbStart = s.tbStart := rfl
@[simp] theorem State.hostWrite_fabOut (s : State) (port a : Nat) (bs : List Byte) : (s.hostWrite port a bs).fabOut = s.fabOut := rfl
@[simp] theorem State.hostWrite_fabNo (s : State) (port a : Nat) (bs : List Byte) : (s.hostWrite port a bs).fabNo = s.fabNo := rfl
@[simp] theorem State.hostWrite_links (s : State) (port a : Nat) (bs : List Byte) : (s.hostWrite port a bs).links = s.links := rfl
@[simp] theorem State.hostWrite_adverts (s : State) (port a : Nat) (bs : List Byte) : (s.hostWrite port a bs).adverts = s.adverts := rfl
@[simp] theorem State.hostWrite_advertSeq (s : State) (port a : Nat) (bs : List Byte) : (s.hostWrite port a bs).advertSeq = s.advertSeq := rfl
@[simp] theorem State.hostWrite_advertAt (s : State) (port a : Nat) (bs : List Byte) : (s.hostWrite port a bs).advertAt = s.advertAt := rfl
@[simp] theorem State.hostWrite_members (s : State) (port a : Nat) (bs : List Byte) : (s.hostWrite port a bs).members = s.members := rfl
@[simp] theorem State.hostWrite_fabIn (s : State) (port a : Nat) (bs : List Byte) : (s.hostWrite port a bs).fabIn = s.fabIn := rfl
@[simp] theorem State.hostWrite_windows (s : State) (port a : Nat) (bs : List Byte) : (s.hostWrite port a bs).windows = s.windows := rfl
@[simp] theorem State.hostWrite_flows (s : State) (port a : Nat) (bs : List Byte) : (s.hostWrite port a bs).flows = s.flows := rfl
@[simp] theorem State.hostWrite_treeMap (s : State) (port a : Nat) (bs : List Byte) : (s.hostWrite port a bs).treeMap = s.treeMap := rfl
@[simp] theorem State.hostWrite_trees (s : State) (port a : Nat) (bs : List Byte) : (s.hostWrite port a bs).trees = s.trees := rfl
@[simp] theorem State.hostWrite_ueTimes (s : State) (port a : Nat) (bs : List Byte) : (s.hostWrite port a bs).ueTimes = s.ueTimes := rfl
@[simp] theorem State.hostWrite_ceTimes (s : State) (port a : Nat) (bs : List Byte) : (s.hostWrite port a bs).ceTimes = s.ceTimes := rfl
@[simp] theorem State.hostWrite_ceSince (s : State) (port a : Nat) (bs : List Byte) : (s.hostWrite port a bs).ceSince = s.ceSince := rfl
@[simp] theorem State.hostWrite_ceLast (s : State) (port a : Nat) (bs : List Byte) : (s.hostWrite port a bs).ceLast = s.ceLast := rfl
@[simp] theorem State.hostWrite_retirePending (s : State) (port a : Nat) (bs : List Byte) : (s.hostWrite port a bs).retirePending = s.retirePending := rfl
@[simp] theorem State.hostWrite_t2Vol (s : State) (port a : Nat) (bs : List Byte) : (s.hostWrite port a bs).t2Vol = s.t2Vol := rfl
@[simp] theorem State.hostWrite_t2Mem (s : State) (port a : Nat) (bs : List Byte) : (s.hostWrite port a bs).t2Mem = s.t2Mem := rfl
@[simp] theorem State.hostWrite_drives (s : State) (port a : Nat) (bs : List Byte) : (s.hostWrite port a bs).drives = s.drives := rfl
@[simp] theorem State.hostWrite_drivesRetired (s : State) (port a : Nat) (bs : List Byte) : (s.hostWrite port a bs).drivesRetired = s.drivesRetired := rfl
@[simp] theorem State.hostWrite_tier2 (s : State) (port a : Nat) (bs : List Byte) : (s.hostWrite port a bs).tier2 = s.tier2 := rfl
@[simp] theorem State.hostWrite_nvmeRetried (s : State) (port a : Nat) (bs : List Byte) : (s.hostWrite port a bs).nvmeRetried = s.nvmeRetried := rfl
@[simp] theorem State.hostWrite_driveReset (s : State) (port a : Nat) (bs : List Byte) : (s.hostWrite port a bs).driveReset = s.driveReset := rfl
@[simp] theorem State.hostWrite_hotUnits (s : State) (port a : Nat) (bs : List Byte) : (s.hostWrite port a bs).hotUnits = s.hotUnits := rfl
@[simp] theorem State.hostWrite_lastLine (s : State) (port a : Nat) (bs : List Byte) : (s.hostWrite port a bs).lastLine = s.lastLine := rfl
@[simp] theorem State.hostWrite_power (s : State) (port a : Nat) (bs : List Byte) : (s.hostWrite port a bs).power = s.power := rfl
@[simp] theorem State.hostWrite_tmons (s : State) (port a : Nat) (bs : List Byte) : (s.hostWrite port a bs).tmons = s.tmons := rfl
@[simp] theorem State.hostWrite_thermal (s : State) (port a : Nat) (bs : List Byte) : (s.hostWrite port a bs).thermal = s.thermal := rfl
@[simp] theorem State.hostWrite_diags (s : State) (port a : Nat) (bs : List Byte) : (s.hostWrite port a bs).diags = s.diags := rfl
@[simp] theorem State.hostWrite_test (s : State) (port a : Nat) (bs : List Byte) : (s.hostWrite port a bs).test = s.test := rfl
@[simp] theorem State.hostWrite_snapDue (s : State) (port a : Nat) (bs : List Byte) : (s.hostWrite port a bs).snapDue = s.snapDue := rfl
@[simp] theorem State.hostWrite_snap (s : State) (port a : Nat) (bs : List Byte) : (s.hostWrite port a bs).snap = s.snap := rfl
@[simp] theorem State.hostWrite_lastEpoch (s : State) (port a : Nat) (bs : List Byte) : (s.hostWrite port a bs).lastEpoch = s.lastEpoch := rfl
@[simp] theorem State.hostWrite_mpBeat (s : State) (port a : Nat) (bs : List Byte) : (s.hostWrite port a bs).mpBeat = s.mpBeat := rfl
@[simp] theorem State.hostWrite_tbHi (s : State) (port a : Nat) (bs : List Byte) : (s.hostWrite port a bs).tbHi = s.tbHi := rfl
@[simp] theorem State.hostWrite_staged (s : State) (port a : Nat) (bs : List Byte) : (s.hostWrite port a bs).staged = s.staged := rfl
@[simp] theorem State.hostWrite_speHold (s : State) (port a : Nat) (bs : List Byte) : (s.hostWrite port a bs).speHold = s.speHold := rfl
@[simp] theorem State.hostWrite_prefillJobs (s : State) (port a : Nat) (bs : List Byte) : (s.hostWrite port a bs).prefillJobs = s.prefillJobs := rfl
@[simp] theorem State.hostWrite_unloads (s : State) (port a : Nat) (bs : List Byte) : (s.hostWrite port a bs).unloads = s.unloads := rfl
@[simp] theorem State.hostWrite_l2 (s : State) (port a : Nat) (bs : List Byte) : (s.hostWrite port a bs).l2 = s.l2 := rfl
@[simp] theorem State.hostWrite_fetchRing (s : State) (port a : Nat) (bs : List Byte) : (s.hostWrite port a bs).fetchRing = s.fetchRing := rfl
@[simp] theorem State.hostWrite_fetchTaken (s : State) (port a : Nat) (bs : List Byte) : (s.hostWrite port a bs).fetchTaken = s.fetchTaken := rfl
@[simp] theorem State.hostWrite_portReads (s : State) (port a : Nat) (bs : List Byte) : (s.hostWrite port a bs).portReads = s.portReads := rfl
@[simp] theorem State.hostWrite_cntAdds (s : State) (port a : Nat) (bs : List Byte) : (s.hostWrite port a bs).cntAdds = s.cntAdds := rfl
@[simp] theorem State.hostWrite_tbDiffs (s : State) (port a : Nat) (bs : List Byte) : (s.hostWrite port a bs).tbDiffs = s.tbDiffs := rfl

/-! ### nvWrite -/

@[simp] theorem State.nvWrite_pending (s : State) (a : Nat) (bs : List Byte) : (s.nvWrite a bs).pending = s.pending := rfl
@[simp] theorem State.nvWrite_now (s : State) (a : Nat) (bs : List Byte) : (s.nvWrite a bs).now = s.now := rfl
@[simp] theorem State.nvWrite_free (s : State) (a : Nat) (bs : List Byte) : (s.nvWrite a bs).free = s.free := rfl
@[simp] theorem State.nvWrite_nextId (s : State) (a : Nat) (bs : List Byte) : (s.nvWrite a bs).nextId = s.nextId := rfl
@[simp] theorem State.nvWrite_bar0 (s : State) (a : Nat) (bs : List Byte) : (s.nvWrite a bs).bar0 = s.bar0 := rfl
@[simp] theorem State.nvWrite_fns (s : State) (a : Nat) (bs : List Byte) : (s.nvWrite a bs).fns = s.fns := rfl
@[simp] theorem State.nvWrite_lastRead (s : State) (a : Nat) (bs : List Byte) : (s.nvWrite a bs).lastRead = s.lastRead := rfl
@[simp] theorem State.nvWrite_rings (s : State) (a : Nat) (bs : List Byte) : (s.nvWrite a bs).rings = s.rings := rfl
@[simp] theorem State.nvWrite_accepted (s : State) (a : Nat) (bs : List Byte) : (s.nvWrite a bs).accepted = s.accepted := rfl
@[simp] theorem State.nvWrite_eventSeq (s : State) (a : Nat) (bs : List Byte) : (s.nvWrite a bs).eventSeq = s.eventSeq := rfl
@[simp] theorem State.nvWrite_held (s : State) (a : Nat) (bs : List Byte) : (s.nvWrite a bs).held = s.held := rfl
@[simp] theorem State.nvWrite_heldLost (s : State) (a : Nat) (bs : List Byte) : (s.nvWrite a bs).heldLost = s.heldLost := rfl
@[simp] theorem State.nvWrite_hostMem (s : State) (a : Nat) (bs : List Byte) : (s.nvWrite a bs).hostMem = s.hostMem := rfl
@[simp] theorem State.nvWrite_mem (s : State) (a : Nat) (bs : List Byte) : (s.nvWrite a bs).mem = s.mem := rfl
@[simp] theorem State.nvWrite_marks (s : State) (a : Nat) (bs : List Byte) : (s.nvWrite a bs).marks = s.marks := rfl
@[simp] theorem State.nvWrite_counters (s : State) (a : Nat) (bs : List Byte) : (s.nvWrite a bs).counters = s.counters := rfl
@[simp] theorem State.nvWrite_counterSat (s : State) (a : Nat) (bs : List Byte) : (s.nvWrite a bs).counterSat = s.counterSat := rfl
@[simp] theorem State.nvWrite_writes (s : State) (a : Nat) (bs : List Byte) : (s.nvWrite a bs).writes = s.writes := rfl
@[simp] theorem State.nvWrite_engines (s : State) (a : Nat) (bs : List Byte) : (s.nvWrite a bs).engines = s.engines := rfl
@[simp] theorem State.nvWrite_galleries (s : State) (a : Nat) (bs : List Byte) : (s.nvWrite a bs).galleries = s.galleries := rfl
@[simp] theorem State.nvWrite_partials (s : State) (a : Nat) (bs : List Byte) : (s.nvWrite a bs).partials = s.partials := rfl
@[simp] theorem State.nvWrite_powerSteps (s : State) (a : Nat) (bs : List Byte) : (s.nvWrite a bs).powerSteps = s.powerSteps := rfl
@[simp] theorem State.nvWrite_cells (s : State) (a : Nat) (bs : List Byte) : (s.nvWrite a bs).cells = s.cells := rfl
@[simp] theorem State.nvWrite_arrays (s : State) (a : Nat) (bs : List Byte) : (s.nvWrite a bs).arrays = s.arrays := rfl
@[simp] theorem State.nvWrite_nv (s : State) (a : Nat) (bs : List Byte) : (s.nvWrite a bs).nv = putNv s.nv a bs := rfl
@[simp] theorem State.nvWrite_dme (s : State) (a : Nat) (bs : List Byte) : (s.nvWrite a bs).dme = s.dme := rfl
@[simp] theorem State.nvWrite_spe (s : State) (a : Nat) (bs : List Byte) : (s.nvWrite a bs).spe = s.spe := rfl
@[simp] theorem State.nvWrite_contexts (s : State) (a : Nat) (bs : List Byte) : (s.nvWrite a bs).contexts = s.contexts := rfl
@[simp] theorem State.nvWrite_coreSlow (s : State) (a : Nat) (bs : List Byte) : (s.nvWrite a bs).coreSlow = s.coreSlow := rfl
@[simp] theorem State.nvWrite_lastMargin (s : State) (a : Nat) (bs : List Byte) : (s.nvWrite a bs).lastMargin = s.lastMargin := rfl
@[simp] theorem State.nvWrite_windowOpen (s : State) (a : Nat) (bs : List Byte) : (s.nvWrite a bs).windowOpen = s.windowOpen := rfl
@[simp] theorem State.nvWrite_progActive (s : State) (a : Nat) (bs : List Byte) : (s.nvWrite a bs).progActive = s.progActive := rfl
@[simp] theorem State.nvWrite_progWait (s : State) (a : Nat) (bs : List Byte) : (s.nvWrite a bs).progWait = s.progWait := rfl
@[simp] theorem State.nvWrite_progHall (s : State) (a : Nat) (bs : List Byte) : (s.nvWrite a bs).progHall = s.progHall := rfl
@[simp] theorem State.nvWrite_vprogAt (s : State) (a : Nat) (bs : List Byte) : (s.nvWrite a bs).vprogAt = s.vprogAt := rfl
@[simp] theorem State.nvWrite_vprogOff (s : State) (a : Nat) (bs : List Byte) : (s.nvWrite a bs).vprogOff = s.vprogOff := rfl
@[simp] theorem State.nvWrite_lastWear (s : State) (a : Nat) (bs : List Byte) : (s.nvWrite a bs).lastWear = s.lastWear := rfl
@[simp] theorem State.nvWrite_loads (s : State) (a : Nat) (bs : List Byte) : (s.nvWrite a bs).loads = s.loads := rfl
@[simp] theorem State.nvWrite_attQueue (s : State) (a : Nat) (bs : List Byte) : (s.nvWrite a bs).attQueue = s.attQueue := rfl
@[simp] theorem State.nvWrite_attRuns (s : State) (a : Nat) (bs : List Byte) : (s.nvWrite a bs).attRuns = s.attRuns := rfl
@[simp] theorem State.nvWrite_attBusy (s : State) (a : Nat) (bs : List Byte) : (s.nvWrite a bs).attBusy = s.attBusy := rfl
@[simp] theorem State.nvWrite_kvCache (s : State) (a : Nat) (bs : List Byte) : (s.nvWrite a bs).kvCache = s.kvCache := rfl
@[simp] theorem State.nvWrite_fetches (s : State) (a : Nat) (bs : List Byte) : (s.nvWrite a bs).fetches = s.fetches := rfl
@[simp] theorem State.nvWrite_kvUsed (s : State) (a : Nat) (bs : List Byte) : (s.nvWrite a bs).kvUsed = s.kvUsed := rfl
@[simp] theorem State.nvWrite_parks (s : State) (a : Nat) (bs : List Byte) : (s.nvWrite a bs).parks = s.parks := rfl
@[simp] theorem State.nvWrite_tokenisers (s : State) (a : Nat) (bs : List Byte) : (s.nvWrite a bs).tokenisers = s.tokenisers := rfl
@[simp] theorem State.nvWrite_tokWait (s : State) (a : Nat) (bs : List Byte) : (s.nvWrite a bs).tokWait = s.tokWait := rfl
@[simp] theorem State.nvWrite_profileCmd (s : State) (a : Nat) (bs : List Byte) : (s.nvWrite a bs).profileCmd = s.profileCmd := rfl
@[simp] theorem State.nvWrite_prefillTurn (s : State) (a : Nat) (bs : List Byte) : (s.nvWrite a bs).prefillTurn = s.prefillTurn := rfl
@[simp] theorem State.nvWrite_lastBeat (s : State) (a : Nat) (bs : List Byte) : (s.nvWrite a bs).lastBeat = s.lastBeat := rfl
@[simp] theorem State.nvWrite_streams (s : State) (a : Nat) (bs : List Byte) : (s.nvWrite a bs).streams = s.streams := rfl
@[simp] theorem State.nvWrite_mgmtPort (s : State) (a : Nat) (bs : List Byte) : (s.nvWrite a bs).mgmtPort = s.mgmtPort := rfl
@[simp] theorem State.nvWrite_boot (s : State) (a : Nat) (bs : List Byte) : (s.nvWrite a bs).boot = s.boot := rfl
@[simp] theorem State.nvWrite_bootGiven (s : State) (a : Nat) (bs : List Byte) : (s.nvWrite a bs).bootGiven = s.bootGiven := rfl
@[simp] theorem State.nvWrite_orphans (s : State) (a : Nat) (bs : List Byte) : (s.nvWrite a bs).orphans = s.orphans := rfl
@[simp] theorem State.nvWrite_hostLines (s : State) (a : Nat) (bs : List Byte) : (s.nvWrite a bs).hostLines = s.hostLines := rfl
@[simp] theorem State.nvWrite_dir (s : State) (a : Nat) (bs : List Byte) : (s.nvWrite a bs).dir = s.dir := rfl
@[simp] theorem State.nvWrite_scoreboard (s : State) (a : Nat) (bs : List Byte) : (s.nvWrite a bs).scoreboard = s.scoreboard := rfl
@[simp] theorem State.nvWrite_hbmStacks (s : State) (a : Nat) (bs : List Byte) : (s.nvWrite a bs).hbmStacks = s.hbmStacks := rfl
@[simp] theorem State.nvWrite_t1Channels (s : State) (a : Nat) (bs : List Byte) : (s.nvWrite a bs).t1Channels = s.t1Channels := rfl
@[simp] theorem State.nvWrite_t1ChannelBytes (s : State) (a : Nat) (bs : List Byte) : (s.nvWrite a bs).t1ChannelBytes = s.t1ChannelBytes := rfl
@[simp] theorem State.nvWrite_t1Retired (s : State) (a : Nat) (bs : List Byte) : (s.nvWrite a bs).t1Retired = s.t1Retired := rfl
@[simp] theorem State.nvWrite_tbStart (s : State) (a : Nat) (bs : List Byte) : (s.nvWrite a bs).tbStart = s.tbStart := rfl
@[simp] theorem State.nvWrite_fabOut (s : State) (a : Nat) (bs : List Byte) : (s.nvWrite a bs).fabOut = s.fabOut := rfl
@[simp] theorem State.nvWrite_fabNo (s : State) (a : Nat) (bs : List Byte) : (s.nvWrite a bs).fabNo = s.fabNo := rfl
@[simp] theorem State.nvWrite_links (s : State) (a : Nat) (bs : List Byte) : (s.nvWrite a bs).links = s.links := rfl
@[simp] theorem State.nvWrite_adverts (s : State) (a : Nat) (bs : List Byte) : (s.nvWrite a bs).adverts = s.adverts := rfl
@[simp] theorem State.nvWrite_advertSeq (s : State) (a : Nat) (bs : List Byte) : (s.nvWrite a bs).advertSeq = s.advertSeq := rfl
@[simp] theorem State.nvWrite_advertAt (s : State) (a : Nat) (bs : List Byte) : (s.nvWrite a bs).advertAt = s.advertAt := rfl
@[simp] theorem State.nvWrite_members (s : State) (a : Nat) (bs : List Byte) : (s.nvWrite a bs).members = s.members := rfl
@[simp] theorem State.nvWrite_fabIn (s : State) (a : Nat) (bs : List Byte) : (s.nvWrite a bs).fabIn = s.fabIn := rfl
@[simp] theorem State.nvWrite_windows (s : State) (a : Nat) (bs : List Byte) : (s.nvWrite a bs).windows = s.windows := rfl
@[simp] theorem State.nvWrite_flows (s : State) (a : Nat) (bs : List Byte) : (s.nvWrite a bs).flows = s.flows := rfl
@[simp] theorem State.nvWrite_treeMap (s : State) (a : Nat) (bs : List Byte) : (s.nvWrite a bs).treeMap = s.treeMap := rfl
@[simp] theorem State.nvWrite_trees (s : State) (a : Nat) (bs : List Byte) : (s.nvWrite a bs).trees = s.trees := rfl
@[simp] theorem State.nvWrite_ueTimes (s : State) (a : Nat) (bs : List Byte) : (s.nvWrite a bs).ueTimes = s.ueTimes := rfl
@[simp] theorem State.nvWrite_ceTimes (s : State) (a : Nat) (bs : List Byte) : (s.nvWrite a bs).ceTimes = s.ceTimes := rfl
@[simp] theorem State.nvWrite_ceSince (s : State) (a : Nat) (bs : List Byte) : (s.nvWrite a bs).ceSince = s.ceSince := rfl
@[simp] theorem State.nvWrite_ceLast (s : State) (a : Nat) (bs : List Byte) : (s.nvWrite a bs).ceLast = s.ceLast := rfl
@[simp] theorem State.nvWrite_retirePending (s : State) (a : Nat) (bs : List Byte) : (s.nvWrite a bs).retirePending = s.retirePending := rfl
@[simp] theorem State.nvWrite_t2Vol (s : State) (a : Nat) (bs : List Byte) : (s.nvWrite a bs).t2Vol = s.t2Vol := rfl
@[simp] theorem State.nvWrite_t2Mem (s : State) (a : Nat) (bs : List Byte) : (s.nvWrite a bs).t2Mem = s.t2Mem := rfl
@[simp] theorem State.nvWrite_drives (s : State) (a : Nat) (bs : List Byte) : (s.nvWrite a bs).drives = s.drives := rfl
@[simp] theorem State.nvWrite_drivesRetired (s : State) (a : Nat) (bs : List Byte) : (s.nvWrite a bs).drivesRetired = s.drivesRetired := rfl
@[simp] theorem State.nvWrite_tier2 (s : State) (a : Nat) (bs : List Byte) : (s.nvWrite a bs).tier2 = s.tier2 := rfl
@[simp] theorem State.nvWrite_nvmeRetried (s : State) (a : Nat) (bs : List Byte) : (s.nvWrite a bs).nvmeRetried = s.nvmeRetried := rfl
@[simp] theorem State.nvWrite_driveReset (s : State) (a : Nat) (bs : List Byte) : (s.nvWrite a bs).driveReset = s.driveReset := rfl
@[simp] theorem State.nvWrite_hotUnits (s : State) (a : Nat) (bs : List Byte) : (s.nvWrite a bs).hotUnits = s.hotUnits := rfl
@[simp] theorem State.nvWrite_lastLine (s : State) (a : Nat) (bs : List Byte) : (s.nvWrite a bs).lastLine = s.lastLine := rfl
@[simp] theorem State.nvWrite_power (s : State) (a : Nat) (bs : List Byte) : (s.nvWrite a bs).power = s.power := rfl
@[simp] theorem State.nvWrite_tmons (s : State) (a : Nat) (bs : List Byte) : (s.nvWrite a bs).tmons = s.tmons := rfl
@[simp] theorem State.nvWrite_thermal (s : State) (a : Nat) (bs : List Byte) : (s.nvWrite a bs).thermal = s.thermal := rfl
@[simp] theorem State.nvWrite_diags (s : State) (a : Nat) (bs : List Byte) : (s.nvWrite a bs).diags = s.diags := rfl
@[simp] theorem State.nvWrite_test (s : State) (a : Nat) (bs : List Byte) : (s.nvWrite a bs).test = s.test := rfl
@[simp] theorem State.nvWrite_snapDue (s : State) (a : Nat) (bs : List Byte) : (s.nvWrite a bs).snapDue = s.snapDue := rfl
@[simp] theorem State.nvWrite_snap (s : State) (a : Nat) (bs : List Byte) : (s.nvWrite a bs).snap = s.snap := rfl
@[simp] theorem State.nvWrite_lastEpoch (s : State) (a : Nat) (bs : List Byte) : (s.nvWrite a bs).lastEpoch = s.lastEpoch := rfl
@[simp] theorem State.nvWrite_mpBeat (s : State) (a : Nat) (bs : List Byte) : (s.nvWrite a bs).mpBeat = s.mpBeat := rfl
@[simp] theorem State.nvWrite_tbHi (s : State) (a : Nat) (bs : List Byte) : (s.nvWrite a bs).tbHi = s.tbHi := rfl
@[simp] theorem State.nvWrite_staged (s : State) (a : Nat) (bs : List Byte) : (s.nvWrite a bs).staged = s.staged := rfl
@[simp] theorem State.nvWrite_speHold (s : State) (a : Nat) (bs : List Byte) : (s.nvWrite a bs).speHold = s.speHold := rfl
@[simp] theorem State.nvWrite_prefillJobs (s : State) (a : Nat) (bs : List Byte) : (s.nvWrite a bs).prefillJobs = s.prefillJobs := rfl
@[simp] theorem State.nvWrite_unloads (s : State) (a : Nat) (bs : List Byte) : (s.nvWrite a bs).unloads = s.unloads := rfl
@[simp] theorem State.nvWrite_l2 (s : State) (a : Nat) (bs : List Byte) : (s.nvWrite a bs).l2 = s.l2 := rfl
@[simp] theorem State.nvWrite_fetchRing (s : State) (a : Nat) (bs : List Byte) : (s.nvWrite a bs).fetchRing = s.fetchRing := rfl
@[simp] theorem State.nvWrite_fetchTaken (s : State) (a : Nat) (bs : List Byte) : (s.nvWrite a bs).fetchTaken = s.fetchTaken := rfl
@[simp] theorem State.nvWrite_portReads (s : State) (a : Nat) (bs : List Byte) : (s.nvWrite a bs).portReads = s.portReads := rfl
@[simp] theorem State.nvWrite_cntAdds (s : State) (a : Nat) (bs : List Byte) : (s.nvWrite a bs).cntAdds = s.cntAdds := rfl
@[simp] theorem State.nvWrite_tbDiffs (s : State) (a : Nat) (bs : List Byte) : (s.nvWrite a bs).tbDiffs = s.tbDiffs := rfl

/-! ### setTmon -/

@[simp] theorem State.setTmon_pending (s : State) (d k : Nat) (t : Tmon) : (s.setTmon d k t).pending = s.pending := rfl
@[simp] theorem State.setTmon_now (s : State) (d k : Nat) (t : Tmon) : (s.setTmon d k t).now = s.now := rfl
@[simp] theorem State.setTmon_free (s : State) (d k : Nat) (t : Tmon) : (s.setTmon d k t).free = s.free := rfl
@[simp] theorem State.setTmon_nextId (s : State) (d k : Nat) (t : Tmon) : (s.setTmon d k t).nextId = s.nextId := rfl
@[simp] theorem State.setTmon_bar0 (s : State) (d k : Nat) (t : Tmon) : (s.setTmon d k t).bar0 = s.bar0 := rfl
@[simp] theorem State.setTmon_fns (s : State) (d k : Nat) (t : Tmon) : (s.setTmon d k t).fns = s.fns := rfl
@[simp] theorem State.setTmon_lastRead (s : State) (d k : Nat) (t : Tmon) : (s.setTmon d k t).lastRead = s.lastRead := rfl
@[simp] theorem State.setTmon_rings (s : State) (d k : Nat) (t : Tmon) : (s.setTmon d k t).rings = s.rings := rfl
@[simp] theorem State.setTmon_accepted (s : State) (d k : Nat) (t : Tmon) : (s.setTmon d k t).accepted = s.accepted := rfl
@[simp] theorem State.setTmon_eventSeq (s : State) (d k : Nat) (t : Tmon) : (s.setTmon d k t).eventSeq = s.eventSeq := rfl
@[simp] theorem State.setTmon_held (s : State) (d k : Nat) (t : Tmon) : (s.setTmon d k t).held = s.held := rfl
@[simp] theorem State.setTmon_heldLost (s : State) (d k : Nat) (t : Tmon) : (s.setTmon d k t).heldLost = s.heldLost := rfl
@[simp] theorem State.setTmon_hostMem (s : State) (d k : Nat) (t : Tmon) : (s.setTmon d k t).hostMem = s.hostMem := rfl
@[simp] theorem State.setTmon_mem (s : State) (d k : Nat) (t : Tmon) : (s.setTmon d k t).mem = s.mem := rfl
@[simp] theorem State.setTmon_marks (s : State) (d k : Nat) (t : Tmon) : (s.setTmon d k t).marks = s.marks := rfl
@[simp] theorem State.setTmon_counters (s : State) (d k : Nat) (t : Tmon) : (s.setTmon d k t).counters = s.counters := rfl
@[simp] theorem State.setTmon_counterSat (s : State) (d k : Nat) (t : Tmon) : (s.setTmon d k t).counterSat = s.counterSat := rfl
@[simp] theorem State.setTmon_writes (s : State) (d k : Nat) (t : Tmon) : (s.setTmon d k t).writes = s.writes := rfl
@[simp] theorem State.setTmon_engines (s : State) (d k : Nat) (t : Tmon) : (s.setTmon d k t).engines = s.engines := rfl
@[simp] theorem State.setTmon_galleries (s : State) (d k : Nat) (t : Tmon) : (s.setTmon d k t).galleries = s.galleries := rfl
@[simp] theorem State.setTmon_partials (s : State) (d k : Nat) (t : Tmon) : (s.setTmon d k t).partials = s.partials := rfl
@[simp] theorem State.setTmon_powerSteps (s : State) (d k : Nat) (t : Tmon) : (s.setTmon d k t).powerSteps = s.powerSteps := rfl
@[simp] theorem State.setTmon_cells (s : State) (d k : Nat) (t : Tmon) : (s.setTmon d k t).cells = s.cells := rfl
@[simp] theorem State.setTmon_arrays (s : State) (d k : Nat) (t : Tmon) : (s.setTmon d k t).arrays = s.arrays := rfl
@[simp] theorem State.setTmon_nv (s : State) (d k : Nat) (t : Tmon) : (s.setTmon d k t).nv = s.nv := rfl
@[simp] theorem State.setTmon_dme (s : State) (d k : Nat) (t : Tmon) : (s.setTmon d k t).dme = s.dme := rfl
@[simp] theorem State.setTmon_spe (s : State) (d k : Nat) (t : Tmon) : (s.setTmon d k t).spe = s.spe := rfl
@[simp] theorem State.setTmon_contexts (s : State) (d k : Nat) (t : Tmon) : (s.setTmon d k t).contexts = s.contexts := rfl
@[simp] theorem State.setTmon_coreSlow (s : State) (d k : Nat) (t : Tmon) : (s.setTmon d k t).coreSlow = s.coreSlow := rfl
@[simp] theorem State.setTmon_lastMargin (s : State) (d k : Nat) (t : Tmon) : (s.setTmon d k t).lastMargin = s.lastMargin := rfl
@[simp] theorem State.setTmon_windowOpen (s : State) (d k : Nat) (t : Tmon) : (s.setTmon d k t).windowOpen = s.windowOpen := rfl
@[simp] theorem State.setTmon_progActive (s : State) (d k : Nat) (t : Tmon) : (s.setTmon d k t).progActive = s.progActive := rfl
@[simp] theorem State.setTmon_progWait (s : State) (d k : Nat) (t : Tmon) : (s.setTmon d k t).progWait = s.progWait := rfl
@[simp] theorem State.setTmon_progHall (s : State) (d k : Nat) (t : Tmon) : (s.setTmon d k t).progHall = s.progHall := rfl
@[simp] theorem State.setTmon_vprogAt (s : State) (d k : Nat) (t : Tmon) : (s.setTmon d k t).vprogAt = s.vprogAt := rfl
@[simp] theorem State.setTmon_vprogOff (s : State) (d k : Nat) (t : Tmon) : (s.setTmon d k t).vprogOff = s.vprogOff := rfl
@[simp] theorem State.setTmon_lastWear (s : State) (d k : Nat) (t : Tmon) : (s.setTmon d k t).lastWear = s.lastWear := rfl
@[simp] theorem State.setTmon_loads (s : State) (d k : Nat) (t : Tmon) : (s.setTmon d k t).loads = s.loads := rfl
@[simp] theorem State.setTmon_attQueue (s : State) (d k : Nat) (t : Tmon) : (s.setTmon d k t).attQueue = s.attQueue := rfl
@[simp] theorem State.setTmon_attRuns (s : State) (d k : Nat) (t : Tmon) : (s.setTmon d k t).attRuns = s.attRuns := rfl
@[simp] theorem State.setTmon_attBusy (s : State) (d k : Nat) (t : Tmon) : (s.setTmon d k t).attBusy = s.attBusy := rfl
@[simp] theorem State.setTmon_kvCache (s : State) (d k : Nat) (t : Tmon) : (s.setTmon d k t).kvCache = s.kvCache := rfl
@[simp] theorem State.setTmon_fetches (s : State) (d k : Nat) (t : Tmon) : (s.setTmon d k t).fetches = s.fetches := rfl
@[simp] theorem State.setTmon_kvUsed (s : State) (d k : Nat) (t : Tmon) : (s.setTmon d k t).kvUsed = s.kvUsed := rfl
@[simp] theorem State.setTmon_parks (s : State) (d k : Nat) (t : Tmon) : (s.setTmon d k t).parks = s.parks := rfl
@[simp] theorem State.setTmon_tokenisers (s : State) (d k : Nat) (t : Tmon) : (s.setTmon d k t).tokenisers = s.tokenisers := rfl
@[simp] theorem State.setTmon_tokWait (s : State) (d k : Nat) (t : Tmon) : (s.setTmon d k t).tokWait = s.tokWait := rfl
@[simp] theorem State.setTmon_profileCmd (s : State) (d k : Nat) (t : Tmon) : (s.setTmon d k t).profileCmd = s.profileCmd := rfl
@[simp] theorem State.setTmon_prefillTurn (s : State) (d k : Nat) (t : Tmon) : (s.setTmon d k t).prefillTurn = s.prefillTurn := rfl
@[simp] theorem State.setTmon_lastBeat (s : State) (d k : Nat) (t : Tmon) : (s.setTmon d k t).lastBeat = s.lastBeat := rfl
@[simp] theorem State.setTmon_streams (s : State) (d k : Nat) (t : Tmon) : (s.setTmon d k t).streams = s.streams := rfl
@[simp] theorem State.setTmon_mgmtPort (s : State) (d k : Nat) (t : Tmon) : (s.setTmon d k t).mgmtPort = s.mgmtPort := rfl
@[simp] theorem State.setTmon_boot (s : State) (d k : Nat) (t : Tmon) : (s.setTmon d k t).boot = s.boot := rfl
@[simp] theorem State.setTmon_bootGiven (s : State) (d k : Nat) (t : Tmon) : (s.setTmon d k t).bootGiven = s.bootGiven := rfl
@[simp] theorem State.setTmon_orphans (s : State) (d k : Nat) (t : Tmon) : (s.setTmon d k t).orphans = s.orphans := rfl
@[simp] theorem State.setTmon_hostLines (s : State) (d k : Nat) (t : Tmon) : (s.setTmon d k t).hostLines = s.hostLines := rfl
@[simp] theorem State.setTmon_dir (s : State) (d k : Nat) (t : Tmon) : (s.setTmon d k t).dir = s.dir := rfl
@[simp] theorem State.setTmon_scoreboard (s : State) (d k : Nat) (t : Tmon) : (s.setTmon d k t).scoreboard = s.scoreboard := rfl
@[simp] theorem State.setTmon_hbmStacks (s : State) (d k : Nat) (t : Tmon) : (s.setTmon d k t).hbmStacks = s.hbmStacks := rfl
@[simp] theorem State.setTmon_t1Channels (s : State) (d k : Nat) (t : Tmon) : (s.setTmon d k t).t1Channels = s.t1Channels := rfl
@[simp] theorem State.setTmon_t1ChannelBytes (s : State) (d k : Nat) (t : Tmon) : (s.setTmon d k t).t1ChannelBytes = s.t1ChannelBytes := rfl
@[simp] theorem State.setTmon_t1Retired (s : State) (d k : Nat) (t : Tmon) : (s.setTmon d k t).t1Retired = s.t1Retired := rfl
@[simp] theorem State.setTmon_tbStart (s : State) (d k : Nat) (t : Tmon) : (s.setTmon d k t).tbStart = s.tbStart := rfl
@[simp] theorem State.setTmon_fabOut (s : State) (d k : Nat) (t : Tmon) : (s.setTmon d k t).fabOut = s.fabOut := rfl
@[simp] theorem State.setTmon_fabNo (s : State) (d k : Nat) (t : Tmon) : (s.setTmon d k t).fabNo = s.fabNo := rfl
@[simp] theorem State.setTmon_links (s : State) (d k : Nat) (t : Tmon) : (s.setTmon d k t).links = s.links := rfl
@[simp] theorem State.setTmon_adverts (s : State) (d k : Nat) (t : Tmon) : (s.setTmon d k t).adverts = s.adverts := rfl
@[simp] theorem State.setTmon_advertSeq (s : State) (d k : Nat) (t : Tmon) : (s.setTmon d k t).advertSeq = s.advertSeq := rfl
@[simp] theorem State.setTmon_advertAt (s : State) (d k : Nat) (t : Tmon) : (s.setTmon d k t).advertAt = s.advertAt := rfl
@[simp] theorem State.setTmon_members (s : State) (d k : Nat) (t : Tmon) : (s.setTmon d k t).members = s.members := rfl
@[simp] theorem State.setTmon_fabIn (s : State) (d k : Nat) (t : Tmon) : (s.setTmon d k t).fabIn = s.fabIn := rfl
@[simp] theorem State.setTmon_windows (s : State) (d k : Nat) (t : Tmon) : (s.setTmon d k t).windows = s.windows := rfl
@[simp] theorem State.setTmon_flows (s : State) (d k : Nat) (t : Tmon) : (s.setTmon d k t).flows = s.flows := rfl
@[simp] theorem State.setTmon_treeMap (s : State) (d k : Nat) (t : Tmon) : (s.setTmon d k t).treeMap = s.treeMap := rfl
@[simp] theorem State.setTmon_trees (s : State) (d k : Nat) (t : Tmon) : (s.setTmon d k t).trees = s.trees := rfl
@[simp] theorem State.setTmon_ueTimes (s : State) (d k : Nat) (t : Tmon) : (s.setTmon d k t).ueTimes = s.ueTimes := rfl
@[simp] theorem State.setTmon_ceTimes (s : State) (d k : Nat) (t : Tmon) : (s.setTmon d k t).ceTimes = s.ceTimes := rfl
@[simp] theorem State.setTmon_ceSince (s : State) (d k : Nat) (t : Tmon) : (s.setTmon d k t).ceSince = s.ceSince := rfl
@[simp] theorem State.setTmon_ceLast (s : State) (d k : Nat) (t : Tmon) : (s.setTmon d k t).ceLast = s.ceLast := rfl
@[simp] theorem State.setTmon_retirePending (s : State) (d k : Nat) (t : Tmon) : (s.setTmon d k t).retirePending = s.retirePending := rfl
@[simp] theorem State.setTmon_t2Vol (s : State) (d k : Nat) (t : Tmon) : (s.setTmon d k t).t2Vol = s.t2Vol := rfl
@[simp] theorem State.setTmon_t2Mem (s : State) (d k : Nat) (t : Tmon) : (s.setTmon d k t).t2Mem = s.t2Mem := rfl
@[simp] theorem State.setTmon_drives (s : State) (d k : Nat) (t : Tmon) : (s.setTmon d k t).drives = s.drives := rfl
@[simp] theorem State.setTmon_drivesRetired (s : State) (d k : Nat) (t : Tmon) : (s.setTmon d k t).drivesRetired = s.drivesRetired := rfl
@[simp] theorem State.setTmon_tier2 (s : State) (d k : Nat) (t : Tmon) : (s.setTmon d k t).tier2 = s.tier2 := rfl
@[simp] theorem State.setTmon_nvmeRetried (s : State) (d k : Nat) (t : Tmon) : (s.setTmon d k t).nvmeRetried = s.nvmeRetried := rfl
@[simp] theorem State.setTmon_driveReset (s : State) (d k : Nat) (t : Tmon) : (s.setTmon d k t).driveReset = s.driveReset := rfl
@[simp] theorem State.setTmon_hotUnits (s : State) (d k : Nat) (t : Tmon) : (s.setTmon d k t).hotUnits = s.hotUnits := rfl
@[simp] theorem State.setTmon_lastLine (s : State) (d k : Nat) (t : Tmon) : (s.setTmon d k t).lastLine = s.lastLine := rfl
@[simp] theorem State.setTmon_power (s : State) (d k : Nat) (t : Tmon) : (s.setTmon d k t).power = s.power := rfl
@[simp] theorem State.setTmon_tmons (s : State) (d k : Nat) (t : Tmon) : (s.setTmon d k t).tmons = Tab.set Tmon.reset s.tmons (2 * d + k) t := rfl
@[simp] theorem State.setTmon_thermal (s : State) (d k : Nat) (t : Tmon) : (s.setTmon d k t).thermal = s.thermal := rfl
@[simp] theorem State.setTmon_diags (s : State) (d k : Nat) (t : Tmon) : (s.setTmon d k t).diags = s.diags := rfl
@[simp] theorem State.setTmon_test (s : State) (d k : Nat) (t : Tmon) : (s.setTmon d k t).test = s.test := rfl
@[simp] theorem State.setTmon_snapDue (s : State) (d k : Nat) (t : Tmon) : (s.setTmon d k t).snapDue = s.snapDue := rfl
@[simp] theorem State.setTmon_snap (s : State) (d k : Nat) (t : Tmon) : (s.setTmon d k t).snap = s.snap := rfl
@[simp] theorem State.setTmon_lastEpoch (s : State) (d k : Nat) (t : Tmon) : (s.setTmon d k t).lastEpoch = s.lastEpoch := rfl
@[simp] theorem State.setTmon_mpBeat (s : State) (d k : Nat) (t : Tmon) : (s.setTmon d k t).mpBeat = s.mpBeat := rfl
@[simp] theorem State.setTmon_tbHi (s : State) (d k : Nat) (t : Tmon) : (s.setTmon d k t).tbHi = s.tbHi := rfl
@[simp] theorem State.setTmon_staged (s : State) (d k : Nat) (t : Tmon) : (s.setTmon d k t).staged = s.staged := rfl
@[simp] theorem State.setTmon_speHold (s : State) (d k : Nat) (t : Tmon) : (s.setTmon d k t).speHold = s.speHold := rfl
@[simp] theorem State.setTmon_prefillJobs (s : State) (d k : Nat) (t : Tmon) : (s.setTmon d k t).prefillJobs = s.prefillJobs := rfl
@[simp] theorem State.setTmon_unloads (s : State) (d k : Nat) (t : Tmon) : (s.setTmon d k t).unloads = s.unloads := rfl
@[simp] theorem State.setTmon_l2 (s : State) (d k : Nat) (t : Tmon) : (s.setTmon d k t).l2 = s.l2 := rfl
@[simp] theorem State.setTmon_fetchRing (s : State) (d k : Nat) (t : Tmon) : (s.setTmon d k t).fetchRing = s.fetchRing := rfl
@[simp] theorem State.setTmon_fetchTaken (s : State) (d k : Nat) (t : Tmon) : (s.setTmon d k t).fetchTaken = s.fetchTaken := rfl
@[simp] theorem State.setTmon_portReads (s : State) (d k : Nat) (t : Tmon) : (s.setTmon d k t).portReads = s.portReads := rfl
@[simp] theorem State.setTmon_cntAdds (s : State) (d k : Nat) (t : Tmon) : (s.setTmon d k t).cntAdds = s.cntAdds := rfl
@[simp] theorem State.setTmon_tbDiffs (s : State) (d k : Nat) (t : Tmon) : (s.setTmon d k t).tbDiffs = s.tbDiffs := rfl

end Sys2Proof.Machine
end

