-- ==== Sys2Proof/Laws/Tab.lean ====
section
/-! SUPPORT. Tables: what a read gives after a write, and that every table operation keeps the canonical form. -/

namespace Sys2Proof.Machine

variable {α : Type}

@[simp] theorem Tab.find_nil (x : Nat) : Tab.find ([] : Tab α) x = none := rfl

theorem Tab.find_put_self (t : Tab α) (k : Nat) (v : α) : (Tab.put t k v).find k = some v := by
  induction t with
  | nil => simp [Tab.put, Tab.find]
  | cons p t ih =>
    obtain ⟨k', v'⟩ := p
    simp only [Tab.put]
    split
    · simp [Tab.find]
    · split
      · simp [Tab.find]
      · next h => simp [Tab.find, h, ih]

theorem Tab.find_put_other (t : Tab α) {k x : Nat} (v : α) (h : x ≠ k) : (Tab.put t k v).find x = Tab.find t x := by
  induction t with
  | nil => simp [Tab.put, Tab.find, h]
  | cons p t ih =>
    obtain ⟨k', v'⟩ := p
    simp only [Tab.put]
    split
    · simp [Tab.find, h]
    · split
      · next h2 => subst h2; simp [Tab.find, h]
      · simp [Tab.find, ih]

theorem Tab.find_del_self (t : Tab α) (k : Nat) : (Tab.del t k).find k = none := by
  induction t with
  | nil => rfl
  | cons p t ih =>
    obtain ⟨k', v'⟩ := p
    simp only [Tab.del]
    split
    · exact ih
    · next h => simp [Tab.find, h, ih]

theorem Tab.find_del_other (t : Tab α) {k x : Nat} (h : x ≠ k) : (Tab.del t k).find x = Tab.find t x := by
  induction t with
  | nil => rfl
  | cons p t ih =>
    obtain ⟨k', v'⟩ := p
    simp only [Tab.del]
    split
    · next h2 => subst h2; simp [Tab.find, h, ih]
    · simp [Tab.find, ih]

/-- A read after a write of the same key gives what was written. -/
theorem Tab.get_set_self [DecidableEq α] (d : α) (t : Tab α) (k : Nat) (v : α) : Tab.get d (Tab.set d t k v) k = v := by
  unfold Tab.get Tab.set
  split
  · next h => simp [Tab.find_del_self, h]
  · simp [Tab.find_put_self]

/-- A write leaves every other key alone. -/
theorem Tab.get_set_other [DecidableEq α] (d e : α) (t : Tab α) {k x : Nat} (v : α) (h : x ≠ k) :
    Tab.get e (Tab.set d t k v) x = Tab.get e t x := by
  unfold Tab.get Tab.set
  split
  · rw [Tab.find_del_other _ h]
  · rw [Tab.find_put_other _ _ h]

/-! ### The canonical form -/

/-- Keys rising from a bound also rise from a lower one. -/
theorem Tab.rising_weaken {t : Tab α} {lo lo' : Nat} (h : Tab.rising (some lo) t = true) (hl : lo' ≤ lo) : Tab.rising (some lo') t = true := by
  cases t with
  | nil => rfl
  | cons p t =>
    obtain ⟨k, v⟩ := p
    simp only [Tab.rising, Bool.and_eq_true, decide_eq_true_eq] at h ⊢
    exact ⟨by omega, h.2⟩

theorem Tab.rising_none {t : Tab α} {lo : Nat} (h : Tab.rising (some lo) t = true) : Tab.rising none t = true := by
  cases t with
  | nil => rfl
  | cons p t =>
    obtain ⟨k, v⟩ := p
    simp only [Tab.rising, Bool.and_eq_true] at h ⊢
    exact ⟨trivial, h.2⟩

theorem Tab.rising_put {t : Tab α} {lo k : Nat} (v : α) (h : Tab.rising (some lo) t = true) (hk : lo < k) :
    Tab.rising (some lo) (Tab.put t k v) = true := by
  induction t generalizing lo with
  | nil => simp [Tab.put, Tab.rising, hk]
  | cons p t ih =>
    obtain ⟨k', v'⟩ := p
    simp only [Tab.rising, Bool.and_eq_true, decide_eq_true_eq] at h
    simp only [Tab.put]
    split
    · next h2 => simp [Tab.rising, hk, h2, h.2]
    · split
      · next h2 => subst h2; simp [Tab.rising, hk, h.2]
      · next h1 h2 => simp [Tab.rising, h.1, ih h.2 (by omega)]

theorem Tab.rising_put_none {t : Tab α} {k : Nat} (v : α) (h : Tab.rising none t = true) : Tab.rising none (Tab.put t k v) = true := by
  cases t with
  | nil => rfl
  | cons p t =>
    obtain ⟨k', v'⟩ := p
    simp only [Tab.rising, Bool.and_eq_true] at h
    simp only [Tab.put]
    split
    · next h2 => simp [Tab.rising, h2, h.2]
    · split
      · next h2 => subst h2; simp [Tab.rising, h.2]
      · next h1 h2 =>
        have hk : k' < k := by omega
        simp [Tab.rising, Tab.rising_put v h.2 hk]

theorem Tab.rising_del {t : Tab α} {lo k : Nat} (h : Tab.rising (some lo) t = true) : Tab.rising (some lo) (Tab.del t k) = true := by
  induction t generalizing lo with
  | nil => rfl
  | cons p t ih =>
    obtain ⟨k', v'⟩ := p
    simp only [Tab.rising, Bool.and_eq_true, decide_eq_true_eq] at h
    simp only [Tab.del]
    split
    · exact ih (Tab.rising_weaken h.2 (by omega))
    · simp [Tab.rising, h.1, ih h.2]

theorem Tab.rising_del_none {t : Tab α} {k : Nat} (h : Tab.rising none t = true) : Tab.rising none (Tab.del t k) = true := by
  cases t with
  | nil => rfl
  | cons p t =>
    obtain ⟨k', v'⟩ := p
    simp only [Tab.rising, Bool.and_eq_true] at h
    simp only [Tab.del]
    split
    · exact Tab.rising_none (Tab.rising_del h.2)
    · simp [Tab.rising, Tab.rising_del h.2]

theorem Tab.all_put (P : Nat × α → Bool) {t : Tab α} {k : Nat} {v : α} (h : t.all P = true) (hv : P (k, v) = true) : (Tab.put t k v).all P = true := by
  induction t with
  | nil => simp [Tab.put, hv]
  | cons p t ih =>
    obtain ⟨k', v'⟩ := p
    simp only [List.all_cons, Bool.and_eq_true] at h
    simp only [Tab.put]
    split
    · simp [hv, h.1, h.2]
    · split
      · simp [hv, h.2]
      · simp [h.1, ih h.2]

theorem Tab.all_del (P : Nat × α → Bool) {t : Tab α} {k : Nat} (h : t.all P = true) : (Tab.del t k).all P = true := by
  induction t with
  | nil => rfl
  | cons p t ih =>
    obtain ⟨k', v'⟩ := p
    simp only [List.all_cons, Bool.and_eq_true] at h
    simp only [Tab.del]
    split
    · exact ih h.2
    · simp [h.1, ih h.2]

/-- Writing a key keeps a table with a default per key canonical. -/
theorem Tab.wfBy_set [DecidableEq α] (d : Nat → α) {t : Tab α} (k : Nat) (v : α) (h : Tab.wfBy d t = true) : Tab.wfBy d (Tab.set (d k) t k v) = true := by
  unfold Tab.wfBy Tab.set at *
  simp only [Bool.and_eq_true] at h ⊢
  split
  · exact ⟨Tab.rising_del_none h.1, Tab.all_del _ h.2⟩
  · next hv => exact ⟨Tab.rising_put_none v h.1, Tab.all_put _ h.2 (by simpa using hv)⟩

/-- Writing a key keeps a table canonical. -/
theorem Tab.wf_set [DecidableEq α] (d : α) {t : Tab α} (k : Nat) (v : α) (h : Tab.wf d t = true) : Tab.wf d (Tab.set d t k v) = true :=
  Tab.wfBy_set (fun _ => d) k v h

/-! ### Whole tables -/

theorem Tab.rising_filter (P : Nat × α → Bool) {t : Tab α} {lo : Nat} (h : Tab.rising (some lo) t = true) : Tab.rising (some lo) (t.filter P) = true := by
  induction t generalizing lo with
  | nil => rfl
  | cons p t ih =>
    obtain ⟨k, v⟩ := p
    simp only [Tab.rising, Bool.and_eq_true, decide_eq_true_eq] at h
    simp only [List.filter]
    split
    · simp [Tab.rising, h.1, ih h.2]
    · exact Tab.rising_weaken (ih h.2) (by omega)

/-- Leaving entries out keeps a table canonical. -/
theorem Tab.wfBy_filter [DecidableEq α] (d : Nat → α) (P : Nat × α → Bool) {t : Tab α} (h : Tab.wfBy d t = true) : Tab.wfBy d (t.filter P) = true := by
  unfold Tab.wfBy at *
  simp only [Bool.and_eq_true] at h ⊢
  refine ⟨?_, by simp only [List.all_eq_true] at h ⊢; exact fun x hx => h.2 x (List.mem_filter.1 hx).1⟩
  cases t with
  | nil => rfl
  | cons p t =>
    obtain ⟨k, v⟩ := p
    have hr : Tab.rising (some k) t = true := by simpa [Tab.rising] using h.1
    simp only [List.filter]
    split
    · simpa [Tab.rising] using Tab.rising_filter P hr
    · exact Tab.rising_none (Tab.rising_filter P hr)

theorem Tab.wf_filter [DecidableEq α] (d : α) (P : Nat × α → Bool) {t : Tab α} (h : Tab.wf d t = true) : Tab.wf d (t.filter P) = true :=
  Tab.wfBy_filter (fun _ => d) P h

theorem Tab.rising_mapAll [DecidableEq α] (d : α) (f : Nat → α → α) {t : Tab α} {lo : Nat} (h : Tab.rising (some lo) t = true) :
    Tab.rising (some lo) (Tab.mapAll d f t) = true := by
  induction t generalizing lo with
  | nil => rfl
  | cons p t ih =>
    obtain ⟨k, v⟩ := p
    simp only [Tab.rising, Bool.and_eq_true, decide_eq_true_eq] at h
    simp only [Tab.mapAll]
    split
    · exact Tab.rising_weaken (ih h.2) (by omega)
    · simp [Tab.rising, h.1, ih h.2]

theorem Tab.all_mapAll [DecidableEq α] (d : α) (f : Nat → α → α) (t : Tab α) : (Tab.mapAll d f t).all (fun p => decide (p.2 ≠ d)) = true := by
  induction t with
  | nil => rfl
  | cons p t ih =>
    obtain ⟨k, v⟩ := p
    simp only [Tab.mapAll]
    split
    · exact ih
    · next h => simp only [List.all_cons, ih, Bool.and_true]; simpa using h

/-- Changing every listed value keeps a table canonical. -/
theorem Tab.wf_mapAll [DecidableEq α] (d : α) (f : Nat → α → α) {t : Tab α} (h : Tab.wf d t = true) : Tab.wf d (Tab.mapAll d f t) = true := by
  have ha := Tab.all_mapAll d f t
  unfold Tab.wf at *
  simp only [Bool.and_eq_true] at h ⊢
  refine ⟨?_, ha⟩
  cases t with
  | nil => rfl
  | cons p t =>
    obtain ⟨k, v⟩ := p
    have hr : Tab.rising (some k) t = true := by simpa [Tab.rising] using h.1
    simp only [Tab.mapAll]
    split
    · exact Tab.rising_none (Tab.rising_mapAll d f hr)
    · simpa [Tab.rising] using Tab.rising_mapAll d f hr

/-- A key at or below the bound is not listed. -/
theorem Tab.find_below {t : Tab α} {lo x : Nat} (h : Tab.rising (some lo) t = true) (hx : x ≤ lo) : Tab.find t x = none := by
  induction t generalizing lo with
  | nil => rfl
  | cons p t ih =>
    obtain ⟨k, v⟩ := p
    simp only [Tab.rising, Bool.and_eq_true, decide_eq_true_eq] at h
    have hn : x ≠ k := by omega
    simp only [Tab.find, hn, if_false]
    exact ih h.2 (by omega)

theorem Tab.get_mapAll_rising [DecidableEq α] (d : α) (f : Nat → α → α) {t : Tab α} (hr : Tab.rising none t = true) (x : Nat) (hd : f x d = d) :
    Tab.get d (Tab.mapAll d f t) x = f x (Tab.get d t x) := by
  induction t with
  | nil => simp [Tab.get, Tab.mapAll, hd]
  | cons p t ih =>
    obtain ⟨k, v⟩ := p
    have hr' : Tab.rising (some k) t = true := by simpa [Tab.rising] using hr
    have ih' := ih (Tab.rising_none hr')
    simp only [Tab.mapAll]
    by_cases hx : x = k
    · subst hx
      have hn : Tab.find (Tab.mapAll d f t) x = none := Tab.find_below (Tab.rising_mapAll d f hr') (Nat.le_refl _)
      split
      · next h => simp [Tab.get, Tab.find, hn, h]
      · simp [Tab.get, Tab.find]
    · split
      · simpa [Tab.get, Tab.find, hx] using ih'
      · simpa [Tab.get, Tab.find, hx] using ih'

/-- In a canonical table every value is changed where it stands; an unlisted key changes only if its default does. -/
theorem Tab.get_mapAll [DecidableEq α] (d : α) (f : Nat → α → α) {t : Tab α} (h : Tab.wf d t = true) (x : Nat) (hd : f x d = d) :
    Tab.get d (Tab.mapAll d f t) x = f x (Tab.get d t x) := by
  unfold Tab.wf at h
  simp only [Bool.and_eq_true] at h
  exact Tab.get_mapAll_rising d f h.1 x hd

end Sys2Proof.Machine
end

