-- ==== Sys2Proof/Laws/Ops.lean ====
section
/-! SUPPORT. What a read gives after a named update, for every table of the state, for memory and for the NV log; and that each
update keeps the canonical forms. -/

namespace Sys2Proof.Machine

/-! ### Derived updates in terms of the elementary ones -/

theorem State.setRfld_eq (s : State) (o hi lo x : Nat) : s.setRfld o hi lo x = s.setReg o (setFld (s.reg o) hi lo x) := rfl
theorem State.setRbit_eq (s : State) (o i : Nat) (b : Bool) : s.setRbit o i b = s.setReg o (setFld (s.reg o) i i (b2n b)) := rfl
theorem State.bump_eq (s : State) (o n : Nat) : s.bump o n = s.setReg o (s.reg o + BitVec.ofNat 32 n) := rfl
theorem State.modGal_eq (s : State) (k : Nat) (f : Gallery → Gallery) : s.modGal k f = s.setGal k (f (s.gal k)) := rfl
theorem State.modArr_eq (s : State) (i : Nat) (f : ArrayState → ArrayState) : s.modArr i f = s.setArr i (f (s.arr i)) := rfl
theorem State.modStream_eq (s : State) (n : Nat) (f : Stream → Stream) : s.modStream n f = s.setStream n (f (s.stream n)) := rfl
theorem State.modLnk_eq (s : State) (l : Nat) (f : Link → Link) : s.modLnk l f = s.setLnk l (f (s.lnk l)) := rfl
theorem State.modTmon_eq (s : State) (d k : Nat) (f : Tmon → Tmon) : s.modTmon d k f = s.setTmon d k (f (s.tmon d k)) := rfl
theorem State.writeLE_eq (s : State) (a n x : Nat) : s.writeLE a n x = s.writeBytes a (natLE n x) := rfl

/-! ### Reads after writes -/

@[simp] theorem State.reg_setReg (s : State) (o : Nat) (v : Word) : (s.setReg o v).reg o = v := Tab.get_set_self _ _ _ _
theorem State.reg_setReg_other (s : State) {o p : Nat} (v : Word) (h : p ≠ o) : (s.setReg o v).reg p = s.reg p := Tab.get_set_other _ _ _ _ h
@[simp] theorem State.gal_setGal (s : State) (k : Nat) (g : Gallery) : (s.setGal k g).gal k = g := Tab.get_set_self _ _ _ _
theorem State.gal_setGal_other (s : State) {k j : Nat} (g : Gallery) (h : j ≠ k) : (s.setGal k g).gal j = s.gal j := Tab.get_set_other _ _ _ _ h
@[simp] theorem State.arr_setArr (s : State) (i : Nat) (a : ArrayState) : (s.setArr i a).arr i = a := Tab.get_set_self _ _ _ _
theorem State.arr_setArr_other (s : State) {i j : Nat} (a : ArrayState) (h : j ≠ i) : (s.setArr i a).arr j = s.arr j := Tab.get_set_other _ _ _ _ h
@[simp] theorem State.ring_setRing (s : State) (n : Nat) (r : Ring) : (s.setRing n r).ring n = r := Tab.get_set_self _ _ _ _
theorem State.ring_setRing_other (s : State) {n m : Nat} (r : Ring) (h : m ≠ n) : (s.setRing n r).ring m = s.ring m := Tab.get_set_other _ _ _ _ h
@[simp] theorem State.fn_setFn (s : State) (f : Nat) (r : FnRegs) : (s.setFn f r).fn f = r := Tab.get_set_self _ _ _ _
theorem State.fn_setFn_other (s : State) {f g : Nat} (r : FnRegs) (h : g ≠ f) : (s.setFn f r).fn g = s.fn g := Tab.get_set_other _ _ _ _ h
@[simp] theorem State.stream_setStream (s : State) (n : Nat) (x : Stream) : (s.setStream n x).stream n = x := Tab.get_set_self _ _ _ _
theorem State.stream_setStream_other (s : State) {n m : Nat} (x : Stream) (h : m ≠ n) : (s.setStream n x).stream m = s.stream m :=
  Tab.get_set_other _ _ _ _ h
@[simp] theorem State.ctx_setCtx (s : State) (c : Nat) (x : Context) : (s.setCtx c x).ctx c = x := Tab.get_set_self _ _ _ _
theorem State.ctx_setCtx_other (s : State) {c d : Nat} (x : Context) (h : d ≠ c) : (s.setCtx c x).ctx d = s.ctx d := Tab.get_set_other _ _ _ _ h
@[simp] theorem State.eng_setEng (s : State) (n : Nat) (e : DmaEngine) : (s.setEng n e).eng n = e := Tab.get_set_self _ _ _ _
theorem State.eng_setEng_other (s : State) {n m : Nat} (e : DmaEngine) (h : m ≠ n) : (s.setEng n e).eng m = s.eng m := Tab.get_set_other _ _ _ _ h
@[simp] theorem State.lnk_setLnk (s : State) (l : Nat) (k : Link) : (s.setLnk l k).lnk l = k := Tab.get_set_self _ _ _ _
theorem State.lnk_setLnk_other (s : State) {l j : Nat} (k : Link) (h : j ≠ l) : (s.setLnk l k).lnk j = s.lnk j := Tab.get_set_other _ _ _ _ h
@[simp] theorem State.tree_setTree (s : State) (t : Nat) (r : TreeRun) : (s.setTree t r).tree t = r := Tab.get_set_self _ _ _ _
theorem State.tree_setTree_other (s : State) {t u : Nat} (r : TreeRun) (h : u ≠ t) : (s.setTree t r).tree u = s.tree u := Tab.get_set_other _ _ _ _ h
@[simp] theorem State.counter_setCounter (s : State) (k v : Nat) : (s.setCounter k v).counter k = v := Tab.get_set_self _ _ _ _
theorem State.counter_setCounter_other (s : State) {k j : Nat} (v : Nat) (h : j ≠ k) : (s.setCounter k v).counter j = s.counter j :=
  Tab.get_set_other _ _ _ _ h

theorem State.addCounter_small (s : State) (k n : Nat) (h : s.counter k + n ≤ 0xFFFFFFFF) : s.addCounter k n = s.setCounter k (s.counter k + n) := by
  simp only [State.addCounter, if_neg (Nat.not_lt.2 h)]

/-- R329: an addition saturates, and no other counter moves. -/
theorem State.counter_addCounter (s : State) (k n : Nat) : (s.addCounter k n).counter k = min (s.counter k + n) 0xFFFFFFFF := by
  by_cases hv : 0xFFFFFFFF < s.counter k + n
  · have e : (s.addCounter k n).counters = (s.setCounter k 0xFFFFFFFF).counters := by simp only [State.addCounter, if_pos hv]
    have : (s.addCounter k n).counter k = (s.setCounter k 0xFFFFFFFF).counter k := by unfold State.counter; rw [e]
    rw [this, State.counter_setCounter]; omega
  · rw [State.addCounter_small s k n (by omega), State.counter_setCounter]; omega

theorem State.counter_addCounter_other (s : State) {k j : Nat} (n : Nat) (h : j ≠ k) : (s.addCounter k n).counter j = s.counter j := by
  by_cases hv : 0xFFFFFFFF < s.counter k + n
  · have e : (s.addCounter k n).counters = (s.setCounter k 0xFFFFFFFF).counters := by simp only [State.addCounter, if_pos hv]
    have : (s.addCounter k n).counter j = (s.setCounter k 0xFFFFFFFF).counter j := by unfold State.counter; rw [e]
    rw [this, State.counter_setCounter_other _ _ h]
  · rw [State.addCounter_small s k n (by omega), State.counter_setCounter_other _ _ h]

/-- What an addition to a counter can touch. -/
theorem State.addCounter_frame (s : State) (k n : Nat) :
    s.addCounter k n = { s with counters := (s.addCounter k n).counters, counterSat := (s.addCounter k n).counterSat } := by
  by_cases hv : 0xFFFFFFFF < s.counter k + n
  · simp only [State.addCounter, if_pos hv]; rfl
  · rw [State.addCounter_small s k n (by omega)]; rfl

/-! ### Bytes -/

theorem get_putBytes_other (m : Tab Byte) (a x : Nat) (bs : List Byte) (h : x < a ∨ a + bs.length ≤ x) :
    Tab.get 0#8 (putBytes m a bs) x = Tab.get 0#8 m x := by
  induction bs generalizing m a with
  | nil => rfl
  | cons b bs ih =>
    simp only [List.length_cons] at h
    have hx : x ≠ a := by omega
    rw [putBytes, ih _ _ (by omega), Tab.get_set_other _ _ _ _ hx]

theorem get_putBytes (m : Tab Byte) (a i : Nat) (bs : List Byte) (b : Byte) (h : bs[i]? = some b) : Tab.get 0#8 (putBytes m a bs) (a + i) = b := by
  induction bs generalizing m a i with
  | nil => simp at h
  | cons c bs ih =>
    cases i with
    | zero =>
      simp only [List.getElem?_cons_zero, Option.some.injEq] at h
      rw [putBytes, get_putBytes_other _ _ _ _ (by omega), Nat.add_zero, Tab.get_set_self, h]
    | succ i =>
      simp only [List.getElem?_cons_succ] at h
      have := ih (Tab.set 0#8 m a c) (a + 1) i h
      rw [putBytes, show a + (i + 1) = a + 1 + i by omega, this]

theorem get_putBytesIf_other (keep : Nat → Bool) (m : Tab Byte) (a x : Nat) (bs : List Byte) (h : x < a ∨ a + bs.length ≤ x) :
    Tab.get 0#8 (putBytesIf keep m a bs) x = Tab.get 0#8 m x := by
  induction bs generalizing m a with
  | nil => rfl
  | cons b bs ih =>
    simp only [List.length_cons] at h
    have hx : x ≠ a := by omega
    rw [putBytesIf, ih _ _ (by omega)]
    split
    · exact Tab.get_set_other _ _ _ _ hx
    · rfl

/-- The bytes written read as written while no tier-1 channel is retired. -/
theorem State.byte_writeBytes (s : State) (a i : Nat) (bs : List Byte) (b : Byte) (hr : s.t1Retired = []) (h : bs[i]? = some b) :
    (s.writeBytes a bs).byte (a + i) = b := by
  unfold State.writeBytes State.byte
  simp only [hr, List.isEmpty_nil, if_true]
  exact get_putBytes _ _ _ _ _ h

/-- A write leaves every byte outside it alone. -/
theorem State.byte_writeBytes_other (s : State) (a x : Nat) (bs : List Byte) (h : x < a ∨ a + bs.length ≤ x) : (s.writeBytes a bs).byte x = s.byte x := by
  unfold State.writeBytes State.byte
  dsimp only
  split
  · exact get_putBytes_other _ _ _ _ h
  · exact get_putBytesIf_other _ _ _ _ _ h

theorem State.otherBytes_writeBytes (s : State) (a : Nat) (bs : List Byte) : OtherBytes a bs.length s (s.writeBytes a bs) :=
  fun x h => s.byte_writeBytes_other a x bs h

/-- What a write of bytes can touch. -/
theorem State.writeBytes_frame (s : State) (a : Nat) (bs : List Byte) :
    s.writeBytes a bs = { s with mem := (s.writeBytes a bs).mem, marks := (s.writeBytes a bs).marks, dir := (s.writeBytes a bs).dir } := rfl

theorem get_putNv_other (m : Tab Byte) (a x : Nat) (bs : List Byte) (h : x < a ∨ a + bs.length ≤ x) :
    Tab.get (nvReset x) (putNv m a bs) x = Tab.get (nvReset x) m x := by
  induction bs generalizing m a with
  | nil => rfl
  | cons b bs ih =>
    simp only [List.length_cons] at h
    have hx : x ≠ a := by omega
    rw [putNv, ih _ _ (by omega), Tab.get_set_other _ _ _ _ hx]

theorem State.nvByte_nvWrite_other (s : State) (a x : Nat) (bs : List Byte) (h : x < a ∨ a + bs.length ≤ x) : (s.nvWrite a bs).nvByte x = s.nvByte x :=
  get_putNv_other _ _ _ _ h

theorem get_putNv (m : Tab Byte) (a i : Nat) (bs : List Byte) (b : Byte) (h : bs[i]? = some b) :
    Tab.get (nvReset (a + i)) (putNv m a bs) (a + i) = b := by
  induction bs generalizing m a i with
  | nil => simp at h
  | cons c bs ih =>
    cases i with
    | zero =>
      simp only [List.getElem?_cons_zero, Option.some.injEq] at h
      rw [putNv, get_putNv_other _ _ _ _ (by omega), Nat.add_zero, Tab.get_set_self, h]
    | succ i =>
      simp only [List.getElem?_cons_succ] at h
      have := ih (Tab.set (nvReset a) m a c) (a + 1) i h
      rw [putNv, show a + (i + 1) = a + 1 + i by omega, this]

theorem State.nvByte_nvWrite (s : State) (a i : Nat) (bs : List Byte) (b : Byte) (h : bs[i]? = some b) : (s.nvWrite a bs).nvByte (a + i) = b :=
  get_putNv _ _ _ _ _ h

/-! ### Canonical forms -/

theorem wf_putBytes {m : Tab Byte} (a : Nat) (bs : List Byte) (h : Memory.wf m = true) : Memory.wf (putBytes m a bs) = true := by
  induction bs generalizing m a with
  | nil => exact h
  | cons b bs ih => exact ih _ (Tab.wf_set _ _ _ h)

theorem wf_putBytesIf (keep : Nat → Bool) {m : Tab Byte} (a : Nat) (bs : List Byte) (h : Memory.wf m = true) : Memory.wf (putBytesIf keep m a bs) = true := by
  induction bs generalizing m a with
  | nil => exact h
  | cons b bs ih =>
    rw [putBytesIf]
    split
    · exact ih _ (Tab.wf_set _ _ _ h)
    · exact ih _ h

theorem wf_clearMarks {m : Tab Bool} (l n : Nat) (h : Tab.wf false m = true) : Tab.wf false (clearMarks m l n) = true := by
  induction n generalizing m l with
  | zero => exact h
  | succ n ih => exact ih _ (Tab.wf_set _ _ _ h)

theorem wf_putNv {m : Tab Byte} (a : Nat) (bs : List Byte) (h : NvLog.wf m = true) : NvLog.wf (putNv m a bs) = true := by
  induction bs generalizing m a with
  | nil => exact h
  | cons b bs ih => exact ih _ (Tab.wfBy_set _ _ _ h)

theorem State.inv_reset : State.reset.Inv := by unfold State.Inv; decide

/-- The invariant is about nine fields: a state that agrees on them has it too. -/
theorem State.inv_of_eq {s t : State} (h : s.Inv) (h1 : t.mem = s.mem) (h2 : t.hostMem = s.hostMem) (h3 : t.nv = s.nv) (h4 : t.marks = s.marks)
    (h5 : t.counters = s.counters) (h6 : t.bar0 = s.bar0) (h7 : t.galleries = s.galleries) (h8 : t.rings = s.rings) (h9 : t.arrays = s.arrays) :
    t.Inv := by
  unfold State.Inv at *
  rw [h1, h2, h3, h4, h5, h6, h7, h8, h9]; exact h

theorem State.inv_at {s : State} (u : Nat) (h : s.Inv) : (s.at u).Inv := h
theorem State.inv_setReg {s : State} (o : Nat) (v : Word) (h : s.Inv) : (s.setReg o v).Inv := by
  obtain ⟨a, b, c, d, e, f, g⟩ := h
  exact ⟨a, b, c, d, e, Tab.wfBy_set _ _ _ f, g⟩
theorem State.inv_bump {s : State} (o n : Nat) (h : s.Inv) : (s.bump o n).Inv := State.inv_setReg _ _ h
theorem State.inv_setRfld {s : State} (o hi lo x : Nat) (h : s.Inv) : (s.setRfld o hi lo x).Inv := State.inv_setReg _ _ h
theorem State.inv_setRbit {s : State} (o i : Nat) (b : Bool) (h : s.Inv) : (s.setRbit o i b).Inv := State.inv_setReg _ _ h
theorem State.inv_bumpSat {s : State} (o hi lo n : Nat) (h : s.Inv) : (s.bumpSat o hi lo n).Inv := State.inv_setReg _ _ h
theorem State.inv_setGal {s : State} (k : Nat) (x : Gallery) (h : s.Inv) : (s.setGal k x).Inv := by
  obtain ⟨a, b, c, d, e, f, g, i⟩ := h
  exact ⟨a, b, c, d, e, f, Tab.wf_set _ _ _ g, i⟩
theorem State.inv_setRing {s : State} (n : Nat) (x : Ring) (h : s.Inv) : (s.setRing n x).Inv := by
  obtain ⟨a, b, c, d, e, f, g, i, j⟩ := h
  exact ⟨a, b, c, d, e, f, g, Tab.wf_set _ _ _ i, j⟩
theorem State.inv_setArr {s : State} (i : Nat) (x : ArrayState) (h : s.Inv) : (s.setArr i x).Inv := by
  obtain ⟨a, b, c, d, e, f, g, i, j⟩ := h
  exact ⟨a, b, c, d, e, f, g, i, Tab.wf_set _ _ _ j⟩
theorem State.inv_setCounter {s : State} (k v : Nat) (h : s.Inv) : (s.setCounter k v).Inv := by
  obtain ⟨a, b, c, d, e, f⟩ := h
  exact ⟨a, b, c, d, Tab.wf_set _ _ _ e, f⟩
theorem State.inv_addCounter {s : State} (k n : Nat) (h : s.Inv) : (s.addCounter k n).Inv := by
  by_cases hv : 0xFFFFFFFF < s.counter k + n
  · simp only [State.addCounter, if_pos hv]
    exact State.inv_of_eq (State.inv_setCounter k 0xFFFFFFFF h) rfl rfl rfl rfl rfl rfl rfl rfl rfl
  · rw [State.addCounter_small s k n (by omega)]; exact State.inv_setCounter _ _ h
theorem State.inv_applyIncs (is : List Inc) {s : State} (h : s.Inv) : (s.applyIncs is).Inv := by
  induction is generalizing s with
  | nil => exact h
  | cons i is ih => exact ih (State.inv_addCounter _ _ h)
theorem State.inv_markLine {s : State} (a : Nat) (h : s.Inv) : (s.markLine a).Inv := by
  obtain ⟨x, b, c, d, e⟩ := h
  exact ⟨x, b, c, Tab.wf_set false (a / 64) true d, e⟩
theorem State.inv_writeBytes {s : State} (a : Nat) (bs : List Byte) (h : s.Inv) : (s.writeBytes a bs).Inv := by
  obtain ⟨x, b, c, d, e⟩ := h
  refine ⟨?_, b, c, wf_clearMarks _ _ d, e⟩
  unfold State.writeBytes
  dsimp only
  split
  · exact wf_putBytes _ _ x
  · exact wf_putBytesIf _ _ _ x
theorem State.inv_writeLE {s : State} (a n x : Nat) (h : s.Inv) : (s.writeLE a n x).Inv := State.inv_writeBytes _ _ h
theorem State.inv_hostWrite {s : State} (p a : Nat) (bs : List Byte) (h : s.Inv) : (s.hostWrite p a bs).Inv := by
  obtain ⟨x, b, c⟩ := h
  exact ⟨x, wf_putBytes _ _ b, c⟩
theorem State.inv_nvWrite {s : State} (a : Nat) (bs : List Byte) (h : s.Inv) : (s.nvWrite a bs).Inv := by
  obtain ⟨x, b, c, d⟩ := h
  exact ⟨x, b, wf_putNv _ _ c, d⟩
theorem State.inv_setFn {s : State} (f : Nat) (r : FnRegs) (h : s.Inv) : (s.setFn f r).Inv := h
theorem State.inv_send {s : State} (w : PendWrite) (h : s.Inv) : (s.send w).Inv := h

/-- R330: a counter set in a cycle keeps the canonical forms. -/
theorem State.inv_setCounterAt {s : State} (k v : Nat) (h : s.Inv) : (s.setCounterAt k v).Inv := State.inv_addCounter _ _ (State.inv_setCounter _ _ h)

/-- R323: a narrow access keeps the canonical forms. -/
theorem State.inv_narrowStore {s : State} (x : NarrowAccess) (h : s.Inv) : (s.narrowStore x).Inv := by
  unfold State.narrowStore
  split
  · exact State.inv_writeBytes _ _ h
  · exact h

theorem State.inv_narrowStores (xs : List NarrowAccess) {s : State} (h : s.Inv) : (xs.foldl State.narrowStore s).Inv := by
  induction xs generalizing s with
  | nil => exact h
  | cons x xs ih => exact ih (State.inv_narrowStore x h)

/-- R326: a cycle of a bank's ports keeps the canonical forms when its wide view does. -/
theorem State.inv_portCycle {s : State} (narrow : List NarrowAccess) (reads : List (Nat × Nat)) (wide : State → State)
    (h : s.Inv) (hw : ∀ t : State, t.Inv → (wide t).Inv) : (s.portCycle narrow reads wide).Inv :=
  State.inv_of_eq (hw _ (State.inv_narrowStores _ h)) rfl rfl rfl rfl rfl rfl rfl rfl rfl

/-- R326: every read of the cycle answers from before it. -/
theorem State.portReads_portCycle (s : State) (narrow : List NarrowAccess) (reads : List (Nat × Nat)) (wide : State → State) :
    (s.portCycle narrow reads wide).portReads =
      (((narrow.filter s.narrowOk).filter (fun x : NarrowAccess => x.store.isNone)).map (fun x : NarrowAccess => (x.addr, 8)) ++ reads).map
        (fun r : Nat × Nat => (r.1, s.bytes r.1 r.2)) := rfl

/-- R317: a write that lands keeps the canonical forms. -/
theorem State.inv_land (w : PendWrite) {s : State} (h : s.Inv) : (s.land w).Inv := by
  have h1 : ∀ (ps : List (Nat × List Byte)) (s : State), s.Inv → (ps.foldl (fun s p => s.writeBytes p.1 p.2) s).Inv := by
    intro ps
    induction ps with
    | nil => exact fun _ h => h
    | cons p ps ih => exact fun s h => ih _ (State.inv_writeBytes _ _ h)
  have h2 : ∀ (ls : List Nat) (s : State), s.Inv → (ls.foldl State.markLine s).Inv := by
    intro ls
    induction ls with
    | nil => exact fun _ h => h
    | cons l ls ih => exact fun s h => ih _ (State.inv_markLine _ h)
  exact State.inv_applyIncs _ (h2 _ _ (h1 _ _ h))

end Sys2Proof.Machine
end

