-- ==== Sys2Proof/Laws/Shared.lean ====
section
/-! SUPPORT. What the operations that many commands share can do: interrupts, records, events, completions, the next step of a flight,
commands of the rings. Each has one lemma that says all it can touch. -/

namespace Sys2Proof.Machine

/-- Only rings, the functions' private registers and bytes written to the host differ. -/
def RingsOnly (s t : State) : Prop := ∃ r f h, t = { s with rings := r, fns := f, hostMem := h }

theorem RingsOnly.refl (s : State) : RingsOnly s s := ⟨_, _, _, rfl⟩
theorem RingsOnly.trans {s t u : State} (h : RingsOnly s t) (g : RingsOnly t u) : RingsOnly s u := by
  obtain ⟨a, b, c, rfl⟩ := h
  obtain ⟨d, e, f, rfl⟩ := g
  exact ⟨d, e, f, rfl⟩
theorem RingsOnly.setRing (s : State) (n : Nat) (r : Ring) : RingsOnly s (s.setRing n r) := ⟨_, _, _, rfl⟩
theorem RingsOnly.setFn (s : State) (f : Nat) (r : FnRegs) : RingsOnly s (s.setFn f r) := ⟨_, _, _, rfl⟩
theorem RingsOnly.hostWrite (s : State) (p a : Nat) (bs : List Byte) : RingsOnly s (s.hostWrite p a bs) := ⟨_, _, _, rfl⟩
theorem RingsOnly.eq {s t : State} (h : RingsOnly s t) : t = { s with rings := t.rings, fns := t.fns, hostMem := t.hostMem } := by
  obtain ⟨a, b, c, rfl⟩ := h; rfl

/-! ### Interrupts and records (R282, R284, R293, R296) -/

theorem State.sendMsix_frame (s : State) (f vec : Nat) : RingsOnly s (s.sendMsix f vec) := by
  unfold State.sendMsix
  dsimp only
  split
  · exact RingsOnly.setFn _ _ _
  · exact RingsOnly.hostWrite _ _ _ _

theorem State.signal_frame (s : State) (n : Nat) : RingsOnly s (s.signal n) := by
  unfold State.signal
  dsimp only
  generalize (if fld (s.ring n).int 19 12 = 0 then 1 else fld (s.ring n).int 19 12) = cnt
  split
  · split
    · exact (RingsOnly.setRing _ _ _).trans (State.sendMsix_frame _ _ _)
    · exact RingsOnly.setRing _ _ _
  · exact RingsOnly.refl s

theorem State.writeEntry_frame (s : State) (n : Nat) (bs : List Byte) : RingsOnly s (s.writeEntry n bs) :=
  ((RingsOnly.hostWrite _ _ _ _).trans (RingsOnly.setRing _ _ _)).trans (State.signal_frame _ _)

theorem State.writeEvent_frame (s : State) (n : Nat) (bs : List Byte) : RingsOnly s (s.writeEvent n bs) :=
  (RingsOnly.setRing _ _ _).trans (State.writeEntry_frame _ _ _)

theorem State.putEvent_frame (s : State) (n : Nat) (bs : List Byte) : RingsOnly s (s.putEvent n bs) := by
  unfold State.putEvent
  dsimp only
  split
  · exact State.writeEvent_frame _ _ _
  · split
    · exact RingsOnly.setRing _ _ _
    · exact RingsOnly.setRing _ _ _

theorem State.putRecord_frame (s : State) (n : Nat) (bs : List Byte) : RingsOnly s (s.putRecord n bs) := by
  unfold State.putRecord
  dsimp only
  split
  · exact State.writeEntry_frame _ _ _
  · exact RingsOnly.setRing _ _ _

/-- Beside the rings' side, only the count of token records written, SRV_DELIVERED, differs. -/
def TokensOnly (s t : State) : Prop :=
  (∃ r f h b, t = { s with rings := r, fns := f, hostMem := h, bar0 := b }) ∧ ∀ o, o ≠ 0xA6058 → t.reg o = s.reg o

theorem RingsOnly.tokens {s t : State} (h : RingsOnly s t) : TokensOnly s t := by
  obtain ⟨a, b, c, rfl⟩ := h
  exact ⟨⟨_, _, _, _, rfl⟩, fun _ _ => rfl⟩
theorem TokensOnly.trans {s t u : State} (h : TokensOnly s t) (g : TokensOnly t u) : TokensOnly s u := by
  obtain ⟨⟨a, b, c, d, rfl⟩, h⟩ := h
  obtain ⟨⟨e, f, i, j, rfl⟩, g⟩ := g
  exact ⟨⟨_, _, _, _, rfl⟩, fun o ho => (g o ho).trans (h o ho)⟩

theorem State.writeToken_frame (s : State) (n : Nat) (bs : List Byte) : TokensOnly s (s.writeToken n bs) :=
  (State.writeEntry_frame s n bs).tokens.trans ⟨⟨_, _, _, _, rfl⟩, fun _ ho => State.reg_setReg_other _ _ ho⟩

theorem State.putToken_frame (s : State) (n : Nat) (bs : List Byte) : TokensOnly s (s.putToken n bs) := by
  unfold State.putToken
  dsimp only
  split
  · exact State.writeToken_frame _ _ _
  · exact (RingsOnly.setRing _ _ _).tokens

theorem State.drainRing_frame (s : State) (n fuel : Nat) : TokensOnly s (s.drainRing n fuel) := by
  induction fuel generalizing s with
  | zero => exact (RingsOnly.refl s).tokens
  | succ fuel ih =>
    unfold State.drainRing
    dsimp only
    split
    · exact (RingsOnly.refl s).tokens
    · split
      · exact (RingsOnly.refl s).tokens
      · refine TokensOnly.trans ?_ (ih _)
        split
        · exact ((RingsOnly.setRing _ _ _).trans (State.writeEvent_frame _ _ _)).tokens
        · split
          · exact (RingsOnly.setRing _ _ _).tokens.trans (State.writeToken_frame _ _ _)
          · exact ((RingsOnly.setRing _ _ _).trans (State.writeEntry_frame _ _ _)).tokens

theorem State.putEvents_frame (bs : List Byte) (ns : List Nat) (s : State) : RingsOnly s (ns.foldl (fun s n => s.putEvent n bs) s) := by
  induction ns generalizing s with
  | nil => exact RingsOnly.refl s
  | cons n ns ih => exact (State.putEvent_frame _ _ _).trans (ih _)

/-! ### Events (R292 to R294) -/

/-- What raising an event can touch: GLB_EVENT_SEQ and the next SEQ, the rings' side, and the device-wide buffer. -/
theorem State.raise_frame (s : State) (code source : Nat) (ctx : Option Nat) (detail : Nat) :
    ∃ r f h d l, s.raise code source ctx detail =
      { s.setReg 0x20 (BitVec.ofNat 32 s.eventSeq) with
        eventSeq := (s.eventSeq + 1) % 2 ^ 32, rings := r, fns := f, hostMem := h, held := d, heldLost := l } := by
  unfold State.raise
  dsimp only
  split
  · unfold State.holdEvent
    dsimp only
    split <;> exact ⟨_, _, _, _, _, rfl⟩
  · next ns _ =>
    obtain ⟨a, b, c, h⟩ := State.putEvents_frame (eventRecord code source ctx detail s.time s.eventSeq) _
      { s.setReg 0x20 (BitVec.ofNat 32 s.eventSeq) with eventSeq := (s.eventSeq + 1) % 2 ^ 32 }
    exact ⟨a, b, c, _, _, h⟩

theorem State.raise_eventSeq (s : State) (code source : Nat) (ctx : Option Nat) (detail : Nat) :
    (s.raise code source ctx detail).eventSeq = (s.eventSeq + 1) % 2 ^ 32 := by
  obtain ⟨a, b, c, d, e, h⟩ := s.raise_frame code source ctx detail
  rw [h]

/-- Raising an event changes no register but GLB_EVENT_SEQ. -/
theorem State.reg_raise (s : State) (code source : Nat) (ctx : Option Nat) (detail : Nat) {o : Nat} (ho : o ≠ 0x20) :
    (s.raise code source ctx detail).reg o = s.reg o := by
  obtain ⟨a, b, c, d, e, h⟩ := s.raise_frame code source ctx detail
  rw [h]
  exact s.reg_setReg_other _ ho

/-! ### Completions (R289, R291) -/

/-- What completing a command can touch: the entries accepted or orphaned, and the rings' side. -/
theorem State.complete_frame (s : State) (e : SubEntry) (status result : Nat) :
    ∃ o r f h, s.complete e status result = { s with accepted := s.accepted.erase e, orphans := o, rings := r, fns := f, hostMem := h } := by
  unfold State.complete
  dsimp only
  split
  · exact ⟨_, _, _, _, rfl⟩
  · split
    · obtain ⟨a, b, c, h⟩ := State.putRecord_frame { s with accepted := s.accepted.erase e }
        (({ s with accepted := s.accepted.erase e } : State).ring e.sq).cq
        (completionRecord e status result ({ s with accepted := s.accepted.erase e } : State).time)
      exact ⟨_, a, b, c, h⟩
    · exact ⟨_, _, _, _, rfl⟩

/-! ### The rings' side keeps the canonical forms -/

theorem State.inv_sendMsix {s : State} (f vec : Nat) (h : s.Inv) : (s.sendMsix f vec).Inv := by
  unfold State.sendMsix
  dsimp only
  split
  · exact State.inv_setFn _ _ h
  · exact State.inv_hostWrite _ _ _ h

theorem State.inv_signal {s : State} (n : Nat) (h : s.Inv) : (s.signal n).Inv := by
  unfold State.signal
  dsimp only
  generalize (if fld (s.ring n).int 19 12 = 0 then 1 else fld (s.ring n).int 19 12) = cnt
  split
  · split
    · exact State.inv_sendMsix _ _ (State.inv_setRing _ _ h)
    · exact State.inv_setRing _ _ h
  · exact h

theorem State.inv_writeEntry {s : State} (n : Nat) (bs : List Byte) (h : s.Inv) : (s.writeEntry n bs).Inv :=
  State.inv_signal _ (State.inv_setRing _ _ (State.inv_hostWrite _ _ _ h))

theorem State.inv_writeEvent {s : State} (n : Nat) (bs : List Byte) (h : s.Inv) : (s.writeEvent n bs).Inv :=
  State.inv_writeEntry _ _ (State.inv_setRing _ _ h)

theorem State.inv_putEvent {s : State} (n : Nat) (bs : List Byte) (h : s.Inv) : (s.putEvent n bs).Inv := by
  unfold State.putEvent
  dsimp only
  split
  · exact State.inv_writeEvent _ _ h
  · split
    · exact State.inv_setRing _ _ h
    · exact State.inv_setRing _ _ h

theorem State.inv_putRecord {s : State} (n : Nat) (bs : List Byte) (h : s.Inv) : (s.putRecord n bs).Inv := by
  unfold State.putRecord
  dsimp only
  split
  · exact State.inv_writeEntry _ _ h
  · exact State.inv_setRing _ _ h

theorem State.inv_putEvents (bs : List Byte) (ns : List Nat) {s : State} (h : s.Inv) : (ns.foldl (fun s n => s.putEvent n bs) s).Inv := by
  induction ns generalizing s with
  | nil => exact h
  | cons n ns ih => exact ih (State.inv_putEvent _ _ h)

theorem State.inv_raise {s : State} (code source : Nat) (ctx : Option Nat) (detail : Nat) (h : s.Inv) : (s.raise code source ctx detail).Inv := by
  have h1 : ({ s.setReg 0x20 (BitVec.ofNat 32 s.eventSeq) with eventSeq := (s.eventSeq + 1) % 2 ^ 32 } : State).Inv :=
    State.inv_of_eq (State.inv_setReg 0x20 (BitVec.ofNat 32 s.eventSeq) h) rfl rfl rfl rfl rfl rfl rfl rfl rfl
  unfold State.raise
  dsimp only
  split
  · unfold State.holdEvent
    dsimp only
    split
    · exact State.inv_of_eq h1 rfl rfl rfl rfl rfl rfl rfl rfl rfl
    · exact State.inv_of_eq h1 rfl rfl rfl rfl rfl rfl rfl rfl rfl
  · exact State.inv_putEvents _ _ h1

theorem State.inv_complete {s : State} (e : SubEntry) (status result : Nat) (h : s.Inv) : (s.complete e status result).Inv := by
  have h1 : ({ s with accepted := s.accepted.erase e } : State).Inv := State.inv_of_eq h rfl rfl rfl rfl rfl rfl rfl rfl rfl
  unfold State.complete
  dsimp only
  split
  · exact State.inv_of_eq h1 rfl rfl rfl rfl rfl rfl rfl rfl rfl
  · split
    · exact State.inv_putRecord _ _ h1
    · exact h1

/-- A command of a ring keeps the canonical forms when its body does. -/
theorem State.inv_command {s : State} (e : SubEntry) (op : Nat) (body : State → State) (h : s.Inv) (hb : (body s).Inv) : (s.command e op body).Inv := by
  unfold State.command
  split
  · exact h
  · split
    · exact hb
    · exact State.inv_complete _ _ _ h

/-! ### The next step of a flight (R71, R78) -/

/-- A step that issues runs its body at its instant. -/
theorem State.withStep_issues {s : State} {k op : Nat} {f : Flight} {w : StepWord} (body : State → Flight → StepWord → State)
    (h : Issues s k op f w) : s.withStep k op body = body (s.at f.issueAt) f w := by
  obtain ⟨h1, h2, h3, h4, h5⟩ := h
  unfold State.withStep
  simp only [h1, h2, h3, h4, h5, Bool.not_true, Bool.false_eq_true, if_false, if_true]

/-- At an instant one gallery changes and nothing else. -/
theorem galleryBecomes_at (k u : Nat) (g : Gallery) (s : State) : GalleryBecomes k g (max s.now u) s ((s.at u).setGal k g) :=
  ⟨rfl, State.gal_setGal _ _ _, fun _ hj => State.gal_setGal_other _ _ hj, rfl⟩

/-! ### Steps -/

theorem step_cons (s : State) (c : Instr) (rest : List Instr) (h : s.pending = c :: rest) : step s = exec c { s with pending := rest } := by
  unfold step; rw [h]

theorem step_nil (s : State) (h : s.pending = []) : step s = .next { s with now := s.now + 1 } := by
  unfold step; rw [h]

end Sys2Proof.Machine
end

