-- ==== Sys2Proof/Laws/Fabric.lean ====
section
/-! SUPPORT. What sending on the fabric can touch (R350, R351, R354, R358). -/

namespace Sys2Proof.Machine

/-- Only links, messages to send, message numbers and trees differ. -/
def FabricOnly (s t : State) : Prop := ∃ l o n r, t = { s with links := l, fabOut := o, nextId := n, trees := r }

theorem FabricOnly.refl (s : State) : FabricOnly s s := ⟨_, _, _, _, rfl⟩
theorem FabricOnly.trans {s t u : State} (h : FabricOnly s t) (g : FabricOnly t u) : FabricOnly s u := by
  obtain ⟨a, b, c, d, rfl⟩ := h
  obtain ⟨e, f, i, j, rfl⟩ := g
  exact ⟨e, f, i, j, rfl⟩
theorem FabricOnly.foldl {β : Type} (f : State → β → State) (h : ∀ s x, FabricOnly s (f s x)) (xs : List β) (s : State) : FabricOnly s (xs.foldl f s) := by
  induction xs generalizing s with
  | nil => exact FabricOnly.refl s
  | cons x xs ih => exact (h s x).trans (ih _)
theorem FabricOnly.setLnk (s : State) (l : Nat) (k : Link) : FabricOnly s (s.setLnk l k) := ⟨_, _, _, _, rfl⟩
theorem FabricOnly.setTree (s : State) (t : Nat) (r : TreeRun) : FabricOnly s (s.setTree t r) := ⟨_, _, _, _, rfl⟩

theorem State.settleLink_frame (s : State) (l : Nat) : FabricOnly s (s.settleLink l) := by
  unfold State.settleLink
  dsimp only
  split
  · exact FabricOnly.refl s
  · exact FabricOnly.setLnk _ _ _

theorem State.sendTree_frame (s : State) (m : FabMsg) : FabricOnly s (s.sendTree m) :=
  FabricOnly.trans (FabricOnly.setTree _ _ _) (FabricOnly.foldl _ (fun _ _ => ⟨_, _, _, _, rfl⟩) _ _)

theorem State.assignLinks_frame (s : State) : FabricOnly s s.assignLinks := by
  have h : FabricOnly s ((s.fabOut.partition (fun m => decide (m.kind = 4) && m.link.isNone)).1.foldl State.sendTree
      { s with fabOut := (s.fabOut.partition (fun m => decide (m.kind = 4) && m.link.isNone)).2 }) :=
    FabricOnly.trans (⟨_, _, _, _, rfl⟩ : FabricOnly s { s with fabOut := (s.fabOut.partition (fun m => decide (m.kind = 4) && m.link.isNone)).2 })
      (FabricOnly.foldl _ State.sendTree_frame _ _)
  exact h.trans ⟨_, _, _, _, rfl⟩

theorem State.pumpLink_frame (s : State) (l fuel : Nat) : FabricOnly s (s.pumpLink l fuel) := by
  induction fuel generalizing s with
  | zero => exact FabricOnly.refl s
  | succ fuel ih =>
    unfold State.pumpLink
    dsimp only
    split
    · exact FabricOnly.refl s
    · split
      · exact FabricOnly.refl s
      · split
        · exact FabricOnly.refl s
        · refine FabricOnly.trans ?_ (ih _)
          exact ⟨_, _, _, _, rfl⟩

/-- Sending what may be sent touches links, messages, their numbers and trees, and nothing else. -/
theorem State.pump_frame (s : State) : FabricOnly s s.pump :=
  s.assignLinks_frame.trans (FabricOnly.foldl _ (fun s l => s.pumpLink_frame l 256) _ _)

theorem State.dropLink_frame (s : State) (l state : Nat) : FabricOnly s (s.dropLink l state) := by
  refine FabricOnly.trans (FabricOnly.setLnk s l _) (FabricOnly.trans (⟨_, _, _, _, rfl⟩ : FabricOnly _ { s.modLnk l _ with fabOut := [] })
    (FabricOnly.foldl _ (fun s m => ?_) _ _))
  unfold State.resendMsg
  split
  · exact ⟨_, _, _, _, rfl⟩
  · split
    · exact ⟨_, _, _, _, rfl⟩
    · dsimp only
      split
      · exact ⟨_, _, _, _, rfl⟩
      · exact FabricOnly.setTree _ _ _

theorem FabricOnly.inv {s t : State} (h : FabricOnly s t) (hi : s.Inv) : t.Inv := by
  obtain ⟨a, b, c, d, rfl⟩ := h
  exact State.inv_of_eq hi rfl rfl rfl rfl rfl rfl rfl rfl rfl

end Sys2Proof.Machine
end

