-- ==== Sys2Proof/Laws/KvStore.lean ====
section
/-! SUPPORT. The KV store: what a move of a page can touch. -/

namespace Sys2Proof.Machine

/-- Same machine but for device memory, its marks and the directory of host lines. -/
def State.MemOnly (s t : State) : Prop := t = { s with mem := t.mem, marks := t.marks, dir := t.dir }

theorem State.MemOnly.trans {s t u : State} (h : s.MemOnly t) (k : t.MemOnly u) : s.MemOnly u := by
  unfold State.MemOnly at *
  rw [k, h]

theorem State.memOnly_markLines (s : State) (f : State → Nat → Bool) (a : Nat) (js : List Nat) :
    s.MemOnly (js.foldl (fun s j => if f s j then s.markLine (a + 64 * j) else s) s) := by
  induction js generalizing s with
  | nil => rfl
  | cons j js ih =>
    rw [List.foldl_cons]
    refine State.MemOnly.trans ?_ (ih _)
    split <;> rfl

theorem State.memOnly_setPte (s : State) (i : PageId) (e : PtEntry) : s.MemOnly (s.setPte i e) := by
  unfold State.setPte
  split <;> rfl

theorem State.MemOnly.kvUsed {s t : State} (h : s.MemOnly t) (u : Tab Nat) :
    ({ s with kvUsed := u } : State).MemOnly { t with kvUsed := u } := by
  unfold State.MemOnly at *
  rw [h]

theorem State.MemOnly.kvUsed_eq {s t : State} (h : s.MemOnly t) : t.kvUsed = s.kvUsed := by rw [h]

/-- What an allocation answers: a place inside the pool whose slots were free, and the machine with them in use by the stream. -/
theorem State.kvAlloc_some {s t : State} {tier n st i : Nat} (h : s.kvAlloc tier n st = some (i, t)) :
    t = (List.range n).foldl (fun s j => { s with kvUsed := Tab.put s.kvUsed (kvKey tier (i + j)) (st + 1) }) s := by
  unfold State.kvAlloc at h
  dsimp only at h
  split at h
  · cases h
  · rw [Option.map_eq_some_iff] at h
    obtain ⟨x, _, hx⟩ := h
    cases hx
    rfl

/-- The first slot of a pool. -/
theorem State.kvAlloc_first {s : State} {tier st : Nat} (h : (s.kvAlloc tier 1 st).map Prod.fst = some 0) :
    s.kvAlloc tier 1 st = some (0, { s with kvUsed := Tab.put s.kvUsed (kvKey tier 0) (st + 1) }) := by
  rcases hk : s.kvAlloc tier 1 st with _ | ⟨n, t⟩
  · rw [hk] at h
    cases h
  · rw [hk] at h
    cases h
    rw [State.kvAlloc_some hk]
    rfl

theorem State.MemOnly.freeBelow {s t : State} (h : s.MemOnly t) (tier n pct : Nat) : t.freeBelow tier n pct = s.freeBelow tier n pct := by
  rw [h]
  rfl

/-- A page that is valid moves when the other tier has a slot for it; its old slot is free again and nothing but memory and the
slots in use changes. -/
theorem State.movePage_some {s s0 : State} {i : PageId} {tier slot : Nat} (hv : (s.pte i).valid = true)
    (ha : s.kvAlloc tier 1 i.stream = some (slot, s0)) (ht : tier ≤ 1) : ∃ s1, s.movePage i tier = some s1 ∧
      ({ s0 with kvUsed := Tab.del s0.kvUsed (kvKey (s.pte i).tier (s.pte i).slot) } : State).MemOnly s1 := by
  unfold State.movePage State.slotWrite
  simp only [hv, ha, ht, Bool.not_true, Bool.false_eq_true, if_false, if_true, Option.map_some, and_true]
  refine ⟨_, rfl, State.MemOnly.trans ?_ (State.memOnly_setPte _ _ _)⟩
  split
  · have h := State.memOnly_markLines (s0.writeBytes (kvAddr tier slot + 0) (s0.slotRead (s.pte i).tier (s.pte i).slot 0 slotBytes))
      (fun s' j => s'.slotMarked (s.pte i).tier (s.pte i).slot (64 * j) 64) (kvAddr tier slot) (List.range 36)
    have w : s0.MemOnly (s0.writeBytes (kvAddr tier slot + 0) (s0.slotRead (s.pte i).tier (s.pte i).slot 0 slotBytes)) := rfl
    have k := State.MemOnly.trans w h
    unfold State.kvRelease
    rw [k.kvUsed_eq]
    exact k.kvUsed _
  · rfl

end Sys2Proof.Machine
end

