-- ==== Sys2Proof/Laws/Lists.lean ====
section
/-! SUPPORT. What sorting does: the same elements, in the order asked for. -/

namespace Sys2Proof.Machine

variable {α : Type}

theorem mem_insertBy (le : α → α → Bool) (x y : α) (xs : List α) : y ∈ insertBy le x xs ↔ y = x ∨ y ∈ xs := by
  induction xs with
  | nil => simp [insertBy]
  | cons z zs ih =>
    simp only [insertBy]
    split
    · simp
    · rw [List.mem_cons, ih, List.mem_cons]
      constructor
      · rintro (h | h | h)
        · exact .inr (.inl h)
        · exact .inl h
        · exact .inr (.inr h)
      · rintro (h | h | h)
        · exact .inr (.inl h)
        · exact .inl h
        · exact .inr (.inr h)

@[simp] theorem mem_sortBy (le : α → α → Bool) (y : α) (xs : List α) : y ∈ sortBy le xs ↔ y ∈ xs := by
  induction xs with
  | nil => rfl
  | cons x xs ih => rw [sortBy, List.foldr_cons, mem_insertBy, ← sortBy, ih, List.mem_cons]

theorem length_insertBy (le : α → α → Bool) (x : α) (xs : List α) : (insertBy le x xs).length = xs.length + 1 := by
  induction xs with
  | nil => rfl
  | cons z zs ih =>
    simp only [insertBy]
    split
    · rfl
    · simp [ih]

@[simp] theorem length_sortBy (le : α → α → Bool) (xs : List α) : (sortBy le xs).length = xs.length := by
  induction xs with
  | nil => rfl
  | cons x xs ih => rw [sortBy, List.foldr_cons, length_insertBy, ← sortBy, ih, List.length_cons]

theorem pairwise_insertBy {le : α → α → Bool} (ht : ∀ a b c, le a b = true → le b c = true → le a c = true)
    (hc : ∀ a b, le a b = false → le b a = true) (x : α) {xs : List α} (h : xs.Pairwise (fun a b => le a b = true)) :
    (insertBy le x xs).Pairwise (fun a b => le a b = true) := by
  induction xs with
  | nil => simp [insertBy]
  | cons z zs ih =>
    rw [List.pairwise_cons] at h
    simp only [insertBy]
    split
    · rename_i hx
      refine List.pairwise_cons.2 ⟨fun b hb => ?_, List.pairwise_cons.2 h⟩
      rcases List.mem_cons.1 hb with rfl | hb
      · exact hx
      · exact ht _ _ _ hx (h.1 b hb)
    · rename_i hx
      refine List.pairwise_cons.2 ⟨fun b hb => ?_, ih h.2⟩
      rcases (mem_insertBy le x b zs).1 hb with rfl | hb
      · exact hc _ _ (by simpa using hx)
      · exact h.1 b hb

/-- Under a total order the sorted list is in order. -/
theorem pairwise_sortBy {le : α → α → Bool} (ht : ∀ a b c, le a b = true → le b c = true → le a c = true)
    (hc : ∀ a b, le a b = false → le b a = true) (xs : List α) : (sortBy le xs).Pairwise (fun a b => le a b = true) := by
  induction xs with
  | nil => simp [sortBy]
  | cons x xs ih => exact pairwise_insertBy ht hc x ih

end Sys2Proof.Machine
end

