-- ==== Sys2Proof/Tests/Slice0.lean ====
section
/-! SUPPORT. Tests: terms that well-formedness refuses, states and operands that meet the hypotheses of each statement, and single steps
whose result the spec gives. -/

open Sys2Proof Sys2Proof.Machine

namespace Sys2Proof.Tests

set_option Elab.async false

/-- The state a command leaves; the state itself where the command stops. -/
def after (c : Instr) (s : State) : State :=
  match exec c s with
  | .next t => t
  | _ => s

/-- Right after reset, with gallery 0 as given. -/
def withGal (g : Gallery) : State := State.reset.setGal 0 g

/-- A READY gallery. -/
def readyGal : Gallery := { Gallery.reset with power := .ready }

/-- A flight whose first step stands at the first line of hall 0. -/
def flight0 : Flight := Flight.start { bits := 0#256, poster := .mp, work := .other, arrived := 0 } 0

/-- Gallery 0 READY, about to issue the step `w` of the flight `f`. -/
def atStepOf (w : StepWord) (f : Flight) (g : Gallery) : State := (State.reset.writeLE (hallBase 0) 16 w.toNat).setGal 0 { g with flight := some f }

def atStep (w : StepWord) : State := atStepOf w flight0 readyGal

/-- A step word: opcode and the bits below it. -/
def stepWd (op x : Nat) : StepWord := BitVec.ofNat 128 (op * 2 ^ 122 + x)

/-! ### Ill-formed commands -/

theorem test_wf_gallery : (Instr.wake 8 0 false).wf = false ∧ (Instr.wake 7 512 false).wf = false ∧ (Instr.wake 7 511 false).wf = true ∧ (Instr.diagnostic 0 0 false (2 ^ 32)).wf = false := by decide +kernel
theorem test_wf_array : (Instr.programRow 0 0 32).wf = false ∧ (Instr.programRow 0 0 31).wf = true := by decide +kernel
theorem test_wf_function : (Instr.retry).wf = true ∧ (Instr.ringResume 4).wf = false ∧ (Instr.handover (some 4)).wf = false ∧ (Instr.handover none).wf = true := by decide +kernel
theorem test_wf_ring : (Instr.interruptTimer 8192).wf = false ∧ (Instr.interruptTimer 8191).wf = true := by decide +kernel
theorem test_wf_entry : (Instr.nop { sq := 8192, index := 0, bytes := 0#512 }).wf = false ∧
    (Instr.nop { sq := 0, index := 65536, bytes := 0#512 }).wf = false ∧ (Instr.nop { sq := 0, index := 0, bytes := 1#512 }).wf = false ∧
    (Instr.nop { sq := 0, index := 0, bytes := 0#512 }).wf = true := by decide +kernel
theorem test_wf_context : (Instr.loadComplete 64).wf = false ∧ (Instr.loadComplete 63).wf = true ∧ (Instr.fallbackStep 64).wf = false := by decide +kernel
theorem test_wf_task : (Instr.attentionJobPost 0#512 65).wf = false ∧ (Instr.attentionJobPost 0#512 64).wf = true := by decide +kernel
theorem test_wf_stream : (Instr.parkExpiry 65536).wf = false ∧ (Instr.samplerDraw 0 0 0).wf = false ∧ (Instr.tokenLogAck 0 (2 ^ 21)).wf = false ∧
    (Instr.checkpointComplete 0 2 { pos := 0, entry := [], tokens := [], counts := [], held := [], spans := [], baseGen := 0 }).wf = false := by decide +kernel
theorem test_wf_engine : (Instr.fill 96).wf = false ∧ (Instr.dmaResponseTimeout 0 3).wf = false ∧ (Instr.dmaCqHeadWrite 0 65536).wf = false := by decide +kernel
theorem test_wf_link : (Instr.ack 96 0).wf = false ∧ (Instr.ack 0 4096).wf = false ∧ (Instr.credit 0 3 0).wf = false ∧
    (Instr.hello 0 4096 0 0 0).wf = false ∧ (Instr.reset 0 0 65536).wf = false ∧ (Instr.dataFlit 0 true 3 true true 0 []).wf = false := by decide +kernel
theorem test_wf_converter : (Instr.tmonRefReady 11 0).wf = false ∧ (Instr.tmonRefReady 0 2).wf = false ∧ (Instr.tmonConversionDone 0 0 4096).wf = false ∧
    (Instr.tmonConversionDone 0 0 (-2049)).wf = false := by decide +kernel
theorem test_wf_widths : (Instr.counterSet 0 (2 ^ 32)).wf = false ∧ (Instr.registerWrite 0 (2 ^ 24) 0 4).wf = false ∧ (Instr.registerWrite 0 0 0 0).wf = false ∧ (Instr.registerWrite 0 0 (2 ^ 32) 4).wf = false ∧ (Instr.registerWrite 0 0 (2 ^ 32) 8).wf = true ∧ (Instr.aonOn 8).wf = false ∧
    (Instr.powerGoodRise 8).wf = false ∧ (Instr.hallPllRelock 8).wf = false ∧ (Instr.handoverEnd 1101 none true).wf = false := by decide +kernel
theorem test_wf_memory : (Instr.patrolRead 0 3 none).wf = false ∧ (Instr.patrolRead 0 0 (some (some 64))).wf = false ∧ (Instr.memoryTrainingLost 16 false).wf = false ∧ (Instr.driveRemoved 8).wf = false ∧
    (Instr.memoryTemperatureReport 9 8 true).wf = false ∧ (Instr.cxlMemRequest 0 (some [])).wf = false ∧ (Instr.scratchpadBurstIssue 9 0 64 true false []).wf = false ∧
    (Instr.writeArrival 0 [{ task := 64, addr := 4, store := none }]).wf = false ∧ (Instr.writeArrival 0 [{ task := 64, addr := 8, store := some [1#8] }]).wf = false ∧
    (Instr.directoryRequest 0 [{ port := 34, own := true, stores := [] }] none).wf = false := by decide +kernel
theorem test_wf_lists : (Instr.route [4096]).wf = false ∧ (Instr.surveyBaselineDone [4096]).wf = false ∧ (Instr.vrAlert [22]).wf = false ∧
    (Instr.imageDataArrival 0 []).wf = false ∧ (Instr.diagnosticEnd 0 0 false [(32, none)]).wf = false ∧ (Instr.diagnosticEnd 0 0 false [(0, some 16)]).wf = false ∧
    (Instr.advert 0 0 0 [(128, 0)] 0).wf = false ∧ (Instr.perstDeassert 2 0 0 false).wf = false := by decide +kernel


/-- A gallery with an owner, whose context 0 may read and write all of memory through window 0. -/
def owned (s : State) : State :=
  (((s.setReg (galReg 0 0xC0) 0x40#32).setReg 0x70000 7#32).setReg 0x70008 0xFFFFFFC0#32).setReg 0x7000C 0xFF#32

/-- An array record of context 0 with its image not yet kept. -/
def rec0 : ArrayRec := { context := 0, varray := 0, matrix := 0, rowblk := 0, colblk := 0, rows := 32, cols := 32, format := .w4, gc := 0, rotLayer := 0
                         scales := [], codes := [], stats := [], rho := [], colSums := [] }

/-- A segment of zero blocks. -/
def seg0 : Segment := { format := .a4, lowpass := false, scales := List.replicate 32 0#8, codes := List.replicate 1024 0, readyAt := 0 }
def eval0 : EvalRun := { id := 0, slot := 0, mask := 1, budgetCode := 0, f := 0, transpose := false, high := true, low := true, chkTol := 0, thresh := 4
                         replicaMode := 1, poison := false, seg := seg0, smax := 0#8, cls := [], carrySeg := none, carryDue := none, passes := []
                         residDue := 0, residDone := false, emap := [], spares := [], coefs := [], done := false, readyAt := 0, outs := [], landed := 0 }


/-- Right after reset, in package state `n` and phase `p` of the always-on domain. -/
def atPhase (n : Nat) (p : PwrPhase) : State := { State.reset with power := { Power.reset with phase := p } }.setRfld 0x10000 2 0 n

/-- Rails 1 to 6 on and good. -/
def railsOn (s : State) : State := s.setReg 0x10008 0x7E7E#32

theorem between {P : Nat → Prop} (lo n : Nat) (h : ∀ x, x < n + 1 → lo < x → P x) : ∀ x, lo < x → x ≤ n → P x :=
  fun x a b => h x (Nat.lt_succ_of_le b) a

theorem under {P : Nat → Prop} (lo n : Nat) (h : ∀ x, x < n → lo < x → P x) : ∀ x, lo < x → x < n → P x := fun x a b => h x b a

theorem fromOn {P : Nat → Prop} (lo n : Nat) (h : ∀ x, x < n + 1 → lo ≤ x → P x) : ∀ x, lo ≤ x → x ≤ n → P x :=
  fun x a b => h x (Nat.lt_succ_of_le b) a

/-- A submission entry of ring 0 with these 64 bytes. -/
def entryOf (x : Nat) : SubEntry := { sq := 0, index := 0, bytes := BitVec.ofNat 512 x }

/-- Byte (field) `v` at offset `o` of an entry or a descriptor. -/
def at8 (o v : Nat) : Nat := v * 256 ^ o

/-- Two trained stacks with 2 GiB of tier 0 for the KV store, one tier-1 channel of 4 GiB with 2 GiB for it. -/
def kvReady : State := { State.reset with hbmStacks := [0, 1], t1Channels := [0], t1ChannelBytes := 4 * gib }.setReg 0x98408 0x00002002#32

/-! ### Steps of a flight -/

/-- SKIP 5 when the route bit 0 is 0. -/
def wBranch : StepWord := stepWd opBranch (5 * 2 ^ 99)
def wFence : StepWord := stepWd opFence (7 * 2 ^ 119)
def wLoop : StepWord := stepWd opLoop (2 * 2 ^ 104 + 2 ^ 88)
def wait0 : StepWord := stepWd opWait (5 * 2 ^ 110 + 3 * 2 ^ 94 + 2 ^ 93 + 10 * 2 ^ 77)
def wSignal : StepWord := stepWd opSignal (8 * 2 ^ 118 + 9 * 2 ^ 106 + 1 * 2 ^ 90)
def wStage : StepWord := stepWd opStage (100 * 2 ^ 94)

theorem witness_ControlFlowSteps : Issues (atStep wBranch) (galKey 0 0) opBranch flight0 wBranch ∧
    Issues (atStep (stepWd opSleep (2 ^ 121))) (galKey 0 0) opSleep flight0 (stepWd opSleep (2 ^ 121)) ∧
    Issues (atStep (stepWd opGap (50 * 2 ^ 106))) (galKey 0 0) opGap flight0 (stepWd opGap (50 * 2 ^ 106)) ∧
    ((withGal { readyGal with flight := some { flight0 with gapEnd := some 600 } }).gal (galKey 0 0)).flight = some { flight0 with gapEnd := some 600 } := by
  unfold Issues; decide +kernel
theorem witness_Fence : Issues (atStep wFence) (galKey 0 0) opFence flight0 wFence ∧ (atStep wFence).outboundPending (galKey 0 0) = false ∧
    ((atStep wFence).gal (galKey 0 0)).passesDone = true ∧
    ({ atStep wFence with partials := [{ id := 0, src := 0, dst := 1, group := 0, pos := 0, vals := [], due := 0, hadPartials := false, outbound := true }] } : State).outboundPending (galKey 0 0) = true := by
  unfold Issues; decide +kernel
theorem witness_LoopStep : Issues (atStep wLoop) (galKey 0 0) opLoop flight0 wLoop ∧ flight0.loops[fld wLoop 121 120]? = some LoopLevel.reset ∧
    ({ active := true, remaining := 0, idx := 3 } : LoopLevel).remaining = 0 := by unfold Issues; decide +kernel
/-- R82: COUNT 3 (COUNT_M1 = 2): the first LOOP goes back one step with two runs behind it to come. -/
theorem test_loop_goes_back : (((after (.loop 0 0 false) (atStepOf wLoop { flight0 with pc := 0 } readyGal)).gal 0).flight.map (fun f => f.loops[0]?)) =
    some (some { active := true, remaining := 1, idx := 1 }) := by decide +kernel
/-- R83: the skip is taken when the route bit equals SENSE. -/
theorem test_branch_skips : ((after (.branchRoute 0 0 false) (atStep wBranch)).gal 0).flight.map Flight.pc = some 6 := by decide +kernel
theorem witness_LoopBody : (2 : Nat) ≤ 5 ∧ 0 < 2 ∧ (Sys2Proof.Claims.loopRuns 2 3).2 = [true, true, false] := by decide +kernel
theorem witness_PowerSteps :
    Issues (atStep (stepWd opWake 0)) (galKey 0 0) opWake flight0 (stepWd opWake 0) ∧
    Issues (atStep (stepWd opArmRef (2 ^ 121 + 3 * 2 ^ 118 + 20 * 2 ^ 91))) (galKey 0 0) opArmRef flight0 (stepWd opArmRef (2 ^ 121 + 3 * 2 ^ 118 + 20 * 2 ^ 91)) := by
  unfold Issues; decide +kernel
theorem witness_PowerStepArrives : let p : PowerStep := { target := 5, arm := true, due := 96 }
    p ∈ [p] ∧ ∀ q, q ∈ [p] → q = p ∨ p.due < q.due := by decide +kernel
/-- R73: a WAKE that reaches a DEEP gallery has it READY 400 ns later. -/
theorem test_wake_arrives :
    ((after .remotePowerStepArrival { State.reset with powerSteps := [{ target := 5, arm := false, due := 96 }] }).gal 5).wakeDue = some (96 + 4800) := by decide +kernel
theorem witness_PowerEvents :
    let g : Gallery := { Gallery.reset with wakeDue := some 7 }
    let r : Gallery := { readyGal with idleSince := some 9, refOn := some 3 }
    let l : Gallery := { Gallery.reset with power := .light, lightSince := some 4 }
    ((withGal g).gal (galKey 0 0)).wakeDue = some 7 ∧ ((withGal r).gal 0).refOn = some 3 ∧ ((withGal r).gal 0).idleSince = some 9 ∧
    ((withGal r).gal 0).power = .ready ∧ ((withGal r).gal 0).flight = none ∧ ((withGal r).gal 0).queue = [] ∧ ((withGal r).gal 0).newProfile = none ∧
    (withGal r).rfld (galReg 0 0x0C) 9 0 ≠ 0 ∧ ((withGal l).gal 0).lightSince = some 4 ∧ ((withGal l).gal 0).power = .light ∧
    ((withGal l).gal 0).wakeDue = none ∧ ((withGal l).gal 0).landingHolds = false ∧ (withGal l).rfld (galReg 0 0x0C) 25 16 ≠ 0 := by decide +kernel

theorem witness_WaitStep : Issues (atStep wait0) (galKey 0 0) opWait flight0 wait0 ∧ flight0.skipWait = 0 ∧
    bit wait0 93 = true ∧ bit (stepWd opWait (5 * 2 ^ 110)) 93 = false ∧
    (atStep wait0).waitLeft 0 (cntKey 0 5) < fld wait0 109 94 ∧ fld wait0 109 94 ≤ ((atStep wait0).setCounter (cntKey 0 5) 4).waitLeft 0 (cntKey 0 5) ∧
    Issues (atStep (stepWd opWait (5 * 2 ^ 110))) (galKey 0 0) opWait flight0 (stepWd opWait (5 * 2 ^ 110)) ∧
    Issues (atStepOf wait0 { flight0 with skipWait := 2 } readyGal) (galKey 0 0) opWait { flight0 with skipWait := 2 } wait0 := by unfold Issues; decide +kernel
/-- R85: a CONSUME WAIT takes VALUE off its counter. -/
theorem test_wait_consumes : (after (.wait 0 0 false) ((atStep wait0).setCounter (cntKey 0 5) 4)).counter (cntKey 0 5) = 1 := by decide +kernel
theorem witness_WaitTimeout : Issues (atStepOf wait0 { flight0 with waitSince := some 12 } readyGal) (galKey 0 0) opWait { flight0 with waitSince := some 12 } wait0 ∧
    fld wait0 92 77 ≠ 0 ∧ readyGal.queue = [] ∧ readyGal.newProfile = none ∧
    (atStepOf wait0 { flight0 with waitSince := some 12 } readyGal).counter (cntKey 0 5) < fld wait0 109 94 ∧
    fld wait0 109 94 ≤ ((atStepOf wait0 { flight0 with waitSince := some 12 } readyGal).setCounter (cntKey 0 5) 3).counter (cntKey 0 5) := by unfold Issues; decide +kernel
/-- R85: two galleries of one hall wait to consume 3 from a counter at 4: the second finds 1 left of it. -/
theorem test_wait_shares : let f := { flight0 with waitSince := some 0 }
    let s := ((atStepOf wait0 f readyGal).setGal 1 { readyGal with flight := some f }).setCounter (cntKey 0 5) 4
    s.waitLeft 0 (cntKey 0 5) = 4 ∧ s.waitLeft 1 (cntKey 0 5) = 1 := by decide +kernel
theorem witness_SignalStep : Issues (atStep wSignal) (galKey 0 0) opSignal flight0 wSignal ∧ flight0.skipOut = 0 ∧
    Issues (atStepOf wSignal { flight0 with skipOut := 1 } readyGal) (galKey 0 0) opSignal { flight0 with skipOut := 1 } wSignal := by unfold Issues; decide +kernel
/-- R84: the increment goes to counter 9 of the central store. -/
theorem test_signal_sends : (after (.signal 0 0 false) (atStep wSignal)).writes.map PendWrite.incs = [[{ key := 8 * 4096 + 9, amount := 1 }]] := by decide +kernel
/-- A registered range over the first 256 lines of the scratchpad of hall 0, until 9000. -/
def ranged (s : State) : State := { s with scoreboard := [(0, [{ addr := 0, len := 16384, until_ := 9000 }])] }
theorem witness_StageStep : let line := strided (fld wStage 116 94) (fld wStage 93 92) (fld wStage 91 76) flight0.loops
    Issues (owned (atStep wStage)) (galKey 0 0) opStage flight0 wStage ∧
    slotFreeAt ((owned (atStep wStage)).gal 0).evals 0 = some 0 ∧ line = 100 ∧
    (owned (atStep wStage)).galAllowed 0 false (hallBase 0 + 6400) (64 * parcelLines (stageFormat 0).width) = true ∧
    (owned (atStep wStage)).memOf (hallBase 0 + 6400) = some 0 ∧ (owned (atStep wStage)).liveRanges 0 6400 (64 * parcelLines (stageFormat 0).width) = [] ∧
    (ranged (owned (atStep wStage))).liveRanges 0 6400 (64 * parcelLines (stageFormat 0).width) ≠ [] ∧
    Issues (ranged (owned (atStep wStage))) (galKey 0 0) opStage flight0 wStage ∧
    (atStep wStage).galAllowed 0 false (hallBase 0 + 6400) (64 * parcelLines (stageFormat 0).width) = false := by unfold Issues; decide +kernel

def wEval : StepWord := stepWd opEval (2 ^ 89)
def wCarry : StepWord := stepWd opCarry (100 * 2 ^ 97)

theorem witness_EvalStep : let g := { readyGal with slots := [some seg0, none] }
    Issues (owned (atStepOf wEval flight0 g)) (galKey 0 0) opEval flight0 wEval ∧
    (∀ e, e ∈ ((owned (atStepOf wEval flight0 g)).gal 0).evals → e.carryDue = none) ∧ (owned (atStepOf wEval flight0 g)).poolMarked 0 (fld wEval 120 89) = false ∧
    ((owned (atStepOf wEval flight0 g)).gal 0).slots[fld wEval 121 121]? = some (some seg0) := by unfold Issues; decide +kernel
theorem witness_CarrySteps : let g := { readyGal with evals := [eval0], slots := [some seg0, none] }
    Issues (owned (atStepOf wCarry flight0 g)) (galKey 0 0) opCarry flight0 wCarry ∧ ((owned (atStepOf wCarry flight0 g)).gal 0).evals = [] ++ [eval0] ∧
    (∀ x, x ∈ [] ++ [eval0] → x.carryDue = none) ∧ eval0.slot = fld wCarry 121 121 ∧
    0 ≤ strided (fld wCarry 119 97) (fld wCarry 96 95) (fld wCarry 94 79) flight0.loops ∧
    (owned (atStepOf wCarry flight0 g)).memOf (hallBase 0 + 6400) = some 0 ∧
    (owned (atStepOf wCarry flight0 g)).galAllowed 0 false (hallBase 0 + 6400) (64 * parcelLines 4) = true := by unfold Issues; decide +kernel
theorem witness_CarryLoaded : let e : EvalRun := { eval0 with carryDue := some 5, carrySeg := some seg0 }
    ((withGal { readyGal with evals := [] ++ [e] }).gal (galKey 0 0)).evals = [] ++ [e] ∧ e.carryDue = some 5 ∧ e.carrySeg = some seg0 ∧ e.mask ≠ 0 := by decide +kernel

/-- A launch of the step at line 0, with completion line 8 and counter 3. -/
def launch0 : BitVec 256 := 0#256
theorem witness_FlightLaunch : let l : Launch := { bits := launch0, poster := .mp, work := .other, arrived := 0 }
    State.reset.mayPost .mp = true ∧ (withGal { readyGal with flight := some flight0 }).mayPost .mp = true ∧
    ((withGal { readyGal with flight := some flight0 }).gal 0).flight.isSome = true ∧ ((withGal { readyGal with flight := some flight0 }).gal 0).queue.length < queueDepth ∧
    (withGal { readyGal with flightSteps := 4 }).mayPost .mp = true ∧ readyGal.flight = none ∧ readyGal.queue = [] ∧ readyGal.suspect = false ∧
    readyGal.flightElsewhere l = false ∧ (withGal readyGal).testHolds (galKey 0 0) = false ∧ ({ readyGal with flightSteps := 4 } : Gallery).flightInside l = true ∧
    ({ Gallery.reset with flightSteps := 4 } : Gallery).power = .deep ∧ ({ Gallery.reset with flightSteps := 4 } : Gallery).flightInside l = true ∧
    readyGal.flightInside l = false ∧ readyGal.pairReset = none ∧
    (let s := withGal { readyGal with suspect := true }
     s.mayPost .sp = true ∧ s.onWidePath 0 { l with poster := .sp } = false ∧ (s.gal 0).suspect = true ∧ (s.gal 0).newProfile = none) ∧
    (withGal { readyGal with queue := [{ l with work := .decode }] }).mayPrefill 0 1 = false ∧ (withGal readyGal).mayPrefill 0 1 = true := by decide +kernel
theorem witness_HaltStep : let w := stepWd opHalt 0
    Issues (atStep w) (galKey 0 0) opHalt flight0 w ∧ (atStep w).outboundPending (galKey 0 0) = false ∧ ((atStep w).gal (galKey 0 0)).passesDone = true ∧ ((atStep w).gal (galKey 0 0)).checked = true ∧
    Issues (atStepOf w flight0 { readyGal with evals := [{ eval0 with carryDue := some 9 }] }) (galKey 0 0) opHalt flight0 w ∧
    ((atStepOf w flight0 { readyGal with evals := [{ eval0 with carryDue := some 9 }] }).gal (galKey 0 0)).passesDone = false := by unfold Issues; decide +kernel
/-- R76: the completion record follows HALT 60 ns later, on its way to the central store. -/
theorem test_halt_completes : (after (.halt 0 0 false) (atStep (stepWd opHalt 0))).writes.map (fun w => (w.due, w.parts.map Prod.fst)) = [(720, [0])] := by decide +kernel
theorem witness_RerunSteps : let a : State := withGal { readyGal with flight := some flight0, pairReset := some 8 }
    let f : Flight := { flight0 with rerunAt := some 5 }
    (let b : State := withGal { readyGal with pairReset := some 8 }
     (b.gal (galKey 0 0)).flight = none ∧ (b.gal (galKey 0 0)).queue = [] ∧ (b.gal (galKey 0 0)).newProfile = none ∧ (b.gal (galKey 0 0)).pairReset = some 8) ∧
    (a.gal (galKey 0 0)).flight = some flight0 ∧ (a.gal (galKey 0 0)).pairReset = some 8 ∧ ((withGal { readyGal with flight := some f }).gal (galKey 0 0)).flight = some f ∧
    f.rerunAt = some 5 := by decide +kernel
theorem witness_ComparatorDifference : (Instr.signal 0 0 true, opSignal) ∈ [(Instr.stage 0 0 true, opStage), (.eval 0 0 true, opEval), (.carry 0 0 true, opCarry),
      (.land 0 0 true, opLand), (.close 0 0 true, opClose), (.chain 0 0 true, opChain), (.signal 0 0 true, opSignal)] ∧
    Issues (atStep wSignal) (galKey 0 0) opSignal flight0 wSignal ∧ flight0.rerun = false ∧ (atStep wSignal).partialsSpent (galKey 0 0) = false ∧
    (let f := { flight0 with rerun := true }
     Issues (atStepOf (stepWd opHalt 0) f readyGal) (galKey 0 0) opHalt f (stepWd opHalt 0) ∧ f.rerun = true ∧ readyGal.suspect = false ∧ readyGal.queue = [] ∧
     readyGal.newProfile = none) := by
  unfold Issues; decide +kernel
theorem witness_BudgetPeriod : ({ State.reset with tbStart := some 0 } : State).tbStart = some 0 ∧ 0 ≤ State.reset.now ∧ ({ State.reset with tbStart := some 0 } : State).Inv := by
  unfold State.Inv; decide +kernel

/-! ### Passes, landings and chains -/

def pass0 : Pass := { high := true, cls := .c0, carry := false, rows := [(0, 7)], opened := none, readyAt := 0, done := false, codes := [] }
def evalP (p : Pass) : EvalRun := { eval0 with passes := [p] }
def wLand : StepWord := stepWd opLand (3 * 2 ^ 104)
def wClose : StepWord := stepWd opClose (8 * 2 ^ 111 + 100 * 2 ^ 86)
def wChain : StepWord := stepWd opChain (7 * 2 ^ 103 + 2 ^ 96)
def grp0 : Group := { tile := 0, base := 0, vals := [0#32, 0#32], added := 0 }

theorem witness_PassOpens : let a : State := withGal { readyGal with evals := [evalP pass0] }
    let b : State := withGal { readyGal with evals := [evalP pass0], refOn := some 3 }
    nextPass (a.gal (galKey 0 0)).evals = some (evalP pass0, 0) ∧ (evalP pass0).passes[0]? = some pass0 ∧ (a.gal (galKey 0 0)).refOn = none ∧
    nextPass (b.gal (galKey 0 0)).evals = some (evalP pass0, 0) ∧ (b.gal (galKey 0 0)).refOn = some 3 := by decide +kernel
/-- R60: the first pass of a run, its buffer warm since instant 0: the window opens at 2 µs, the sweep ends 16 ns + 52 ns later. -/
theorem test_pass_timing : let s := after (.passWindowOpen 0 0) (withGal { readyGal with evals := [evalP pass0], refOn := some 0 })
    s.now = 24000 ∧ (s.gal 0).evals.map (fun e => e.passes.map Pass.readyAt) = [[24000 + 12 * 68]] := by decide +kernel
theorem witness_PassCodes : let p : Pass := { pass0 with opened := some 0, readyAt := 816 }
    let q : Pass := { p with high := false }
    let a : State := withGal { readyGal with evals := [evalP p] }
    let b : State := (withGal { readyGal with evals := [{ evalP q with budgetCode := 3 }] }).setArr (arrKey 0 0) { ArrayState.reset with record := some rec0 }
    convertingPass (a.gal (galKey 0 0)).evals = some (evalP p, 0) ∧ (evalP p).passes[0]? = some p ∧ a.isSample (galKey 0 0) (evalP p) { p with done := true } = false ∧
    convertingPass (b.gal (galKey 0 0)).evals = some ({ evalP q with budgetCode := 3 }, 0) ∧
    b.isSample (galKey 0 0) { evalP q with budgetCode := 3 } { q with done := true } = true ∧ (b.arr (arrKey (galKey 0 0) (b.gal (galKey 0 0)).survey.focusArray)).record.isSome = true := by
  decide +kernel
def doneEval : EvalRun := { eval0 with residDone := true }
theorem witness_EvalResults : let a : State := withGal { readyGal with evals := [eval0] }
    let b : State := withGal { readyGal with evals := [doneEval] }
    (a.gal (galKey 0 0)).evals.find? (fun e => !e.residDone) = some eval0 ∧ (b.gal (galKey 0 0)).evals.find? EvalRun.complete = some doneEval ∧
    b.carryNext (galKey 0 0) doneEval = false ∧ (Sys2Proof.Claims.checks b (galKey 0 0) doneEval).fails = [] := by decide +kernel
theorem witness_LandStep : let g : Gallery := { readyGal with evals := [{ eval0 with done := true }] }
    let n : Gallery := { readyGal with evals := [eval0] }
    let mine := fun (x : Gallery) => x.evals.filter (fun e => e.mask.testBit (fld wLand 103 99) && !(e.landed.testBit (fld wLand 103 99)))
    Issues (atStepOf wLand flight0 g) (galKey 0 0) opLand flight0 wLand ∧ (∀ e, e ∈ mine g → e.done = true) ∧ mine g ≠ [] ∧
    Issues (atStepOf wLand flight0 n) (galKey 0 0) opLand flight0 wLand ∧ (∃ e, e ∈ mine n ∧ e.done = false) := by unfold Issues; decide +kernel
theorem witness_CloseStep : let g : Gallery := { readyGal with groups := [(0, grp0)] }
    let s := owned (atStepOf wClose flight0 g)
    Issues s (galKey 0 0) opClose flight0 wClose ∧ Tab.find (s.gal (galKey 0 0)).groups 0 = some grp0 ∧ flight0.skipOut = 0 ∧
    0 ≤ strided (fld wClose 110 86) (fld wClose 66 65) (fld wClose 64 49) flight0.loops ∧
    s.galAllowed 0 true (memBase 8 + 6400) (groupExtent (fld wClose 84 82) (fld wClose 81 79) grp0.vals.length) = true ∧ fld wClose 118 115 ≤ grp0.added ∧
    s.memOf (memBase 8 + 6400) = some 8 ∧ (atStepOf wClose flight0 g).galAllowed 0 true (memBase 8 + 6400) (groupExtent (fld wClose 84 82) (fld wClose 81 79) grp0.vals.length) = false ∧
    grp0.added < fld (stepWd opClose (2 ^ 115 + 8 * 2 ^ 111 + 100 * 2 ^ 86)) 118 115 ∧
    Issues (owned (atStepOf wClose { flight0 with skipOut := 2 } g)) (galKey 0 0) opClose { flight0 with skipOut := 2 } wClose := by unfold Issues; decide +kernel
/-- A CLOSE into its own hall that overlaps a registered range. -/
theorem witness_CloseStep_range : let w := stepWd opClose (100 * 2 ^ 86)
    let s := ranged (owned (atStepOf w flight0 { readyGal with groups := [(0, grp0)] }))
    Issues s (galKey 0 0) opClose flight0 w ∧ fld w 114 111 = 0 ∧ s.memOf (hallBase 0 + 6400) = some 0 ∧
    s.galAllowed 0 true (hallBase 0 + 6400) (groupExtent (fld w 84 82) (fld w 81 79) grp0.vals.length) = true ∧
    s.liveRanges 0 6400 (groupExtent (fld w 84 82) (fld w 81 79) grp0.vals.length) ≠ [] := by unfold Issues; decide +kernel
theorem witness_CloseWaits : let w := stepWd opClose (2 ^ 115 + 8 * 2 ^ 111 + 100 * 2 ^ 86)
    let s := owned (atStepOf w flight0 { readyGal with groups := [(0, grp0)] })
    Issues s (galKey 0 0) opClose flight0 w ∧ grp0.added < fld w 118 115 ∧ (∀ p, p ∈ (s.gal (galKey 0 0)).inbox → ¬ (p.group = 0 ∧ p.pos = grp0.added + 1)) ∧
    s.galAllowed 0 true (memBase 8 + 6400) (groupExtent (fld w 84 82) (fld w 81 79) grp0.vals.length) = true := by unfold Issues; decide +kernel
theorem witness_ChainStep : let g : Gallery := { readyGal with groups := [(0, grp0)] }
    let w := stepWd opChain (2 ^ 115 + 7 * 2 ^ 103 + 2 ^ 96)
    Issues (atStepOf wChain flight0 g) (galKey 0 0) opChain flight0 wChain ∧ Tab.find ((atStepOf wChain flight0 g).gal (galKey 0 0)).groups 0 = some grp0 ∧
    fld wChain 118 115 ≤ grp0.added ∧ flight0.skipOut = 0 ∧ Issues (atStepOf w flight0 g) (galKey 0 0) opChain flight0 w ∧ grp0.added < fld w 118 115 ∧
    Issues (atStepOf wChain { flight0 with skipOut := 1 } g) (galKey 0 0) opChain { flight0 with skipOut := 1 } wChain := by unfold Issues; decide +kernel
def partial0 : Partial := { id := 0, src := 7, dst := 0, group := 0, pos := 1, vals := [0#32, 0#32], due := 50, hadPartials := false, outbound := true }
theorem witness_PartialArrival : let s : State := { withGal readyGal with partials := [partial0] }
    let full : State := { withGal { readyGal with inbox := [partial0] } with partials := [partial0] }
    partial0.outbound = true ∧ partial0 ∈ s.partials ∧ partial0.dst = galKey 0 0 ∧ partial0.src ≠ galKey 0 0 ∧ (∀ q, q ∈ s.partials → q.dst = galKey 0 0 → q = partial0) ∧
    (s.gal (galKey 0 0)).accepts partial0 = true ∧ (s.gal (galKey 0 0)).closing = none ∧ (full.gal (galKey 0 0)).accepts partial0 = false ∧
    ((withGal { readyGal with drainEnd := [9, 0] }).gal (galKey 0 0)).drainEnd.getD 0 0 = 9 := by decide +kernel
/-- R91: two outputs take the least time within a hall, 24 ns. -/
theorem test_chain_due : (after (.chain 0 0 false) (atStepOf wChain flight0 { readyGal with groups := [(0, grp0)] })).partials.map (fun p => (p.dst, p.due)) =
    [(7, 288)] := by decide +kernel

/-- An EVAL whose first column reads far from what its driven inputs, all zero, predict. -/
def badEval : EvalRun := { eval0 with
  residDone := true, f := 9, coefs := [(0, [0xFF#8, 0#8])]
  passes := [{ pass0 with opened := some 0, readyAt := 816, done := true, codes := [(0, [100, 0, 0])] }] }

theorem isum_zeros (n : Nat) (x : Nat → Int) : isum (tabulate n (fun r => x r * 0)) = 0 := by
  simp only [Int.mul_zero]
  unfold tabulate
  induction List.range n with
  | nil => rfl
  | cons a as ih => simp only [List.map_cons, isum, ih, Int.add_zero]

theorem fails_join (l : List CheckResult) (a : CheckResult) (h : a.fails ≠ []) : (l.foldl CheckResult.join a).fails ≠ [] := by
  induction l generalizing a with
  | nil => exact h
  | cons b l ih => exact ih _ (by simp [CheckResult.join, h])

theorem map_getD (l : List Int) (n : Nat) (h : n ≤ l.length) : (tabulate n (fun j => 512 * 0 + j)).map (fun c => l.getD c 0) = l.take n := by
  apply List.ext_getElem
  · simp [tabulate, h]
  · intro i h1 h2
    simp only [tabulate, List.map_map, List.getElem_map, List.getElem_range, Function.comp, List.getElem_take, Nat.mul_zero, Nat.zero_add]
    have : i < l.length := by simp only [List.length_take] at h2; omega
    simp [List.getD_eq_getElem?_getD, this]

theorem badEval_sum : isum ((stage5 badEval 0).2.take 512) = 1600 := by decide +kernel
theorem badEval_ref : (stage5 badEval 0).2.getD 1100 0 = 0 := by decide +kernel
theorem badEval_len : (stage5 badEval 0).2.length = 1104 := by decide +kernel

theorem badEval_fails (x : Nat → Int) : (checkHalf badEval.passes 0 0 9 0 0 [] [] (stage5 badEval 0).2 x).fails ≠ [] := by
  have e : repairOf ([] : List (Nat × Nat)) = fun _ => none := by funext c; rfl
  have hn : ∀ l : List Nat, l.filterMap (fun _ => (none : Option Nat)) = [] := by intro l; induction l <;> simp_all
  have hc : (badEval.passes.any (fun p => (tabulate 512 (fun j => 512 * 0 + j) ++ [1100 + 0]).any (fun c => clipped ((passCodes p 0).getD c 0)))) = false := by
    decide +kernel
  have hs := map_getD (stage5 badEval 0).2 512 (by rw [badEval_len]; decide)
  have h1 := badEval_sum
  have h2 := badEval_ref
  generalize (stage5 badEval 0).2 = l at *
  unfold checkHalf
  simp only [e, hn, List.append_nil, hc, Option.getD_none, Bool.false_eq_true, if_false, List.getD_nil, if_true, isum_zeros, hs, h1, h2]
  decide +kernel

theorem forward_fails (ps : List Pass) (a f tol gc : Nat) (sp : List (Nat × Nat)) (rho : List (Int × Int)) (l : List Int) (x : Nat → Int)
    (h : (checkHalf ps a 0 f tol gc sp rho l x).fails ≠ []) : (checksForward ps a f tol gc sp rho l x).fails ≠ [] := by
  unfold checksForward
  simp only [List.cons_append, List.nil_append, List.foldl_cons]
  apply fails_join
  simp [CheckResult.join, h]

theorem evalChecks_fails (e : EvalRun) (a gc : Nat) (rho : List (Int × Int)) (cs : List Int) (hp : (e.poison || e.passes.isEmpty) = false)
    (ht : e.transpose = false) (h : ∀ x, (checkHalf e.passes a 0 e.f e.chkTol gc ((lookupArr e.spares a).getD []) rho (stage5 e a).2 x).fails ≠ []) :
    (evalChecks e a gc rho cs).fails ≠ [] := by
  unfold evalChecks
  simp only [hp, ht, Bool.false_eq_true, if_false]
  exact forward_fails _ _ _ _ _ _ _ _ _ (h _)

theorem checks_fails (s : State) (k : Nat) (e : EvalRun) (hm : maskArrays e.mask = [0]) (hr : (s.arr (arrKey k 0)).record = none)
    (h : (evalChecks e 0 0 [] []).fails ≠ []) : (Sys2Proof.Claims.checks s k e).fails ≠ [] := by
  unfold Sys2Proof.Claims.checks
  simp only [hm, List.map_cons, List.map_nil, List.foldl_cons, List.foldl_nil, hr, Option.map_none, Option.getD_none]
  simpa [CheckResult.join] using h

theorem witness_EvalMismatch : let s : State := withGal { readyGal with evals := [badEval], flight := some flight0 }
    (s.gal (galKey 0 0)).evals.find? EvalRun.complete = some badEval ∧ s.carryNext (galKey 0 0) badEval = false ∧
    (Sys2Proof.Claims.checks s (galKey 0 0) badEval).fails ≠ [] ∧ (s.gal (galKey 0 0)).flight = some flight0 ∧ flight0.rerun = false ∧
    s.partialsSpent (galKey 0 0) = false ∧ (s.gal (galKey 0 0)).mismatches.length < 2 :=
  ⟨by decide +kernel, by decide +kernel,
    checks_fails _ _ _ (by decide +kernel) (by decide +kernel) (evalChecks_fails badEval 0 0 [] [] rfl rfl (fun x => badEval_fails x)),
    by decide +kernel, by decide +kernel, by decide +kernel, by decide +kernel⟩

/-! ### Background activities, diagnosis, the test engine -/

/-- Gallery 0 owned by context 0, with array 0 as given. -/
def bgState (g : Gallery) (a : ArrayState) : State := ((withGal g).setReg (galReg 0 0xC0) 0x40#32).setArr 0 a
def bgGal : Gallery := { readyGal with refOn := some 0, survey := { Survey.reset with initialDone := true } }
def recArr : ArrayState := { ArrayState.reset with record := some rec0 }

theorem witness_SurveySteps : let s := bgState bgGal recArr
    let spent := bgState { bgGal with used := [20000, 0, 0, 0] } recArr
    s.maySurvey (galKey 0 0) = true ∧ s.mayTouchup (galKey 0 0) = false ∧ s.budgetLeft (galKey 0 0) 0 = true ∧ (s.nextUnit (galKey 0 0)).isSome = true ∧
    (s.gal (galKey 0 0)).refOn = some 0 ∧ spent.maySurvey (galKey 0 0) = true ∧ spent.mayTouchup (galKey 0 0) = false ∧ spent.budgetLeft (galKey 0 0) 0 = false ∧
    spent.bgLimit (galKey 0 0) 0 ≠ 0 ∧ State.reset.maySurvey (galKey 0 0) = false ∧ (s.owner (galKey 0 0)).isSome = true ∧
    (s.gal (galKey 0 0)).survey.initialDone = true ∧ (s.gal (galKey 0 0)).survey.ready = false := by decide +kernel
theorem witness_MaxAge : let s := bgState bgGal { recArr with ageEq := 86400 * 20 }
    (s.arr (arrKey (galKey 0 0) 0)).record.isSome = true ∧ s.maxAge (galKey 0 0) ≤ (s.arr (arrKey (galKey 0 0) 0)).ageEq ∧ (s.arr (arrKey (galKey 0 0) 0)).due = false ∧
    ((bgState bgGal recArr).arr (arrKey (galKey 0 0) 0)).ageEq < (bgState bgGal recArr).maxAge (galKey 0 0) := by decide +kernel
theorem witness_InitialSurvey : let s := (bgState { bgGal with survey := Survey.reset } { recArr with record := some { rec0 with codes := [[1]] } }).setRfld 0x10000 2 0 3
    s.pkg = 3 ∧
    (s.owner (galKey 0 0)).isSome = true ∧ s.recArrays (galKey 0 0) = [0] ∧ (s.gal (galKey 0 0)).survey.initialDone = false ∧ (s.gal (galKey 0 0)).suspect = false ∧
    (s.arr (arrKey (galKey 0 0) 0)).job = none := by decide +kernel
theorem witness_Scrub : let s := { bgState { bgGal with survey := Survey.reset } recArr with now := 24000 }
    let spent := { bgState { bgGal with survey := Survey.reset, used := [0, 90000, 0, 0] } recArr with now := 24000 }
    s.mayScrub (galKey 0 0) = true ∧ s.mayTouchup (galKey 0 0) = false ∧ s.maySurvey (galKey 0 0) = false ∧ s.budgetLeft (galKey 0 0) 1 = true ∧
    s.scrubArray (galKey 0 0) = some 0 ∧ s.scrubTarget (galKey 0 0) = 0 ∧ spent.mayScrub (galKey 0 0) = true ∧ spent.budgetLeft (galKey 0 0) 1 = false ∧ spent.bgLimit (galKey 0 0) 1 ≠ 0 := by decide +kernel
/-- A state in which a due array may be touched up: RUN, VPROG good, hall 0 at 25 °C with its window open. -/
def touching (row : Nat) : State :=
  let s := bgState bgGal { recArr with due := true, job := some { mode := 2, row := row, sweep := [], readyAt := 0 } }
  { (((s.setRfld 0x10000 2 0 3).setReg 0x10008 0x8181#32).setReg 0xA5000 8#32).setReg 0x40100 100#32 with windowOpen := List.replicate 8 true }
def touchState : State := touching 1023
theorem witness_Touchup_last : ((touching 1024).testWindow 0) = touching 1024 ∧ (touching 1024).touchupLast (galKey 0 0) = some (0, 0) := by decide +kernel
theorem witness_Touchup : touchState.testWindow 0 = touchState ∧ touchState.touchupLast (galKey 0 0) = none ∧ touchState.touchupArray (galKey 0 0) = some 0 ∧ touchState.mayTouchup (galKey 0 0) = true ∧
    ((touchState.arr (arrKey (galKey 0 0) 0)).record) = some rec0 ∧
    (touchState.arr (arrKey (galKey 0 0) 0)).job = some { mode := 2, row := 1023, sweep := [], readyAt := 0 } := by decide +kernel
theorem witness_Scan : let s := (bgState { bgGal with survey := Survey.reset, used := [20000, 90000, 0, 0] } recArr).setRbit 0xA0000 0 true
    s.mayScan (galKey 0 0) = true ∧ s.budgetLeft (galKey 0 0) 3 = true ∧ State.reset.mayScan (galKey 0 0) = false ∧ s.quiet (galKey 0 0 / 512) = false ∧
    (s.gal (galKey 0 0)).retired = false ∧ bit (s.reg (galReg (galKey 0 0) 0xD0)) 17 = false := by decide +kernel
theorem witness_Diagnosis : let s := withGal { readyGal with suspect := true, suspectTimes := [5] }
    let d : State := { s with diags := [0] }
    (s.gal (galKey 0 0)).suspect = true ∧ (s.gal (galKey 0 0)).retired = false ∧ (s.gal (galKey 0 0)).flight = none ∧ s.testOn (galKey 0 0) = false ∧
    galKey 0 0 ∉ s.diags ∧ s.stopped = false ∧ galKey 0 0 ∈ d.diags ∧ d.owner (galKey 0 0) = none ∧ (d.arr (arrKey (galKey 0 0) 31)).record = none ∧
    (d.gal (galKey 0 0)).suspects < 3 ∧
    (let n := withGal readyGal
     (n.gal (galKey 0 0)).suspect = false ∧ (n.gal (galKey 0 0)).flight = none ∧ (n.gal (galKey 0 0)).queue = [] ∧ (n.gal (galKey 0 0)).newProfile = none ∧
     (n.gal (galKey 0 0)).retired = false ∧ n.testOn (galKey 0 0) = false ∧ n.stopped = false) ∧ Nat.testBit (2 ^ 31) 31 = true := by decide +kernel
/-- R184: the management function retires array 31. -/
theorem test_retire_array : wearState ((after (.diagnostic 0 0 false (2 ^ 31)) ((withGal readyGal).setArr 31 { ArrayState.reset with wear := some 0#128 })).wear 31) = 2 := by decide +kernel
/-- Package in RUN, management processor 1 active and no standby, or processor 0 with a standby. -/
def runState (flt : Word) : State := (State.reset.setRfld 0x10000 2 0 3).setReg 0xA0000 flt
theorem witness_Processors : let a := { runState 2#32 with power := { State.reset.power with phase := .rest } }
    let b := { runState 4#32 with power := { State.reset.power with phase := .rest } }
    bit (((runState 0#32).setReg 0xA0004 0x80000001#32).reg 0xA0004) 31 = true ∧ a.pkg = 3 ∧ a.power.phase = .rest ∧ bit (a.reg 0xA0000) 2 = false ∧
    b.pkg = 3 ∧ bit (b.reg 0xA0000) 2 = true := by decide +kernel
theorem witness_StepReplays : let d := State.reset.setStream 9 { Stream.reset with state := .decode }
    let p := State.reset.setStream 9 { Stream.reset with state := .prefill }
    (d.stream 9).state = .decode ∧ d.jobsOf 9 = false ∧ (d.stream 9).kvDir = 0 ∧ (p.stream 9).state = .prefill ∧ p.jobsOf 9 = false ∧
    State.reset.jobsOf 9 = false ∧ (State.reset.stream 9).state ≠ .decode ∧ (State.reset.stream 9).state ≠ .prefill := by decide +kernel
/-- R422: the count of replays stops at 65,535. -/
theorem test_replay_saturates : ((after (.stepReplay 9 0 0) (State.reset.setStream 9
    { Stream.reset with state := .decode, work := { StreamWork.reset with replays := 65535 } })).stream 9).work.replays = 65535 := by decide +kernel
theorem witness_TestEngine : let m := 2 * State.reset.mgmtPort + 1
    let busy : State := { State.reset with test := some { test := 7, target := 0, addr := 0, len := 0, startAt := 0 } }
    State.reset.isMgmt 0 = false ∧ State.reset.isMgmt m = true ∧ busy.isMgmt m = true ∧ busy.test.isSome = true ∧ State.reset.test = none ∧
    State.reset.testRefused 7 = false ∧ (State.reset.setReg 0xC0004 11#32).testRefused 7 = true ∧ State.reset.testRefused 3 = false ∧
    State.reset.testRefused 4 = false ∧ State.reset.testRefused 5 = false ∧ State.reset.testRefused 6 = true ∧ State.reset.testRefused 1 = false ∧
    State.reset.testRefused 2 = true ∧ (State.reset.setReg 0xC0004 9#32).testRefused 2 = false ∧ (State.reset.setReg 0xC0004 9#32).testRefused 1 = true := by decide +kernel

/-! ### Power -/

/-- In wake-up step `st`, attempt `n`. -/
def trying (st n : Nat) (s : State) : State := (s.setRfld 0x10000 5 3 st).setRfld 0x10000 7 6 n

theorem witness_firstRail : Sys2Proof.Claims.firstRail 0 1 (atPhase 5 .rest) ∧ Sys2Proof.Claims.firstRail 3 4 (atPhase 2 (.settle 3)) :=
  ⟨⟨by decide, by decide, by decide +kernel, under 0 1 (by decide)⟩, ⟨by decide, by decide, by decide +kernel, under 3 4 (by decide)⟩⟩
theorem witness_PowerUpSteps : (atPhase 0 .off).power.phase = .off ∧ State.reset.power.phase = .aonOn ∧ State.reset.mainOk = false ∧
    ({ State.reset with power := Power.reset }.setRfld 0x10000 8 8 1).mainOk = true ∧
    (let s := atPhase 5 .rest; s.power.phase = .rest ∧ s.power.hold = false ∧ s.power.latch = false ∧ bit (s.reg 0x14) 2 = false ∧ s.pkg = 5 ∧ s.mainOk = false) ∧
    (let s := atPhase 1 .rest; s.power.phase = .rest ∧ s.mainOk = false ∧ s.pkg = 1) ∧
    (let s := atPhase 3 .rest; s.power.phase ≠ .off ∧ s.mainOk = false ∧ s.pkg ≠ 1 ∧ s.pkg ≠ 5) := by decide +kernel
theorem witness_RegulatorSteps : (let s := (atPhase 2 (.rail 1)).setReg 0x10008 2#32; s.railEn 1 = true ∧ s.railPg 1 = false) ∧
    (atPhase 2 (.settle 3)).power.phase = .settle 3 ∧ (railsOn (atPhase 2 (.settle 6))).power.phase = .settle 6 ∧
    (let s := (trying 1 2 (atPhase 2 (.rail 1))); s.power.phase = .rail 1 ∧ s.wakeStep = 1 ∧ s.attempt < 3) ∧
    (trying 1 3 (atPhase 2 (.rail 6))).attempt = 3 ∧
    (let s := (trying 1 2 (atPhase 2 (.retry 1 6))); s.power.phase = .retry 1 6 ∧ s.attempt < 3) ∧
    (atPhase 2 (.retry 2 0)).power.phase = .retry 2 0 ∧ (atPhase 2 (.retry 2 0)).attempt < 3 := by decide +kernel
theorem witness_railsAllOn : ∀ x, 0 < x → x ≤ 6 → (railsOn (atPhase 2 (.settle 6))).railEn x = true ∧ (railsOn (atPhase 2 (.settle 6))).railPg x = true :=
  between 0 6 (by decide +kernel)
theorem witness_RailsGoDown : (let s := railsOn (atPhase 3 .rest); s.railPg 6 = true ∧ s.pkg = 3 ∧ s.power.phase = .rest) ∧
    (let s := railsOn (atPhase 4 (.down 7 4)); s.power.phase = .down 7 4 ∧ s.railEn 6 = true ∧ ∀ x, x < 8 → 6 < x → s.railEn x = false) ∧
    (∀ st, st ∈ [1, 4, 5] → (atPhase 2 (.down 1 st)).power.phase = .down 1 st) ∧ (atPhase 2 (.down 1 1)).mainOk = false ∧
    (∀ x, x < 8 → 0 < x → (atPhase 2 (.down 1 1)).railEn x = false) := by decide +kernel
/-- Findings of BIST with which the package starts. -/
def bistGood : Bist := { Bist.none with core := true, borders := [0], hbmStacks := [7], sps := 3#32, mps := [0] }
theorem witness_WakeStepsToReady : (let s := (trying 2 2 (atPhase 2 .osc))
      s.power.phase = .osc ∧ s.xtalOk = false ∧ s.wakeStep = 2 ∧ s.attempt < 3) ∧
    ((atPhase 2 .osc).setRfld 0x20000 31 31 1).power.phase = .osc ∧ (after .crystalRuns (atPhase 2 .osc)).xtalOk = true ∧
    (Nat.testBit 5 1 = false ∧ ∀ j, j < 1 → Nat.testBit 5 j = true) ∧ (trying 1 3 (atPhase 2 .osc)).attempt = 3 ∧
    (atPhase 2 .bist).bistFails Bist.none = some 0x3100 ∧ (let s := (trying 3 2 (atPhase 2 .bist)); s.wakeStep = 3 ∧ s.attempt < 3) ∧
    (atPhase 2 .baseline).power.phase = .baseline := by decide +kernel
theorem witness_bistGood : (atPhase 2 .bist).bistFails bistGood = none := by decide +kernel
theorem witness_HandoverSteps : (let s := (railsOn (atPhase 3 .rest)).setRfld 0x10000 8 8 1
      s.mainOk = true ∧ s.isMgmt 1 = true ∧ s.isMgmt 0 = false ∧ s.Inv ∧ s.pkg = 3 ∧ s.power.phase = .rest) ∧
    (let s := (railsOn (atPhase 2 .osc)).setRfld 0x10000 8 8 1; s.mainOk = true ∧ s.pkg = 2 ∧ s.stopped = false ∧ s.railEn 6 = true ∧ ∀ x, x < 8 → 6 < x → s.railEn x = false) ∧
    (let s := atPhase 4 .handover; s.Inv ∧ s.power.phase = .handover ∧ s.power.railLost = false ∧ s.openStreams.length < 2 ^ 17) ∧
    (let s := { atPhase 4 .holdWait with power := { Power.reset with phase := .holdWait, mainSince := some 5 } }
     s.power.phase = .holdWait ∧ s.power.mainSince = some 5 ∧ s.power.hold = false ∧ s.power.latch = false ∧ bit (s.reg 0x14) 2 = false) := by
  unfold State.Inv; decide +kernel
theorem witness_SidebandReads : State.reset.power.phase ≠ .off ∧ (atPhase 0 .off).power.phase = .off := by decide +kernel
/-- One live context of profile ECONOMY (R275). -/
def economic : State := { (atPhase 3 .rest).setRfld 0xA6100 1 0 3 with contexts := [(0, ({ Context.reset with live := true } : Context))] }
theorem witness_SupplyAndClockSteps : State.reset.tbStart = none ∧ economic.pkg = 3 ∧ economic.economy = true ∧ economic.coreSlow = false ∧
    State.reset.economy = State.reset.coreSlow ∧ ({ State.reset with tbStart := some 0 } : State).tbStart.isSome = true ∧
    (let s := { State.reset.setReg 0x10008 0x80#32 with vprogAt := some 7, vprogOff := some 9 }
     s.Inv ∧ s.vprogAt = some 7 ∧ s.railEn 7 = true ∧ s.railPg 7 = false ∧ s.vprogOff = some 9) ∧ State.reset.Inv ∧
    (∀ i, 131072 ≤ i → (State.reset.arr i).wear = none) := by
  refine ⟨by decide +kernel, by decide +kernel, by decide +kernel, by decide +kernel, by decide +kernel, by decide +kernel, by unfold State.Inv; decide +kernel,
    by unfold State.Inv; decide +kernel, fun i _ => rfl⟩
/-- R365: a rail that is good settles for 100 µs; then rail 4 follows rail 3. -/
theorem test_settle : let s := after .railSettleDelay ((atPhase 2 (.settle 3)).setReg 0x10008 0x0E0E#32)
    s.now = 1200000 ∧ s.railEn 4 = true ∧ s.railEn 5 = false ∧ s.power.phase = .rail 4 := by decide +kernel
/-- R365, R375: rail 3 has no power-good after 25 ms; it is off, and retried 10 ms later. -/
theorem test_rail_retry : let s := after .railPgTimeout (trying 1 0 ((atPhase 2 (.rail 3)).setReg 0x10008 0x060E#32))
    s.now = 300000000 ∧ s.railEn 3 = false ∧ s.railEn 2 = true ∧ (after .wakeRetryDelay s).now = 420000000 ∧ (after .wakeRetryDelay s).railEn 3 = true := by
  decide +kernel

/-! ### Telemetry -/

/-- In RUN, rails 1 to 6 on and good, one request `q` on converter (8, 0), its buffer on since 0. -/
def metering (q : ConvReq) : State :=
  (railsOn (atPhase 3 .rest)).setTmon 8 0 { Tmon.reset with refOn := some 0, queue := [q], due := 5, last := some (q.ch, 0), settled := 2 }
theorem witness_ConverterRequests : let s := metering { ch := 1, gain := 0, urgent := false }
    let u := s.setRbit (tmonReg 8 0 0x30) 7 true
    converterOk 8 0 = true ∧ s.mayTmon none = true ∧ s.mayTmon (some 1) = true ∧ s.mayTmon (some 0) = false ∧ s.diePowered 8 = true ∧
    (∀ x, x ∈ (s.tmon 8 0).queue → x.urgent = false) ∧ (s.tmon 8 0).queue ≠ [] ∧ (s.tmon 8 1).queue = [] ∧ s.isMgmt 1 = true ∧
    (s.tmon 8 0).refOn = some 0 ∧ bit (u.reg (tmonReg 8 0 0x30)) 7 = true ∧ bit (u.reg (tmonReg 8 1 0x30)) 7 = false := by decide +kernel
theorem witness_ConversionResult : let q : ConvReq := { ch := 8, gain := 0, urgent := false }
    let s := (metering q).setReg (tmonReg 8 0 0) 3#32
    (s.tmon 8 0).queue = q :: [] ∧ s.diePowered 8 = true ∧ (s.tmon 8 0).cal = none ∧ chanPresent 8 q.ch = true ∧ bit (s.reg (tmonReg 8 0 0)) 1 = true ∧
    converterOk 8 0 = true ∧ s.testTmon 8 0 = false ∧ s.autoranged 8 0 q.ch = false ∧ (s.tmon 8 0).last = some (q.ch, 0) ∧ 2 ≤ (s.tmon 8 0).settled ∧ bit (s.reg (tmonReg 8 0 0)) 2 = false := by
  decide +kernel
/-- A calibration `op` at gain index 0 in progress on converter (8, 1). -/
def calibrating (op : Nat) (raws : List Int) : State :=
  (atPhase 3 .rest).setTmon 8 1 { Tmon.reset with cal := some (op, 0), raws := raws }
theorem witness_CalibrationCommands : let s := atPhase 3 .rest
    s.isMgmt 1 = true ∧ s.isMgmt 0 = false ∧ s.diePowered 8 = true ∧ (s.tmon 8 1).cal = none ∧
    (∀ op, op ∈ [1, 2, 3] → ((calibrating op [1920]).tmon 8 1).cal = some (op, 0)) ∧ ((calibrating 1 []).tmon 8 1).cal.isSome = true ∧
    calGain (calMean [1920, 1920]) 0 = some 16384 ∧ calGain (calMean [1]) 0 = some 31457280 ∧ calGain (calMean [-5]) 0 = none := by decide +kernel
theorem witness_ScansAndCrosschecks : let s := atPhase 3 .rest
    let t : Thermal := { Thermal.reset with recheck := [8], tIn := some 0#32 }
    let r : State := { s with thermal := t }
    s.power.phase ≠ .off ∧ s.power.phase ≠ .aonOn ∧ s.diePowered 0 = false ∧ r.thermal.recheck ≠ [] ∧ r.thermal.recheck.Nodup ∧
    (let codes : List (Nat × Nat × List Int) := [(8, 0, [1, 2, 3]), (8, 1, [1, 2, 3])]; 3 ≤ (codesOf codes 8 0).length ∧ 3 ≤ (codesOf codes 8 1).length) ∧
    converterOk 8 1 = true ∧ s.diePowered 8 = true ∧ 8 ∉ s.thermal.recheck ∧ 8 ∈ r.thermal.recheck ∧ 8 ∉ r.thermal.bad ∧
    r.thermal.tValid = false ∧ r.thermal.useMax = false ∧ r.thermal.tIn.isSome = true := by decide +kernel
theorem witness_ThermalModel : let s := atPhase 3 .rest
    let t : State := { s with thermal := { Thermal.reset with coolSince := some 12 } }.setRbit 0x40000 16 true
    s.power.phase ≠ .off ∧ s.power.phase ≠ .aonOn ∧ s.throttled = false ∧ s.power.latch = false ∧ s.pkg = 3 ∧ s.power.phase = .rest ∧
    t.throttled = true ∧ t.thermal.coolSince = some 12 := by decide +kernel
/-- R400, R402: with enough history an estimate of 115 °C is the hottest, and in RUN it shuts the device down. -/
theorem test_hottest : ({ Thermal.reset with tj := List.replicate 19 (F32.ofRat 115), history := 5000 } : Thermal).hottest = (0, 0, 460) := by decide +kernel
theorem witness_shutdown : let s := atPhase 3 .rest
    let u := ({ s with thermal := { Thermal.reset with tj := List.replicate 19 (F32.ofRat 115), history := 5000 } } : State).testShutdown
    u.power.latch = true ∧ u.power.phase = .handover ∧ u.power.cause = 4 := by decide +kernel
/-- R390: raw code 100, offset 0 and gain 1 in units of 2^-14 give 100. -/
theorem test_calibrate : (State.reset.setReg (tmonReg 8 0 0x10) 0x40000000#32).calibrate 8 0 1 0 100 = 100 := by decide +kernel
/-- R401: the duty window while throttled: the first DUTY % of each 100 µs. -/
theorem test_duty : let s : State := { State.reset with tbStart := some 0 }.setReg 0x40000 0x0001325F#32
    ({ s with now := 12 * 49999 } : State).dutyOpen = true ∧ ({ s with now := 12 * 50000 } : State).dutyOpen = false := by decide +kernel

/-! ### Wide engine and sparse engine -/

/-- A 1 × 1 BF16 job of one block, with CLOSE as given, its output at 128 and its record at line 16. -/
def job0 (close : Nat) : DmeJob := { task := 64
                                     desc := BitVec.ofNat 512 (1 + at8 1 1 + at8 2 1 + at8 3 (4 * close) + at8 4 1 + at8 6 1 + at8 8 1 + at8 24 64 + at8 48 128 + at8 60 16) }
def badJob : DmeJob := { desc := 2#512, task := 64 }
def dmeWith (e : Dme) : State := { State.reset with dme := e }
def e0 : Dme := State.reset.dme
def run0 (close : Nat) : DmeRun := { job := job0 close, vals := [0x3F800000#32], lines := 1, endAt := 900 }
theorem witness_DmeQueues : State.reset.mayPost .mp = true ∧ State.reset.mayPost .sp = true ∧ State.reset.newWork = true ∧ State.reset.dme.run = none ∧
    State.reset.dme.mgmtQueue.length < 256 ∧ State.reset.dme.queue.length < 256 ∧
    256 ≤ (dmeWith { e0 with queue := List.replicate 256 badJob }).dme.queue.length ∧ (dmeWith { e0 with run := some (run0 0) }).dme.run.isSome = true ∧
    (dmeWith { e0 with mgmtQueue := [badJob], queue := [job0 0] }).dme.mgmtQueue = badJob :: [] ∧ (dmeWith { e0 with queue := [job0 0] }).dme.queue = job0 0 :: [] := by
  decide +kernel
theorem witness_DmeJobs : (dmeWith { e0 with queue := [badJob] }).dme.take = some (badJob, e0) ∧ (dmeWith e0).dmeOk badJob = false ∧
    (dmeWith { e0 with queue := [job0 1] }).dme.take = some (job0 1, e0) ∧ (dmeWith { e0 with queue := [job0 1] }).dmeOk (job0 1) = true ∧
    aFormat (DmeDesc.of (job0 1).desc).aFmt = some .bf16 ∧ wFormat (DmeDesc.of (job0 1).desc).wFmt = some .bf16 ∧
    (∀ c, c ∈ [0, 1] → (dmeWith { e0 with run := some (run0 c) }).dme.run = some (run0 c)) ∧
    (DmeDesc.of (job0 0).desc).close = false ∧ (DmeDesc.of (job0 1).desc).close = true := by decide +kernel
/-- R133, R134: the block of 1.0 and 2.0 at places 0 against 3.0 and 0.5 gives 4.0 in binary32. -/
theorem test_dme_dot : (after .dmeJobStart ((((dmeWith { e0 with queue := [job0 0] }).writeLE 0 2 0x3F80).writeLE 2 2 0x4000).writeLE 64 4 0x3F004040)).dme.run.map
    DmeRun.vals = some [0x40800000#32] := by decide +kernel

/-- Context 0 live, the wide copy of its matrix 0 at 0x8000, `w` the low bits of its dispatch entry; the normal queue as given. -/
def wideCtx (w : Nat) (q : List DmeJob) : State :=
  { State.reset.writeLE 0x1000 16 (w + 0x8000 * 2 ^ 64) with dme := { e0 with queue := q }, contexts := [(0, { Context.reset with live := true, matrices := 1, layers := 1, dispatch := 0x1000, wide := (0x8000, 0x1000) })] }
def wideJob : BitVec 512 := BitVec.ofNat 512 (at8 3 4 + at8 4 1 + at8 24 0x8000 + at8 48 6400)
theorem witness_DmeQueues_wide : (DmeDesc.of wideJob).wAddr = 0x8000 ∧ (DmeDesc.of wideJob).m ≤ 4096 ∧
    (∀ q, q ∈ [[], [({ desc := wideJob, task := 0 } : DmeJob)]] → let s := wideCtx 9 q
      s.mayPost .sp = true ∧ s.wideMatrix 0x8000 = some (0, 0) ∧ (s.dispatchOf (s.ctx 0) 0).path = true ∧ (s.ctx 0).saturated = false ∧
      s.matrixQueued (0, 0) = !q.isEmpty ∧ s.dme.collected = [] ∧ s.dme.mgmtWait = []) ∧
    (wideCtx 8 []).wideMatrix 0x8000 = some (0, 0) ∧ ((wideCtx 8 []).dispatchOf ((wideCtx 8 []).ctx 0) 0).path = false ∧
    State.reset.wideMatrix 0x8000 = none ∧
    (let j : DmeJob := { desc := wideJob, task := 0 }
     let s := dmeWith { e0 with queue := [j], collected := [j] }
     s.dme.run = none ∧ s.newWork = true ∧ s.dme.mgmtQueue = [] ∧ s.dme.queue = j :: [] ∧ s.dme.collected = [j]) := by decide +kernel
/-- R143: what was collected for a matrix is posted when a job with its weights starts. -/
theorem test_collected_posts : let j : DmeJob := { desc := wideJob, task := 0 }
    (after .dmeJobStart (dmeWith { e0 with queue := [j], collected := [{ j with task := 1 }] })).dme.queue = [{ j with task := 1 }] := by decide +kernel

/-- Context 0 live with two matrices, matrix 0 on gallery 0, its dispatch entries at 0x1000; the first entry as given. -/
def twoMats (w : Nat) : State :=
  owned ({ (State.reset.writeLE 0x1000 16 w).setRing 0 { Ring.reset with cfg := 0x10200#32 } with contexts := [(0, { Context.reset with live := true, matrices := 2, layers := 1, dispatch := 0x1000, parts := [(0, 0)] })] })
def fbEntry (scope dir mat : Nat) : SubEntry := entryOf (cmdFallback + at8 17 scope + at8 18 dir + at8 20 mat)
theorem witness_FallbackCommandAndStep : (fbEntry 0 1 0).opcode = cmdFallback ∧ (twoMats 8).commandOk (fbEntry 0 1 0) = true ∧ (State.reset.ctx 0).live = false ∧
    ((twoMats 8).ctx 0).live = true ∧ (fbEntry 0 2 0).byte 18 = 2 ∧ (twoMats 8).commandOk (fbEntry 3 1 0) = true ∧ ((twoMats 8).ctx 0).matrices ≤ (fbEntry 0 1 2).num 20 21 ∧
    (twoMats 8).fallbackScope 0 0 0 1 = some [1] ∧ ((twoMats 8).ctx 0).galleries 1 = [] ∧ (twoMats 0).fallbackScope 0 0 0 0 = some [0] ∧
    ((twoMats 0).ctx 0).galleries 0 ≠ [] ∧ ((twoMats 0).dispatchOf ((twoMats 0).ctx 0) 0).wide = false ∧
    ((twoMats 8).dispatchOf ((twoMats 8).ctx 0) 0).wide = true ∧ ((twoMats 8).ctx 0).entry 0 + 16 ≤ centralSize ∧
    (let s : State := { State.reset with contexts := [(0, { Context.reset with saturated := true })] }; (s.ctx 0).saturated = true) ∧
    (State.reset.ctx 0).saturated = false := by decide +kernel
/-- R138: a stream processor posts no flight that evaluates a matrix on the wide path. -/
theorem witness_FlightLaunch_path : ∀ w, w ∈ [8, 9] → let s := (((owned (twoMats w)).writeLE (hallBase 0) 16 wEval.toNat).setGal 0 { readyGal with flightSteps := 1 }).setArr 0 recArr
    s.onWidePath 0 { bits := launch0, poster := .sp, work := .other, arrived := 0 } = decide (w = 9) := by decide +kernel
/-- Gallery 0 suspect, gallery 1 running a stream processor's flight of two steps; both hold a part of one column block of matrix 0. -/
def aborting : State :=
  let f : Flight := Flight.start { bits := 0#256, poster := .sp, work := .other, arrived := 0 } 0
  let s := ((wideCtx 8 []).writeLE (hallBase 0) 16 wEval.toNat).writeLE (hallBase 0 + 16) 16 (stepWd opClose (8 * 2 ^ 111 + 100 * 2 ^ 86)).toNat
  ((((s.setReg (galReg 0 0xC0) 0x40#32).setReg (galReg 1 0xC0) 0x40#32).setGal 0 { readyGal with suspect := true }).setGal 1 { readyGal with flightSteps := 2, flight := some f }).setArr 0 recArr |>.setArr (arrKey 1 0) recArr
theorem witness_FallbackTrigger_aborts : let u : Unfinished := { key := 1, launch := { bits := 0#256, poster := .sp, work := .other, arrived := 0 }, arrived := 0 }
    aborting.affectedBy 0 = [u] ∧ (aborting.gal 1).flight.map Flight.launch = some u.launch ∧ (aborting.gal 1).queue = [] ∧ (aborting.gal 1).newProfile = none ∧
    aborting.replaces 0 [u] wideJob = true ∧ aborting.replaces 0 [u] 0#512 = false ∧ aborting.dme.mgmtWait = [] := by decide +kernel
/-- R141: the flight ends, and the job that stands for its CLOSE joins the management queue. -/
theorem test_fallback_trigger : let s := after (.fallbackTrigger 0 0 (us 1) [wideJob, 0#512]) aborting
    (s.gal 1).flight = none ∧ s.dme.mgmtQueue = [{ desc := wideJob, task := 64 }] ∧ s.now = us 1 := by decide +kernel
theorem witness_FallbackTrigger : let s := (twoMats 8).setGal 0 { Gallery.reset with suspect := true }
    ((twoMats 8).gal (galKey 0 0)).suspect = false ∧ (s.gal (galKey 0 0)).suspect = true ∧ s.dme.mgmtQueue.length + [1#512].length ≤ 256 ∧
    s.dme.mgmtWait = [] ∧ s.affectedBy 0 = [] ∧ (s.ctx 0).live = true ∧
    s.owner (galKey 0 0) = some 0 ∧ galKey 0 0 ∈ (s.ctx 0).galleries 0 ∧ (s.dispatchOf (s.ctx 0) 0).wide = true ∧
    (∀ p, p ∈ (s.ctx 0).parts → p.1 < 65536) := by decide +kernel
theorem witness_FallbackTrigger_entries : ∀ i, i < 65536 → (((twoMats 8).setGal 0 { Gallery.reset with suspect := true }).ctx 0).entry i + 16 ≤ centralSize := by
  intro i h
  show 0x1000 + 16 * i + 16 ≤ 0x60000000
  omega

/-- Tables at 0x1000, 0x2000 and 0x4000, output at 0x3000; the words at 0x1000 and 0x2000 as given. -/
def speWith (d a b : Nat) : State :=
  { (State.reset.writeLE 0x1000 16 a).writeLE 0x2000 16 b with
    spe := [{ desc := BitVec.ofNat 512 (d + at8 8 0x1000 + at8 16 0x2000 + at8 24 0x4000 + at8 32 0x3000), task := 64 }] }
def speD (s : State) : SpeDesc := (SpeDesc.of ((s.spe.map SpeJob.desc).headD 0#512)).eff s.free
theorem witness_SpeGatherScatter :
    (let s := speWith (1 + at8 4 2 + at8 40 1 + at8 58 2) 7 (5 * 2 ^ 32)
     let d := speD s; let z := 2 ^ d.p 0; let good := fun i => decide (s.u32 d.src1 i < d.aux)
     s.newWork = true ∧ d.op = 1 ∧ (∀ i, i < d.count → s.mayRead 64 (d.src1 + 4 * i) 4 = true ∧ s.mayWrite 64 (d.dst + z * i) z = true ∧
          (good i = true → s.mayRead 64 (d.src0 + z * s.u32 d.src1 i) z = true)) ∧ good 0 = true ∧ good 1 = false ∧ d.src1 = 0x2000 ∧ s.mayRead 0 d.src1 4 = false ∧ 0 < d.count) ∧
    (∀ fl, fl ∈ [0, 1] → let s := speWith (2 + at8 1 fl + at8 4 2 + at8 40 2 + at8 58 2) 7 (2 ^ 32)
     let d := speD s; let z := 2 ^ d.p 0; let good := fun i => decide (s.u32 d.src1 i < d.aux)
     d.op = 2 ∧ d.flags = fl ∧ (d.flags.testBit 0 = true → d.p 0 = 2) ∧ (∀ i, i < d.count → s.mayRead 64 (d.src1 + 4 * i) 4 = true ∧ s.mayRead 64 (d.src0 + z * i) z = true ∧
          (good i = true → s.mayWrite 64 (d.dst + z * s.u32 d.src1 i) z = true)) ∧
     (∀ a, a < d.count → ∀ b, b < d.count → s.u32 d.src1 a = s.u32 d.src1 b → a = b)) ∧
    State.reset.spe.length < 512 ∧ State.reset.mayPost .sp = true ∧ 512 ≤ ({ State.reset with spe := List.replicate 512 { desc := 0#512, task := 0 } } : State).spe.length ∧
    dnum 7#512 0 0 = 7 ∧ dnum 0#512 0 0 = 0 ∧ dnum 6#512 0 0 = 6 ∧ State.reset.routesLive (SpeDesc.of 6#512) 64 = true := by
  decide +kernel
theorem witness_inRange : ∀ d, d ∈ [1 + at8 58 6, 4 + at8 58 1024, 6 + at8 4 4096 + at8 58 64 + at8 59 8 + at8 60 8] → Sys2Proof.Claims.inRange (SpeDesc.of (BitVec.ofNat 512 d)) := by
  unfold Sys2Proof.Claims.inRange; decide +kernel
/-- R150: a SEGREDUCE of mode 3 runs (log 30). -/
theorem test_segreduce_mode3 : ((after .segreduce (speWith (3 + at8 1 7 + at8 4 2 + at8 40 0x5000) (2 ^ 32 + 2 ^ 64) 0)).spe = []) := by decide +kernel
/-- R150: the element of an index outside the table is zero, and the record says ACCESS_FAULT. -/
theorem test_gather : (after .gather (speWith (1 + at8 4 2 + at8 40 1 + at8 58 2) 7 (5 * 2 ^ 32))).writes.map PendWrite.parts =
    [[(0x3000, [7#8, 0#8, 0#8, 0#8])], [(0x3004, [0#8, 0#8, 0#8, 0#8])], []] := by decide +kernel
theorem witness_SpeReductions :
    (let s := speWith (3 + at8 1 4 + at8 4 2 + at8 40 0x5000) (2 ^ 32 + 2 ^ 64) 0
     let d := speD s; let rd := fun a => s.mayRead 64 a 4; let len := fun i => s.u32 d.src0 (i + 1) - s.u32 d.src0 i
     d.op = 3 ∧ s.newWork = true ∧ len 0 = 1 ∧ len 1 = 0 ∧ (∀ i, i < d.count → s.mayRead 64 (d.src0 + 4 * i) 8 = true ∧ s.mayWrite 64 (d.dst + 4 * i) 4 = true ∧
        ∀ k, k < len i → rd (d.src1 + 4 * (s.u32 d.src0 i + k)) = true ∧
          (d.flags.testBit 2 = false → rd (d.src2 + 4 * (s.u32 d.src0 i + k)) = true) ∧
          rd (d.aux + 4 * s.u32 d.src1 (s.u32 d.src0 i + k)) = true)) ∧
    (let s := speWith (4 + at8 4 2 + at8 58 1) 0x400000003F800000 0
     let d := speD s; let best := topK (d.flags.testBit 0) d.p16 (tabulate d.count (fun i => s.f32At (d.src0 + 4 * i)))
     d.op = 4 ∧ (∀ i, i < d.count → s.mayRead 64 (d.src0 + 4 * i) 4 = true) ∧ (∀ i, i < best.length → s.mayWrite 64 (d.dst + 8 * i) 8 = true) ∧
     best.map Prod.snd = [1]) ∧
    (let s := speWith (5 + at8 4 2 + at8 40 2 + at8 58 1) (1 + 3 * 2 ^ 32) (2 + 3 * 2 ^ 32)
     let d := speD s; let xs := tabulate d.count (s.u32 d.src0); let ys := tabulate d.aux (s.u32 d.src1)
     d.op = 5 ∧ (∀ i, i < d.count → s.mayRead 64 (d.src0 + 4 * i) 4 = true) ∧ (∀ i, i < d.aux → s.mayRead 64 (d.src1 + 4 * i) 4 = true) ∧
     (∀ i, i < d.p32 → s.mayWrite 64 (d.dst + 4 * i) 4 = true) ∧ xs.Pairwise (· < ·) ∧ ys.Pairwise (· < ·) ∧ Sys2Proof.Claims.common xs ys = [3]) ∧
    (let s := speWith (6 + at8 4 1 + at8 40 0x5000 + at8 58 4 + at8 59 2) 0 0
     let d := speD s
     s.withCap d 64 = d ∧ s.speHold = none ∧ d.p 1 ≤ d.p 0 ∧ d.op = 6 ∧ d.flags.testBit 0 = false ∧ (∀ i, i < d.count → s.mayRead 64 (d.src0 + 4 * d.p 0 * i) (4 * d.p 0) = true ∧ s.mayWrite 64 (d.dst + 8 * i) 8 = true ∧
        s.mayWrite 64 (d.aux + 32 * i) (4 * d.p 1) = true)) ∧
    (let s := speWith (6 + at8 1 1 + at8 4 1 + at8 58 4 + at8 59 2) 0 0
     let d := s.withCap (speD s) 64; d.op = 6 ∧ d.flags.testBit 0 = true ∧ s.speHold = none ∧ d.p24hi ≤ queueDepth ∧ (s.gal 7).queue.length = 0) ∧
    (speD (speWith (3 + at8 1 3) 0 0)).flags % 4 = 3 := by decide +kernel
theorem witness_SpeReductions_queues : ∀ k, ((speWith (6 + at8 1 1 + at8 4 1 + at8 58 4 + at8 59 2) 0 0).gal k).queue.length + 0 ≤ queueDepth := by
  intro k; exact Nat.zero_le queueDepth

/-! ### Atlas loads -/

def atlasEntry (c src mode tree : Nat) : SubEntry := entryOf (cmdAtlasLoad + at8 16 c + at8 17 src + at8 18 mode + at8 20 tree)
def load0 : Load := { cmd := atlasEntry 0 1 0 0, context := 0, source := 1, addr := 0, nsid := 0, tree := 0, sendOnly := false, image := [], stage := 0
                      retried := false, bound := [], arraysStarted := 0, waitSince := none, lastData := 0, done := false }
def loading (l : Load) : State := { State.reset.setRing 0 { Ring.reset with cfg := 0x10200#32 } with loads := [(0, l)] }
/-- An image of two gallery records, layers 0 and 1 of one pool gallery, each with one array. -/
def image0 : Image := natLE 256 (2 ^ 80) ++ natLE 32 (2 + 4 * 2 ^ 32 + 288 * 2 ^ 64) ++ natLE 64 (2 ^ 8 + 2 ^ 32) ++ natLE 64 (2 ^ 8 + 2 ^ 32 + 2 ^ 96) ++
  natLE 64 0 ++ natLE 64 (8 * 2 ^ 8 + 2 ^ (8 * 52))
def bound0 : Bound := { vhall := 0, vgal := 0, layer := 0, key := 0, perm := [(0, 0)], ready := true }
theorem witness_AtlasImageArrives : (loading load0).commandOk (atlasEntry 1 1 0 0) = true ∧ (atlasEntry 1 1 0 0).opcode = cmdAtlasLoad ∧
    2 < (atlasEntry 0 3 0 0).byte 17 ∧ (loading load0).commandOk (atlasEntry 0 3 0 0) = true ∧ ((loading load0).load 0).isSome = true ∧ (loading load0).load 1 = none ∧
    (loading load0).load 0 = some load0 ∧ [0#8] ≠ [] ∧ (loading load0).volFailed 0 = false ∧ Image.headIn (List.replicate 256 0#8) = true ∧
    Image.headerOk (List.replicate 256 0#8) false = false ∧ (loading { load0 with retried := true }).load 0 = some { load0 with retried := true } ∧
    (loading { load0 with source := 2 }).load 0 = some { load0 with source := 2 } ∧ ({ load0 with source := 2 } : Load).total = none ∧
    load0.done = false ∧ load0.sendOnly = false ∧ load0.source = 1 ∧ load0.waitSince = none ∧
    (let l := { load0 with waitSince := some 4, bound := [bound0] }
     let s := ((loading l).setReg 0x40100 300#32).setArr 0 { recArr with job := some { mode := 1, row := 0, sweep := [], readyAt := 0 } }
     s.load 0 = some l ∧ bound0 ∈ l.bound ∧ s.windowOpen.getD 0 false = false ∧ 292 < s.hallEst 0 ∧ (s.arr (arrKey bound0.key 0)).job.isSome = true) := by decide +kernel
/-- A whole header without wide copies, two virtual galleries in hall 0, its seven sections empty at byte 4,096. -/
def head0 : Image := natLE 252 (0x3153414C54415A4E + 2 ^ 64 + 7 * 2 ^ 80 + 2 ^ 96 + at8 24 1 + at8 28 1 + at8 32 2 + at8 88 4096) ++ natLE 4 0xB64386A7 ++
  [1, 2, 3, 4, 5, 6, 7].flatMap (fun t => natLE 32 (t + 4096 * 2 ^ 64))
/-- The CRC register after each 12 bytes, in turn. -/
def crcAt (l : List Byte) : BitVec 32 → List (BitVec 32) → Bool
  | _, [] => l.isEmpty
  | c, x :: xs => decide ((l.take 12).foldl crc32cByte c = x) && crcAt (l.drop 12) x xs
theorem crcAt_foldl (xs : List (BitVec 32)) : ∀ (l : List Byte) (c : BitVec 32), crcAt l c xs = true → l.foldl crc32cByte c = xs.getLastD c := by
  induction xs with
  | nil => intro l c h; simp [crcAt] at h; simp [h]
  | cons x xs ih =>
    intro l c h
    simp only [crcAt, Bool.and_eq_true, decide_eq_true_eq] at h
    rw [← List.take_append_drop 12 l, List.foldl_append, h.1, ih _ _ h.2, List.getLastD_cons]
theorem head0_crc : Image.crcOk head0 0 252 (Image.num head0 252 4) = true := by
  have h := crcAt_foldl [0x26BB7F07#32, 0x5ACCCCDB#32, 0x1344493E#32, 0x381B095F#32, 0xEAE05049#32, 0x64426A60#32, 0x521F3D7B#32,
    0x7CDBFC16#32, 0xCA65912F#32, 0xEE23722C#32, 0x97E73BC0#32, 0x6DF7BFD9#32, 0x4A6E262A#32, 0x49BC7F62#32, 0xF642E156#32, 0x17AEEC6F#32,
    0xBB347096#32, 0xCAAB92A3#32, 0x61519A33#32, 0xF1138349#32, 0x49BC7958#32] ((head0.drop 0).take 252) 0xFFFFFFFF#32 (by decide +kernel)
  unfold Image.crcOk crc32c
  rw [h]
  decide +kernel
/-- R167, R168: a header that passes, for a context whose quota is one gallery. -/
theorem witness_AtlasImageArrives_header : Image.headerOk head0 false = true := by
  unfold Image.headerOk Image.headerCrcOk
  rw [head0_crc]
  decide +kernel
theorem witness_AtlasImageArrives_room : Image.headIn head0 = true ∧ ((loading load0).setReg 0xA5100 0x10#32).headRoom 0 head0 = false := by decide +kernel
/-- Hall 0 at 25 °C in RUN with its window open; array 0 admitted, at row `r` of a sweep of its column 5. -/
def programming (r : Nat) : State :=
  { ((railsOn (atPhase 3 .rest)).setReg 0x10008 0xFFFF#32).setReg 0x40100 100#32 with
    windowOpen := List.replicate 8 true, progActive := [0]
    arrays := [(0, { ArrayState.reset with record := some rec0, job := some { mode := 1, row := r, sweep := [5], readyAt := 3 } })] }
theorem witness_AtlasPrograms : let s := programming 7
    (s.arr (arrKey (galKey 0 0) 0)).job = some { mode := 1, row := 7, sweep := [5], readyAt := 3 } ∧ (s.arr 0).record = some rec0 ∧ 0 ∈ s.progActive ∧
    (s.gal 0).suspect = false ∧ s.windowOpen.getD 0 false = true ∧ s.hallEst 0 = 100 ∧ s.pkg = 3 ∧ s.railPg 7 = true ∧ s.power.relock = [] ∧
    ((programming 1024).arr 0).job = some { mode := 1, row := 1024, sweep := [5], readyAt := 3 } ∧ 60 ≤ s.hallEst 0 ∧ s.hallEst 0 ≤ 300 ∧
    (s.emapOf 0 0).length = 0 ∧ (∀ n, n < 2 → (s.poolPlace 0 0 n).isSome = true) ∧ (s.arr 1).job = none := by decide +kernel
theorem witness_LoadCompletes : let l := { load0 with stage := 2, image := image0, bound := [bound0] }
    let g : Gallery := { readyGal with survey := { Survey.reset with initialDone := true } }
    l.done = false ∧ l.sendOnly = false ∧ l.stage ≠ 0 ∧ ((loading l).setRfld 0x10000 2 0 3).pkg = 3 ∧ (loading l).pkg ≠ 3 ∧
    ((loading l).setRfld 0x10000 2 0 3).load 0 = some l ∧ (loading l).load 0 = some l ∧ Image.sections l.image < l.stage ∧ ((loading l).setGal 0 g).load 0 = some l ∧
    (∀ b, b ∈ l.bound → (((loading l).setGal 0 g).gal b.key).suspect = false ∧ (((loading l).setGal 0 g).gal b.key).survey.initialDone = true) ∧
    (∀ b, b ∈ l.bound → ((loading l).gal b.key).survey.initialDone = false ∧ ((loading l).gal b.key).suspect = false) ∧
    (Image.recOf l.image bound0).map (fun r => popcount r.arrays) = some 1 := by decide +kernel
theorem witness_Rotation : let l := { load0 with stage := 2, image := image0, bound := [bound0], done := true }
    let s := owned { loading l with now := sec 5000, arrays := (List.range 32).map (fun a => (a, { ArrayState.reset with wear := some 0#128 })) }
    s.owner (galKey 0 0) = some 0 ∧ s.load 0 = some l ∧ l.bound.find? (fun b => decide (b.key = galKey 0 0)) = some bound0 ∧
    Image.nextLayer l.image bound0 = some 1 ∧ s.mayRotate 0 l.image (s.ctx 0) bound0 = true ∧
    ((Image.recOf l.image { bound0 with layer := 1, ready := false }).bind (fun r => s.fitArrays 0 (Image.wants l.image r))) = some [(8, 0)] ∧
    State.reset.owner (galKey 0 0) = none := by decide +kernel
theorem witness_AtlasFrames : (after (.atlasLoad (atlasEntry 0 3 0 0)) (loading load0)).now = 0 ∧ (after (.imageDataArrival 0 [1#8]) (loading load0)).loads.length = 1 ∧
    (after (.loadWaitExpiry 0) (loading load0)).now = 0 ∧ (after (.contextUnload (entryOf cmdContextUnload)) (loading load0)).now = 0 := by decide +kernel

/-! ### Attention and the KV store -/

/-- A job of operation `op` with flags `fl`: one KV head, one query head, stream 3, entry block and QKV in the central store. -/
def attJob (op fl : Nat) : AttJob :=
  { id := 4, task := 64, desc := BitVec.ofNat 512 (op + at8 1 fl + at8 5 1 + at8 6 1 + at8 7 (if op = 2 then 7 else 0) + at8 12 3 + at8 14 1 +
    at8 16 0x1000 + at8 24 0x10000 + at8 56 0x80 + at8 60 16) }
def waitJob : AttJob := { id := 5, task := 64, desc := (attJob 1 0).desc ||| (BitVec.ofNat 512 (at8 37 0x80 + at8 38 9)) }
def attRun (op fl : Nat) : AttRun :=
  { job := attJob op fl, startAt := 0, built := false, units := [], fitted := 1, reads := 0, lastEnd := 0, standIns := [], ended := none }
/-- Stream 3 in DECODE with a directory of one layer. -/
def attended : State := ((kvReady.newDirectory 3 0 1).getD kvReady).modStream 3 (fun x => { x with state := .decode })
def queued (js : List AttJob) : State := { attended with attQueue := js }
def started (r : AttRun) : State := { attended with attRuns := [r] }
theorem witness_AttentionQueue_throttled : let s : State := { State.reset with tbStart := some 0 }.setReg 0x40000 0x0001325F#32
    ({ s with now := 12 * 50000 } : State).mayPost .sp = false ∧ (AttDesc.of (attJob 1 0).desc).op ≠ 2 := by decide +kernel
theorem witness_AttentionQueue : attended.mayPost .sp = true ∧ attended.attQueue.length < 1024 ∧ (queued [attJob 1 0]).newWork = true ∧
    (queued [attJob 1 0]).attQueue = [attJob 1 0] ∧ (queued []).inputReady (AttDesc.of (attJob 1 0).desc) = true ∧ (queued []).attRuns = [] ∧
    (queued []).attOk (attJob 1 0) = true ∧ (∀ x, x ∈ (queued []).attStreams (attJob 1 0) → (queued []).kvControlMarked x 0 = false) ∧
    (queued []).attOk (attJob 7 0) = false ∧ (AttDesc.of waitJob.desc).inWait = true ∧ (AttDesc.of waitJob.desc).inValue = 9 ∧
    (queued [waitJob]).inputReady (AttDesc.of waitJob.desc) = false ∧
    ((queued [waitJob]).setCounter (cntKey 8 0) 9).inputReady (AttDesc.of waitJob.desc) = true := by decide +kernel
theorem witness_AttentionQueue_full : 1024 ≤ (queued (List.replicate 1024 waitJob)).attQueue.length := by
  exact Nat.le_of_eq (List.length_replicate (n := 1024) (a := waitJob)).symm
theorem witness_DecodeForms : let s := started (attRun 1 0)
    s.toBuild 1 = some (attRun 1 0) ∧ s.attEntries (AttDesc.of (attJob 1 0).desc) = [{ stream := 3, first := 0, len := 1, row := 0 }] ∧
    (s.appendEntry (AttDesc.of (attJob 1 0).desc) { stream := 3, first := 0, len := 1, row := 0 }).isSome = true ∧
    (let f := s.setTokens (s.stream 3).kvDir 0 1048576; f.toBuild 1 = some (attRun 1 0) ∧
      f.attEntries (AttDesc.of (attJob 1 0).desc) = [{ stream := 3, first := 1048576, len := 1, row := 0 }]) := by decide +kernel
theorem witness_PrefillForms : let s := (started (attRun 2 0)).writeLE 0x2000 16 (3 + 2 ^ 64)
    let d := AttDesc.of (attJob 2 0).desc
    (let q := { attRun 2 0 with fitted := 0 }; let u : State := { s with attRuns := [q] }; u.toBuild 2 = some q) ∧
    s.toBuild 2 = some (attRun 2 0) ∧ d.nokv = false ∧ s.attEntries d ≠ [] ∧ (∀ e, e ∈ s.attEntries d → e.first + e.len ≤ 1048576) ∧
    (let f := (started (attRun 2 0)).writeLE 0x2000 16 (3 + 1048575 * 2 ^ 32 + 2 * 2 ^ 64)
     f.toBuild 2 = some (attRun 2 0) ∧ f.attEntries d = [{ stream := 3, first := 1048575, len := 2, row := 0 }]) ∧
    (s.appendEntries d (s.attEntries d) 0).1 = (s.attEntries d).length ∧ (started (attRun 2 4)).toBuild 2 = some (attRun 2 4) ∧
    (AttDesc.of (attJob 2 4).desc).nokv = true ∧ (started (attRun 3 4)).toBuild 3 = some (attRun 3 4) ∧
    ((started (attRun 3 4)).attEntries (AttDesc.of (attJob 3 4).desc)).length = 1 ∧ attended.toBuild 1 = none ∧ attended.toBuild 2 = none ∧
    attended.toBuild 3 = none := by decide +kernel
def unit0 (ps : List Nat) : AttUnit := { entry := 0, head := 0, idx := 0, pages := ps, ranked := [], selected := 0, done := false, res := [] }
theorem witness_AttentionUnit : ∀ ps, ps ∈ [[], [0]] → let r := { attRun 1 0 with built := true, units := [unit0 ps] }
    let s := started r; let d := AttDesc.of r.job.desc
    s.nextUnitOf = (if ps.isEmpty then some (r, unit0 ps, 0, 0) else none) ∧
    (s.runEntries r)[(unit0 ps).entry]? = some { stream := 3, first := 0, len := 1, row := 0 } ∧
    (∀ x, x ∈ s.openUnits.take 32 → s.mayBegin x.1 x.2.1 = ps.isEmpty) ∧ (s.stream d.stream).work.layer = d.layer ∧
    (s.unitPages r (unit0 ps)).1 = unit0 ps ∧ s.unitReady d { stream := 3, first := 0, len := 1, row := 0 } (unit0 ps) = ps.isEmpty := by
  decide +kernel
theorem witness_AttentionUnit_skip : let r := { attRun 1 0 with built := true, units := [unit0 []] }
    bit ((started r).reg 0x98000) 16 = false := by decide +kernel
def page0 : PageId := { stream := 3, layer := 0, head := 0, page := 0 }
/-- Stream 3 with one page in slot 9 of tier 0. -/
def paged (e : PtEntry) : State :=
  let s := { (attended.writeLE (attended.chunkWord (attended.stream 3).kvDir 0 0 0) 8 (kvAddr 0 1)).writeLE ((attended.stream 3).kvDir + 2) 1 1 with kvUsed := [(9, 4)] }
  (s.setTokens (s.stream 3).kvDir 0 1).setPte page0 e
def pte0 : PtEntry := { PtEntry.of 0 with valid := true, slot := 9 }
def fetching (e : PtEntry) : State := { paged e with fetches := [{ id := page0, index := false, demand := true }] }
theorem witness_PageFetch : (fetching (PtEntry.of 0)).fetches = [{ id := page0, index := false, demand := true }] ∧ ((fetching (PtEntry.of 0)).pte page0).valid = false ∧
    ((fetching { pte0 with cached := true }).pte page0).cached = true ∧
    (let s := fetching pte0; (s.pte page0).valid = true ∧ (s.pte page0).cached = false ∧ s.cacheVictim = some 0 ∧ Tab.find s.kvCache 0 = none ∧
      (s.entryAddr page0).isSome = true ∧ s.t1Retired = [] ∧ (s.pte page0).tier = 0) ∧
    (let s := { State.reset with fetches := [{ id := page0, index := true, demand := false }] }; (s.stream page0.stream).kvDir = 0) ∧
    ((fetching { pte0 with tier := 1 }).pte page0).tier = 1 ∧ (State.promotes ((fetching { pte0 with tier := 1 }).setReg 0x98404 100#32)) = false ∧ State.reset.fetches = [] := by
  decide +kernel
def spilling : State := (paged pte0).setReg 0x98404 0x00006464#32
theorem witness_PageSpill : (let s := kvReady; s.freeBelow 1 0 (s.rfld 0x98404 23 16) = false ∧ 0 < s.kvFree 1 ∧ s.freeBelow 0 0 (s.rfld 0x98404 7 0) = false ∧ 0 < s.kvFree 0) ∧
    (let s := spilling
     s.freeBelow 1 0 (s.rfld 0x98404 23 16) = false ∧ 0 < s.kvFree 1 ∧ s.freeBelow 0 0 (s.rfld 0x98404 7 0) = true ∧
     s.spillStreams.flatMap s.pagesOf = [] ++ page0 :: [] ∧ s.spillable 0 page0 = true ∧ s.freeBelow 0 0 (s.rfld 0x98404 15 8) = true) := by decide +kernel
theorem spilling_alloc : (spilling.kvAlloc 1 1 page0.stream).map Prod.fst = some 0 := by decide +kernel
theorem spilling_valid : (spilling.pte page0).valid = true := by decide +kernel
/-- Tier 0 has no slot left but its page may spill: a DECODE at position 16 waits; without tier 1 it ends. -/
theorem witness_DecodeForms_room : ∀ n, n ∈ [[], [0]] →
    let s : State := { (paged pte0).setTokens ((paged pte0).stream 3).kvDir 0 16 with hbmStacks := [], t1Channels := n, attRuns := [attRun 1 0] }
    s.toBuild 1 = some (attRun 1 0) ∧ s.attEntries (AttDesc.of (attJob 1 0).desc) = [{ stream := 3, first := 16, len := 1, row := 0 }] ∧
    (s.appendEntry (AttDesc.of (attJob 1 0).desc) { stream := 3, first := 16, len := 1, row := 0 }).isNone = true ∧ s.canSpill = !n.isEmpty := by decide +kernel
theorem witness_PageFetch_unmarked : (fetching pte0).slotMarked 0 9 0 slotBytes = false := by decide +kernel
/-- The allocation of a tier-1 slot for the page, and its old slot free. -/
def taken (s : State) : State := { s with kvUsed := Tab.put s.kvUsed (kvKey 1 0) (page0.stream + 1) }
def movedOut (s s0 : State) : State := { s0 with kvUsed := Tab.del s0.kvUsed (kvKey (s.pte page0).tier (s.pte page0).slot) }
theorem movePage_page0 {s : State} (hv : (s.pte page0).valid = true) (ha : (s.kvAlloc 1 1 page0.stream).map Prod.fst = some 0) :
    ∃ s1, s.movePage page0 1 = some s1 ∧ ∀ n, s1.freeBelow 0 0 n = (movedOut s (taken s)).freeBelow 0 0 n := by
  obtain ⟨s1, h, k⟩ := State.movePage_some hv (State.kvAlloc_first ha) (Nat.le_refl 1)
  exact ⟨s1, h, fun n => k.freeBelow 0 0 n⟩
theorem spilling_after : (movedOut spilling (taken spilling)).freeBelow 0 0 (spilling.rfld 0x98404 15 8) = false := by decide +kernel
theorem witness_PageSpill_move : ∃ s1, spilling.movePage page0 1 = some s1 ∧ s1.freeBelow 0 0 (spilling.rfld 0x98404 15 8) = false := by
  obtain ⟨s1, h, k⟩ := movePage_page0 spilling_valid spilling_alloc
  exact ⟨s1, h, (k _).trans spilling_after⟩
def park0 : Park := { cmd := some (entryOf 0x15), tier := 1, ttl := 0, expires := 0, slot := 0, bytes := 0, parked := false, resume := none }
def parking (p : Park) : State := attended.setPark 3 p
theorem witness_ParkAndResume : (parking park0).park 3 = some park0 ∧ (parking { park0 with parked := true }).park 3 = some { park0 with parked := true } ∧
    (parking park0).inStep 3 = false ∧ (parking park0).jobsClear 3 = some 0 ∧ ({ parking park0 with attQueue := [attJob 1 0] } : State).jobsClear 3 = none ∧
    ((parking park0).modStream 3 (fun x => { x with work := { x.work with layer := 1 } })).inStep 3 = true ∧
    (({ parking park0 with t1Channels := [] } : State).parkStream 3 park0).isNone = true ∧
    (parking park0).jobsOf 3 = false ∧ ({ parking park0 with attQueue := [attJob 1 0] } : State).jobsOf 3 = true ∧
    ((parking park0).parkStream 3 park0).isSome = true ∧
    ((parking { park0 with parked := true, resume := some (entryOf 0x16) }).resumeStream 3 { park0 with parked := true, resume := some (entryOf 0x16) }).isSome = true ∧
    (let s : State := { parking { park0 with parked := true, resume := some (entryOf 0x16) } with hbmStacks := [] }
     s.resumeStream 3 { park0 with parked := true, resume := some (entryOf 0x16) } = none ∧ s.canSpill = false) := by decide +kernel

/-! ### Serving -/

def okStream : Stream := { Stream.reset with topP := 0x3F800000#32, repPenalty := 0x3F800000#32 }
/-- Ring 0 for submissions of function 1, token ring 5 of context 0, context 0 live; stream 3 as given. -/
def serving (x : Stream) : State :=
  ({ kvReady with contexts := [(0, { Context.reset with live := true, layers := 1 })] }.setRing 0 { Ring.reset with cfg := 0x10200#32 }).setRing 5
    { Ring.reset with cfg := 0x203#32, enabled := true } |>.setStream 3 x
def openE (ring len : Nat) : SubEntry := entryOf (cmdStreamOpen + at8 18 ring + at8 20 4 + at8 24 len)
def params0 : BitVec 512 := BitVec.ofNat 512 (at8 4 0x3F800000 + at8 12 0x3F800000)
def streamE (op more : Nat) : SubEntry := entryOf (op + at8 16 3 + more)
theorem witness_StreamOpen : let s := serving Stream.reset
    let p : Stream := { Stream.reset.withParams (List.replicate 72 0#8 ++ natLE 64 params0.toNat) with context := 0, flags := 0, tokenRing := 5, maxNew := 4 }
    (openE 5 1).opcode = cmdStreamOpen ∧ s.commandOk (openE 5 1) = true ∧ s.noProcessor = false ∧ s.inputTokens 0 p.text 1 [] = some [0] ∧
    s.tokenRingOk 5 0 (some (s.ring 0)) = true ∧ ¬ 32 ≤ p.flags ∧ samplingOk p = true ∧ s.stopsOk p = true ∧ fld params0 511 480 = 0 ∧
    (openE 5 1).num 24 27 = 1 ∧ s.freeEntry = some 0 ∧ s.admits 0 = true ∧
    s.tokenRingOk 4 0 (some (s.ring 0)) = false ∧ s.commandOk (openE 4 1) = true ∧ (openE 5 0).num 24 27 = 0 ∧
    (s.setRfld 0xA6000 1 0 1).admits 0 = false := by decide +kernel
theorem witness_StreamOpen_processors : let s : State := { serving Stream.reset with power := { Power.reset with ready := some 0 } }.setReg 0xA0004 0#32
    (openE 5 1).opcode = cmdStreamOpen ∧ s.commandOk (openE 5 1) = true ∧ s.noProcessor = true := by decide +kernel
theorem witness_StreamContinue : let s := serving { okStream with state := .done }
    let e := streamE cmdStreamContinue (at8 24 1)
    e.opcode = cmdStreamContinue ∧ s.mustWait e = false ∧ s.commandOk e = true ∧ (serving okStream).cmdState 3 = .free ∧ s.cmdState 3 = .done ∧ s.inputTokens 0 (s.stream 3).text 1 [] = some [0] ∧
    samplingOk (s.stream 3) = true ∧ s.stopsOk (s.stream 3) = true ∧ ¬ 1048576 < (s.stream 3).positions + 1 ∧ samplingOk (serving { Stream.reset with state := .done } |>.stream 3) = false ∧
    (s.ctx 0).saturated = false ∧ (s.ctx 0).live = true ∧ (({ s with contexts := [] } : State).ctx 0).live = false := by decide +kernel
def inState (x : StreamState) : State := serving { okStream with state := x }
theorem witness_StreamCancel : let e := streamE cmdStreamCancel 0
    e.opcode = cmdStreamCancel ∧ (inState .admitted).mustWait e = false ∧ (inState .admitted).commandOk e = true ∧
    (let s : State := { inState .decode with contexts := [(0, { Context.reset with live := true, saturated := true })] }
     s.commandOk e = true ∧ (s.stream 3).work.cancel = none ∧ s.cmdState 3 = .decode ∧ s.mayRun 3 = false) ∧ ((inState .admitted).stream 3).work.cancel = none ∧ (inState .admitted).cmdState 3 = .admitted ∧
    (inState .prefill).cmdState 3 = .prefill ∧ (inState .prefill).jobsOf 3 = false ∧ ({ inState .prefill with attQueue := [attJob 1 0] } : State).jobsOf 3 = true ∧
    (inState .decode).cmdState 3 = .decode ∧ (inState .decode).mayRun 3 = true ∧ (inState .done).cmdState 3 ∉ [StreamState.admitted, .prefill, .decode] := by decide +kernel
/-- R288: a CLOSE behind a CANCEL of its stream; an entry whose function was reset. -/
theorem witness_StreamCommands_order : let e := streamE cmdStreamClose 0
    ({ inState .done with accepted := [streamE cmdStreamCancel 0, e] } : State).mustWait e = true ∧
    ({ inState .done with accepted := [streamE cmdStreamCancel (at8 16 1), e] } : State).mustWait e = false ∧
    (let q := streamE cmdStreamQuery 0
     let s : State := { inState .free with orphans := [q] }
     q ∈ s.orphans ∧ s.commandOk q = true ∧ s.mustWait q = false) ∧
    (let q := streamE cmdStreamReadTokens (at8 24 1)
     let s : State := { inState .decode with orphans := [q] }
     q ∈ s.orphans ∧ s.commandOk q = true ∧ s.cmdState 3 = .decode) := by decide +kernel
theorem witness_StreamCommands : (streamE cmdStreamClose 0).opcode = cmdStreamClose ∧ (inState .done).commandOk (streamE cmdStreamClose 0) = true ∧ (inState .done).cmdState 3 = .done ∧
    (let e := streamE cmdStreamPark (at8 18 1 + at8 20 1); e.opcode = cmdStreamPark ∧ (inState .done).commandOk e = true ∧ ((inState .done).stream 3).state = .done ∧
      ((inState .done).park 3).isSome = false ∧ e.byte 18 = 1 ∧ e.num 20 23 = 1) ∧ (streamE cmdStreamPark 0).byte 18 < 1 ∧
    (let e := streamE cmdStreamResume 0; e.opcode = cmdStreamResume ∧ (inState .parked).commandOk e = true ∧ (inState .parked).park 3 = none ∧
      ((inState .parked).setPark 3 { park0 with parked := true, expires := 5 }).park 3 = some { park0 with parked := true, expires := 5 } ∧ (inState .parked).time.toNat < 5) ∧
    (streamE cmdStreamQuery 0).opcode = cmdStreamQuery ∧ (inState .free).commandOk (streamE cmdStreamQuery 0) = true ∧
    (let e := streamE cmdStreamReadTokens (at8 24 1); e.opcode = cmdStreamReadTokens ∧ (inState .decode).commandOk e = true ∧ (inState .decode).cmdState 3 ∈ [StreamState.decode, .done, .mirroring] ∧
      (e.byte 18).testBit 0 = false ∧ (inState .free).cmdState 3 ∉ [StreamState.decode, .done, .mirroring]) := by decide +kernel
theorem witness_Resume_saturated : let s : State := { inState .parked with contexts := [(0, { Context.reset with saturated := true })] }
    (s.ctx (s.stream 3).context).saturated = true := by decide +kernel
def cp0 : Checkpoint := { pos := 0, entry := [], tokens := [], counts := [], held := [], spans := [], baseGen := 0 }
def standby0 (cur : Option Nat) : Standby := { ring := 5, active := 1, origin := 2, buffers := [some cp0, none], current := cur, logged := [], lastBeat := 0 }
def standing (cur : Option Nat) : State := serving { okStream with state := .mirroring, work := { StreamWork.reset with standby := some (standby0 cur) } }
theorem witness_StreamMirroring : (∀ d, d ∈ [0, 1] → let e := streamE cmdStreamMirror (at8 18 d); e.opcode = cmdStreamMirror ∧ (inState .done).commandOk e = true ∧ e.byte 18 = d ∧ e.num 16 17 = 3) ∧
    (inState .done).cmdState 3 ∈ [StreamState.decode, .done] ∧ (inState .free).cmdState 3 ∉ [StreamState.decode, .done] ∧
    (let x := (serving { okStream with mirrored := true, generated := 2 }).stream 3; x.mirrored = true ∧ 1 < x.generated) ∧ ((inState .done).stream 3).mirrored = false ∧
    ((serving { okStream with work := { StreamWork.reset with mirrorCmd := some (entryOf 0) } }).stream 3).work.mirrorCmd = some (entryOf 0) ∧
    (∀ c, c ∈ [none, some 0] → ((standing c).stream 3).work.standby = some (standby0 c) ∧ ((standing c).stream 3).work.mirrorCmd = none ∧ ((standing c).stream 3).state = .mirroring) ∧
    (inState .done).mustWait (streamE cmdStreamMirror 0) = false ∧ 1 < (streamE cmdStreamMirror (at8 18 2)).byte 18 ∧ cp0.pos = 0 ∧
    (standing none).allPages 3 1 = false ∧ (paged pte0).allPages 3 1 = true ∧ ((standing none).stream 3).work.standby = some (standby0 none) ∧
    (standby0 (some 0)).buffers[0]? = some (some cp0) ∧ ((inState .done).stream 3).work.standby = none ∧ ((inState .shipping).stream 3).state = .shipping := by decide +kernel
def waiting : State := serving { okStream with state := .admitted, kvDir := kvAddr 0 0, work := { StreamWork.reset with queued := true } }
theorem witness_Scheduler : waiting.unloads = [] ∧ (inState .free).unloads = [] ∧ (∀ p, p ∈ waiting.streams → p.2.work.cancel = none ∧ p.2.work.origin = none) ∧ (∀ c, c < 64 → (inState .free).takeable c = []) ∧
    waiting.prefillTurn = 63 ∧ waiting.takeable 0 = [3] ∧ (waiting.stream 3).kvDir ≠ 0 := by decide +kernel
/-- Stream 3 decodes under temperature 0. -/
def drawing (x : Stream) : State := serving { x with state := .decode, kvDir := kvAddr 0 0 }
theorem unmarked (s : State) (hm : s.marks = []) (hr : s.t1Retired = []) (a n : Nat) : s.anyMarked a n = false := by
  have h : ∀ x, s.marked x = false := fun x => by
    unfold State.marked State.onRetired
    rw [hm, hr]
    cases hx : s.t1ChannelOf x <;> simp [Tab.get, Tab.find]
  simp [State.anyMarked, h]
theorem witness_Sampler : let s := drawing { okStream with maxNew := 9 }
    s.mayDraw 3 1 = true ∧ s.mayDraw 3 0 = false ∧ (s.stream 3).mirrored = false ∧ (s.stream 3).work.standby = none ∧ (s.stream 3).stopCount = 0 := by
  have h : (drawing { okStream with maxNew := 9 }).countsMarked 3 = false := unmarked _ rfl rfl _ _
  dsimp only
  unfold State.mayDraw
  rw [h]
  decide +kernel
theorem witness_Sampler_step : (let x := (serving { okStream with state := .decode, kvDir := kvAddr 0 0, work := { StreamWork.reset with layer := 1 } })
      (x.stream 3).state = .decode ∧ (x.stream 3).work.layer ≠ x.dirLayers (x.stream 3).kvDir) ∧
    ({ inState .decode with attQueue := [attJob 1 0] } : State).jobsOf 3 = true ∧ ((serving { okStream with generated := 64 }).stream 3).delivered + 64 ≤ 64 ∧
    Tab.find (drawing okStream).unloads ((drawing okStream).stream 3).context = none := by decide +kernel
theorem penalise_nan (x : Stream) (c : Nat) : F32.isNaN (penalise x nan32 c) = true := by
  have a : ∀ y, F32.add nan32 y = nan32 := fun y => by unfold F32.add; rw [show F32.isNaN nan32 = true by decide]; rfl
  have b : ∀ y, F32.mul nan32 y = nan32 := fun y => by unfold F32.mul; rw [show F32.isNaN nan32 = true by decide]; rfl
  unfold penalise
  split
  · decide
  · dsimp only
    rw [show F32.lt 0#32 nan32 = false by decide, if_neg (by decide), b]
    unfold F32.sub
    rw [a, a]
    decide
/-- Every logit NaN: R262 draws nothing. -/
theorem witness_drawn_none : Sys2Proof.Claims.drawn ((drawing okStream).writeLE 0x1000 4 0x7FC00000) 3 0x1000 1 = none := by
  have h : ((drawing okStream).writeLE 0x1000 4 0x7FC00000).f32At (0x1000 + 4 * 0) = nan32 := by decide +kernel
  unfold Sys2Proof.Claims.drawn sampleToken
  dsimp only
  rw [if_pos]
  simp only [tabulate, List.range_succ, List.range_zero, List.nil_append, List.map_cons, List.map_nil, List.all_cons, List.all_nil, h, penalise_nan, Bool.and_self]
/-- One logit and temperature 0: the token is 0. -/
theorem witness_drawn_some : Sys2Proof.Claims.drawn (drawing okStream) 3 0x1000 1 = some 0 := by
  have h : ∀ i, (drawing okStream).countNum 3 i = 0 := fun i => rfl
  have e : ((List.range countRecords).filterMap (fun i => let n := (drawing okStream).countNum 3 i
      if n = 0 then none else some ((drawing okStream).countTok 3 i, n))) = [] := by
    rw [List.filterMap_eq_nil_iff]
    intro i _
    simp only [h, if_true]
  unfold Sys2Proof.Claims.drawn
  simp only [e, List.find?_nil]
  decide +kernel
theorem witness_ContextCommands : let s := (inState .admitted).setReg (galReg 0 0xC0) 0x40#32
    (let e := entryOf (cmdProfileSet + at8 17 3); e.opcode = cmdProfileSet ∧ s.commandOk e = true ∧ e.byte 17 = 3) ∧
    (entryOf (cmdProfileSet + at8 17 4)).byte 17 = 4 ∧ s.commandOk (entryOf (cmdProfileSet + at8 17 4)) = true ∧ s.owner 0 = some 0 ∧
    (∀ f, f ∈ [0, 1] → let e := entryOf (cmdContextUnload + at8 17 f); e.opcode = cmdContextUnload ∧ s.commandOk e = true ∧ e.byte 17 = f) ∧
    s.streamsIn 0 (fun t => decide (t ≠ .free ∧ t ≠ .done)) = [3] ∧ (inState .done).streamsIn 0 (fun t => decide (t ≠ .free ∧ t ≠ .done)) = [] ∧
    (entryOf cmdTokeniserLoad).opcode = cmdTokeniserLoad ∧ s.commandOk (entryOf cmdTokeniserLoad) = true ∧ s.memOf ((entryOf cmdTokeniserLoad).num 40 47) ≠ some 10 ∧
    s.memOf tier1Base = some 10 ∧ s.mapped tier1Base 64 = true ∧ s.anyMarked tier1Base 64 = false ∧ TokImage.ok (s.tokImage tier1Base) = false ∧ s.tokImage tier1Base ≠ [] ∧
    s.mapped tier1Base (s.tokImage tier1Base).length = true ∧ Tab.find s.tokWait 0 = none ∧ s.streamsIn 0 (fun t => decide (t = .admitted ∨ t = .prefill)) = [3] ∧
    (inState .done).streamsIn 0 (fun t => decide (t = .admitted ∨ t = .prefill)) = [] := by decide +kernel

/-- A forced unload: a stream in DONE leaves at once, one within a decode step is left. -/
def stepping : State := serving { okStream with state := .decode, work := { StreamWork.reset with layer := 1 } }
theorem witness_ContextUnload_forced : let e := entryOf (cmdContextUnload + at8 17 1)
    Tab.find (inState .done).unloads 0 = none ∧ Tab.wf Stream.reset (inState .done).streams = true ∧ (inState .done).unloadWaits 3 = false ∧
    ((inState .done).stream 3).state ≠ .free ∧ stepping.commandOk e = true ∧ Tab.find stepping.unloads 0 = none ∧ Tab.wf Stream.reset stepping.streams = true ∧
    (stepping.stream 3).context = 0 ∧ (stepping.stream 3).state ≠ .free ∧ stepping.unloadWaits 3 = true := by decide +kernel
theorem witness_ContextUnload_all : ∀ st, ((inState .done).stream st).context = 0 → ((inState .done).stream st).state ≠ .free →
    (inState .done).unloadWaits st = false := by
  intro st _ h
  by_cases e : st = 3
  · subst e; decide +kernel
  · exact absurd (show ((inState .done).stream st).state = .free by
      have hs : (inState .done).streams = [(3, { okStream with state := .done })] := by decide +kernel
      unfold State.stream Tab.get
      rw [hs]
      simp [Tab.find, e, Stream.reset]) h

/-! ### Rings -/

def ringOf (kind : Nat) : Ring := { Ring.reset with cfg := BitVec.ofNat 32 (0x20 + kind), enabled := true, phase := true, db := 3 }
def ringing (r : Ring) : State := State.reset.setRing 0 r
theorem witness_Doorbells : let s := ringing (ringOf 0)
    (s.ring 0).enabled = true ∧ (s.ring 0).fn = 0 ∧ s.fnPresent 0 = true ∧ 15 % 65536 < (s.ring 0).size ∧ (s.ring 0).kind = 0 ∧ (s.ring 0).waiting = [] ∧
    (State.reset.ring 0).enabled = false ∧ (s.ring 0).fn ≠ 1 ∧ (s.ring 0).size ≤ 16 := by decide +kernel
theorem witness_Fetches : let s := ringing (ringOf 0)
    s.fetches? 0 = true ∧ (s.ring 0).firstBack = none ∧ s.fetchTurn = some 0 ∧ s.ringPends s.fetchRing = true ∧ s.fetchTaken < 4 ∧
    (let t := { s.setRing 5 (ringOf 0) with fetchTaken := 4 }
     t.ringPends t.fetchRing = true ∧ t.fetchTaken = 4 ∧ t.ringPends 5 = true ∧ t.fetchTurn = some 5 ∧ (t.ring 0).firstBack = none ∧ t.fetchTurn ≠ some 0) ∧ bit 0x100#512 8 = (s.ring 0).phase ∧ bit 0#512 8 ≠ (s.ring 0).phase ∧
    (cmdDef ({ sq := 0, index := 0, bytes := 0x100#512 } : SubEntry).opcode).isSome = true ∧ cmdDef ({ sq := 0, index := 0, bytes := 0x101#512 } : SubEntry).opcode = none ∧
    (∀ n, n ∈ [0, 7] → let t := ringing { ringOf 0 with firstBack := some 8, rereads := n + 1, returned := n }
      t.fetches? 0 = true ∧ (t.ring 0).firstBack.isSome = true ∧ (t.ring 0).returned = n ∧ (t.ring 0).returned < (t.ring 0).rereads) ∧
    (State.reset.fetches? 0 = false) ∧ ((ringing { ringOf 0 with parked := true }).ring 0).parked = true ∧
    (let t := ringing { ringOf 0 with firstBack := some 8, rereads := 7 }; (t.ring 0).firstBack = some 8 ∧ t.fetches? 0 = true ∧ (t.ring 0).rereads < 8) ∧
    8 ≤ ((ringing { ringOf 0 with firstBack := some 8, rereads := 8 }).ring 0).rereads ∧ State.reset.selected 0 = some 0 ∧
    (ringing { ringOf 0 with parked := true }).selected 0 = some 0 ∧ (State.reset.ring 0).parked = false := by decide +kernel
theorem witness_Fetches_inv : (ringing { ringOf 0 with firstBack := some 8, rereads := 8, returned := 7 }).Inv := by unfold State.Inv; decide +kernel
/-- R287: the re-reads of one entry, 250 ns apart. -/
theorem test_reread : (after (.submissionReread 0) (ringing { ringOf 0 with firstBack := some 24, rereads := 1 })).now = 24 + 6000 := by decide +kernel
theorem witness_RingSetUp : (∀ k, k < 3 → let s := ringing { ringOf k with enabled := false }
      s.selected 0 = some 0 ∧ (s.ring 0).enabled = false ∧ (s.ring 0).kind = k ∧ (s.ring 0).waiting = []) ∧ (ringing (ringOf 1)).selected 0 = some 0 ∧
    State.reset.selected 9 = none ∧
    (let s := ringing { ringOf 2 with oldest := some 6, int := 0x00100800#32 }; (s.ring 0).oldest = some 6 ∧ fld (s.ring 0).int 31 20 = 1 ∧ bit (s.ring 0).int 11 = true ∧
      bit ((s.fn (s.ring 0).fn).msixWord (4 * fld (s.ring 0).int 10 0 + 3)) 0 = true ∧
      bit (((s.setFn 0 { FnRegs.reset with msix := [(3, 0#32)] }).fn 0).msixWord 3) 0 = false) ∧ (State.reset.ring 0).oldest = none ∧ State.reset.engines = [] ∧
    (State.reset.ring 0).fn = 0 ∧ ((ringing { ringOf 0 with cfg := 0x320#32 }).ring 0).fn ≠ 0 ∧ ((ringing { ringOf 0 with cfg := 0x320#32 }).ring 0).port ≠ 0 := by
  decide +kernel
/-- An entry of ring 0, whose completions go to ring 1. -/
def completing (r : Ring) : State := ((ringing { ringOf 0 with cfg := 0x00020020#32 }).setRing 1 r)
theorem witness_CommandCompletes : (entryOf cmdNop).opcode = cmdNop ∧ (completing (ringOf 1)).commandOk (entryOf cmdNop) = true ∧
    (completing (ringOf 1)).commandOk { sq := 0, index := 0, bytes := BitVec.ofNat 512 (at8 63 1) } = false ∧
    (((completing (ringOf 1)).ring 0).cq = 1 ∧ ((completing (ringOf 1)).ring 1).enabled = true ∧ ((completing (ringOf 1)).ring 1).kind = 1 ∧
      entryOf cmdNop ∉ (completing (ringOf 1)).orphans ∧ ((completing (ringOf 1)).ring 1).full = false ∧ ((completing (ringOf 1)).ring 1).waiting = [] ∧
      bit ((completing (ringOf 1)).ring 1).int 11 = false) ∧
    (let s := completing { ringOf 1 with enabled := false }; (s.ring 1).enabled = false ∧ (s.ring 1).kind = 1 ∧ entryOf cmdNop ∉ s.orphans) ∧
    ((completing { ringOf 1 with db := 1 }).ring 1).full = true ∧ ((completing Ring.reset).ring 1).enabled = false := by decide +kernel
/-- R284: the record's bytes: type 1, PHASE, status OK, opcode, ring 0, index 0. -/
theorem test_completion : (after (.nop (entryOf cmdNop)) (completing (ringOf 1))).hostMem = [(0, 1#8), (1, 1#8)] := by decide +kernel
theorem witness_CoherentLines : ¬ 64 * 0 ≥ centralSize ∧ centralSize ≤ 64 * 0x1800000 ∧ (5 < 34 ∧ ∃ xs, (5, xs) ∈ [(5, ([] : List (Nat × Byte)))]) := by
  refine ⟨by decide, by decide, by decide, [], by simp⟩
theorem witness_CoherentLines_held : State.reset.l2.length < 131072 ∧ State.reset.dir.length < 1536 ∧ Tab.get [] State.reset.dir 2 = [] ∧
    (let s : State := { State.reset with dir := [(2, [{ port := 4, mesi := .modified }])] }
     ∃ h, h ∈ Tab.get [] s.dir 2 ∧ h.port ≠ 9) := by
  refine ⟨by decide, by decide, by decide, { port := 4, mesi := .modified }, by decide, by decide⟩
/-- R297: a reader takes a line Exclusive; a second one shares it with the first. -/
theorem test_directory_read : let s := after (.directoryRequest 2 [{ port := 9, own := false, stores := [] }] none) State.reset
    Tab.get [] s.dir 2 = [{ port := 9, mesi := .exclusive }] ∧
    Tab.get [] (after (.directoryRequest 2 [{ port := 4, own := false, stores := [] }] none) s).dir 2 =
      [{ port := 9, mesi := .shared }, { port := 4, mesi := .shared }] := by decide +kernel
/-- R299: of two ports that store to one byte, the higher one's store stands. -/
theorem test_directory : (after (.directoryRequest 2 [{ port := 9, own := true, stores := [(3, 1#8)] }, { port := 4, own := true, stores := [(3, 2#8)] }] none) State.reset).byte 131 = 1#8 := by decide +kernel

/-! ### DMA -/

def chan0 (bad : Bool) : DmaChan := { head := 0x1000, headSpace := 0, task := 64, host := 0, tag := 7, cmd := none, bad := bad }
def dmaRun (d : Option (BitVec 512)) : DmaRun :=
  { chan := chan0 false, fetch := none, desc := d, next := none, stop := none, descs := 2, issued := [], badSource := false, ended := none }
/-- Engine 2 enabled, with a completion queue of 16 entries at 0x10000, as given. -/
def engine (e : DmaEngine) : State :=
  { State.reset.setRing 0 { Ring.reset with cfg := 0x10200#32 } with engines := [(2, e)] } |>.setReg (engReg 2 0) 1#32 |>.setReg (engReg 2 8) 0x10000#32 |>.setReg (engReg 2 0x10) 4#32
/-- COPY of one element of 4 bytes from 0x2000 to 0x3000 with LAST; FILL; FENCE; SIGNAL. -/
def dCopy : BitVec 512 := BitVec.ofNat 512 (1 + 2 ^ 8 + 2 * 2 ^ 24 + 0x2000 * 2 ^ 64 + 0x3000 * 2 ^ 128)
def dFill : BitVec 512 := BitVec.ofNat 512 (2 + 2 * 2 ^ 24 + 0xAB * 2 ^ 64 + 0x3000 * 2 ^ 128)
def startE (n : Nat) : SubEntry := entryOf (cmdDmaStart + at8 16 n + at8 17 64 + at8 24 0x1000)
theorem witness_DmaChannelsStart : (engine DmaEngine.reset).engOn 2 = true ∧ ((engine DmaEngine.reset).eng 2).queue.length < 64 ∧ (State.reset.setReg (engReg 2 0) 0#32).engOn 2 = false ∧
    64 ≤ ((engine { queue := List.replicate 64 (chan0 false), run := none }).eng 2).queue.length ∧ (startE 2).opcode = cmdDmaStart ∧
    (engine DmaEngine.reset).commandOk (startE 2) = true ∧ (startE 2).byte 16 = 2 ∧ 96 ≤ (startE 96).byte 16 ∧ (engine DmaEngine.reset).commandOk (startE 96) = true ∧
    ((engine DmaEngine.reset).setReg (engReg 2 0) 0#32).engOn 2 = false ∧
    (∀ b, b ∈ [true, false] → let s := engine { queue := [chan0 b], run := none }
      (s.eng 2).run = none ∧ (s.eng 2).queue = chan0 b :: [] ∧ s.newWork = true ∧ (chan0 b).bad = b ∧ s.fetchOk (chan0 b) (chan0 b).head = true) ∧
    ((engine { queue := [], run := some (dmaRun none) }).eng 2).run.isSome = true := by decide +kernel
theorem witness_DmaChain : (let r := { dmaRun none with fetch := some (0x1000, 30) }; let s := (engine { queue := [], run := some r }).writeLE 0x1000 64 dCopy.toNat
      (s.eng 2).run = some r ∧ r.ended = none ∧ r.next = none ∧ r.stop = none ∧ s.marked 0x1000 = false ∧ s.readLE 0x1000 64 = dCopy.toNat ∧ State.reset.descOk 64 dCopy = true ∧
      (s.markLine 0x1000).marked 0x1000 = true ∧ State.reset.descOk 64 0#512 = false) ∧
    (let s := engine { queue := [], run := some { dmaRun none with ended := some 0 } }; s.cqRoom 2 = true ∧ s.rfld (engReg 2 0x10) 20 17 ≤ 8 ∧
      (s.setReg (engReg 2 0x14) 15#32).cqRoom 2 = false ∧ ((s.setReg (engReg 2 0x14) 15#32).setRfld (engReg 2 0x18) 15 0 1).cqRoom 2 = true) := by decide +kernel
theorem witness_DmaDescriptorsRun_state : ∀ d, ((engine { queue := [], run := some (dmaRun (some d)) }).eng 2).run = some (dmaRun (some d)) ∧ (dmaRun (some d)).desc = some d ∧
    (dmaRun (some d)).ended = none := fun _ => ⟨rfl, rfl, rfl⟩
theorem witness_DmaDescriptorsRun : DmaDesc.op dCopy = 1 ∧ DmaDesc.space dCopy true ≤ 1 ∧ DmaDesc.space dCopy false = 0 ∧ (∀ i, i < 3 → DmaDesc.count dCopy i = 0) ∧ DmaDesc.wrap dCopy true = false ∧
    DmaDesc.wrap dCopy false = false ∧ DmaDesc.op dFill = 2 ∧ DmaDesc.space dFill true = 0 ∧ (∀ i, i < 3 → DmaDesc.count dFill i = 0) ∧ DmaDesc.wrap dFill true = false ∧
    DmaDesc.op 3#512 = 3 ∧ DmaDesc.op 4#512 = 4 ∧ DmaDesc.last dCopy = true ∧ DmaDesc.last dFill = false ∧ (dmaRun none).descs + 1 < (engine DmaEngine.reset).engCap 2 ∧
    ((engine DmaEngine.reset).setRfld (engReg 2 4) 16 0 3).engCap 2 ≤ (dmaRun none).descs + 1 := by decide +kernel
def write0 : PendWrite := { id := 5, due := 44, owner := .engine 2, mem := 8, parts := [(0x3000, [9#8])], marked := [], incs := [{ key := cntKey 8 1, amount := 3 }]
                            after := [], outbound := false, hadPartials := false }
theorem witness_DmaFence : let r := { dmaRun (some 3#512) with issued := [5] }; let s : State := { engine { queue := [], run := some r } with writes := [write0] }
    (∃ w, w ∈ s.writes ∧ w.id ∈ r.issued) ∧ (∃ w, w ∈ s.writes ∧ w.id ∈ r.issued ∧ w.mem = 8) ∧ DmaDesc.counterMem (4#512 + BitVec.ofNat 512 (8 * 2 ^ 60)) = 8 ∧
    (∀ w, w ∈ s.writes → w.id ∉ (dmaRun none).issued) ∧ (∀ w, w ∈ s.writes → w.id ∈ r.issued → w.mem ≠ DmaDesc.counterMem 4#512) := by decide +kernel
/-- R312: FILL of one element of 4 bytes from the low bytes of the SRC field. -/
theorem test_fill : (after (.fill 2) (engine { queue := [], run := some (dmaRun (some dFill)) })).writes.map PendWrite.parts = [[(0x3000, [0xAB#8, 0#8, 0#8, 0#8])]] := by
  decide +kernel
theorem witness_DmaTimeouts : (let s := engine { queue := [], run := some (dmaRun (some dCopy)) }; (s.eng 2).run = some (dmaRun (some dCopy)) ∧ (dmaRun (some dCopy)).ended = none ∧ s.cqRoom 2 = true) ∧
    (let r := { dmaRun none with fetch := some (0x1000, 30) }; let s := engine { queue := [], run := some r }; (s.eng 2).run = some r ∧ r.ended = none) ∧
    (State.reset.eng 2).run = none ∧ State.reset.isMgmt 1 = true ∧ State.reset.isMgmt 0 = false ∧ (engine DmaEngine.reset).engOn 2 = true ∧ (State.reset.setReg (engReg 2 0) 0#32).engOn 2 = false ∧
    State.reset.rfld 0x78000 15 12 ≤ 8 := by decide +kernel
theorem witness_WritesArrive : let s : State := { State.reset with writes := [write0, { write0 with id := 6, parts := [], incs := [] }, { write0 with id := 7, owner := .gallery 0, outbound := true, after := [5] }] }
    s.writes[0]? = some write0 ∧ writeFree s.writes 0 = true ∧ s.writes[1]? = some { write0 with id := 6, parts := [], incs := [] } ∧ s.writes.length ≤ 3 ∧
    (∃ v, v ∈ s.writes ∧ v.id ∈ [5]) ∧
    (let u : State := { State.reset with writes := [{ write0 with owner := .gallery 0, outbound := true }] }; writeFree u.writes 0 = true) := by decide +kernel
/-- A store and a read of the narrow view of the central store's first bank. -/
def narrow0 : NarrowAccess := { task := 64, addr := 0x3000, store := some (List.replicate 8 7#8) }
def narrow1 : NarrowAccess := { task := 64, addr := 0x3000, store := none }
theorem witness_WritesArrive_narrow : let s : State := { State.reset with writes := [write0] }
    (s.at write0.due).narrowOk narrow0 = true ∧ (s.at write0.due).narrowOk narrow1 = true ∧ s.t1Retired = [] ∧
    (s.at write0.due).narrowOk { narrow0 with task := 0 } = false ∧ (∀ p, p ∈ write0.parts → 0x3001 < p.1 ∨ p.1 + p.2.length ≤ 0x3001) := by decide +kernel
/-- R326: both views write byte 0x3000 in one cycle; a read of that cycle gives what was there. -/
theorem test_narrow_port : let s := after (.writeArrival 0 [narrow0, narrow1]) ({ State.reset with writes := [write0] }.writeLE 0x3000 1 5)
    s.byte 0x3000 = 9#8 ∧ s.byte 0x3001 = 7#8 ∧ s.portReads = [(0x3000, 5#8 :: List.replicate 7 0#8)] := by decide +kernel
theorem witness_Scoreboard_test : let s : State := { State.reset with test := some { test := 1, target := 8, addr := 0, len := 8192, startAt := 0 } }
    (∃ e, e ∈ s.testChunk 8 ∧ 64 < e.addr + e.len ∧ e.addr < 64 + 64) ∧ s.testChunk 7 = [] ∧ s.underTest 8 0x40 1 = true := by decide +kernel
theorem witness_Scoreboard : (let s : State := { State.reset with scoreboard := [(8, [{ addr := 0, len := 64, until_ := 90 }])] };
      (∀ e, e ∈ (Tab.get [] s.scoreboard 8).filter (fun e => decide (s.now < e.until_)) → ¬ (128 < e.addr + e.len ∧ e.addr < 128 + 64)) ∧
      (∃ e, e ∈ (Tab.get [] s.scoreboard 8).filter (fun e => decide (s.now < e.until_)) ∧ (32 < e.addr + e.len ∧ e.addr < 32 + 64))) ∧
    (let s : State := { State.reset with scoreboard := [(8, List.replicate 32 { addr := 0, len := 64, until_ := 90 })] };
      32 ≤ ((Tab.get [] s.scoreboard 8).filter (fun e => decide (s.now < e.until_))).length) := by decide +kernel
/-- R329: an arrival counter saturates at 0xFFFF_FFFF. -/
theorem test_counter_saturates : (after (.writeArrival 0 []) (({ State.reset with writes := [write0] } : State).setCounter (cntKey 8 1) 0xFFFFFFFE)).counter (cntKey 8 1) = 0xFFFFFFFF := by
  decide +kernel

/-! ### Memory tiers -/

def nvme0 (wr : Bool) : NvmeCmd := { port := 1, write := wr, vol := 0, lba := 0, blocks := 1, addr := 0x1000, owner := .firmware, last := true }
/-- The patrol enabled, CXL on the B0 port with 1 GiB exposed. -/
def tiers : State := { (((kvReady.setRbit 0x9000C 10 true).setRbit 0x50108 8 true).setRfld 0x50100 16 8 1) with drives := [1], driveReset := [(1, 77)] }
theorem witness_MemoryTiers_access : tiers.memOf 0x40 = some 8 ∧ tiers.underTest 8 (0x40 - memBase 8) 1 = false ∧
    (let s : State := { tiers with test := some { test := 1, target := 8, addr := 0, len := 8192, startAt := 0 } }
     s.memOf 0x40 = some 8 ∧ s.underTest 8 (0x40 - memBase 8) 1 = true) := by decide +kernel
/-- R408: an ordinary access of context 5 that finds an uncorrectable line marks it and counts, the patrol off. -/
theorem test_access_error : let s := after (.patrolRead 0x40 2 (some (some 5))) kvReady
    s.marked 0x40 = true ∧ s.reg (0x90104 + 64) = 1#32 := by decide +kernel
theorem witness_MemoryTiers : tiers.memOf 0x40 = some 8 ∧ bit (tiers.reg 0x9000C) 10 = true ∧ tiers.marked 0x40 = false ∧ tiers.memOf 0x90000000 = none ∧
    (tiers.markLine 0x40).marked 0x40 = true ∧ 0 ∈ tiers.t1Channels ∧ 0 ∉ tiers.t1Retired ∧ 5 ∉ tiers.t1Channels ∧ 1 ∈ tiers.hbmStacks ∧
    (nvme0 false).port ∉ tiers.drivesRetired ∧ (nvme0 false).owner = .firmware ∧ (nvme0 false).write = false ∧ nvme0 false ∉ tiers.nvmeRetried ∧
    nvme0 false ∈ ({ tiers with nvmeRetried := [nvme0 false] } : State).nvmeRetried ∧ 1 ∈ tiers.drives ∧ 1 ∉ tiers.drivesRetired ∧ Tab.find tiers.driveReset 1 = some 77 ∧
    2 ∉ tiers.drives ∧ Tab.find tiers.driveReset 2 = none ∧ bit (tiers.reg 0x50108) 8 = true ∧ 64 < tiers.rfld 0x50100 16 8 * gib ∧
    tiers.mapped (tier1Base + tiers.rfld 0x50104 10 0 * gib + 64) 64 = true ∧ tiers.rfld 0x50100 16 8 * gib ≤ gib ∧ bit (State.reset.reg 0x50108) 8 = false := by decide +kernel
/-- R338, R341: a firmware read of one block lands, and the tier-2 reads are counted. -/
theorem test_cxl_read : (after (.cxlMemRequest 64 none) tiers).lastLine = some (List.replicate 64 0#8) := by decide +kernel

/-! ### Links -/

/-- Link 3 as given, of package 5. -/
def linked (k : Link) : State := { State.reset.setReg 0x80000 5#32 with links := [(3, k)] }
def upLink : Link := { Link.reset with state := 2, peer := 9, greeted := true, sent := [50, 50, 50], freed := [50, 50, 50] }
/-- The 24 bytes of a message header of a kind, a destination and a source, without body. -/
def header (kind dest : Nat) : List Byte := natLE 24 (kind + dest * 2 ^ 16 + 9 * 2 ^ 32)
theorem witness_DataFlits : (linked Link.reset |>.lnk 3).up = false ∧ (linked upLink |>.lnk 3).up = true ∧ (linked upLink |>.lnk 3).expected = 0 ∧
    ((linked upLink).now :: ((linked upLink).lnk 3).crcTimes.filter (fun x => decide ((linked upLink).now ≤ x + sec 1))).length ≤ 1000 ∧ 7 % 4096 ≠ (linked upLink |>.lnk 3).expected ∧
    (∀ p, p ∈ [(1, 5), (2, 6), (3, 0)] → let m := Sys2Proof.Claims.messageOf 3 (Sys2Proof.Claims.joined upLink 0 true (header p.1 p.2))
      24 ≤ (Sys2Proof.Claims.joined upLink 0 true (header p.1 p.2)).length ∧ m.body.length = tblNum (Sys2Proof.Claims.joined upLink 0 true (header p.1 p.2)) 8 4 ∧
      m.body.length ≤ 65536 ∧ m.kind = p.1 ∧ m.dest = p.2 ∧ m.msgNo ∉ (Tab.get { last := [], begun := false } (linked upLink).flows (flowKey m.kind m.src m.flow m.dest)).last) ∧
    (linked upLink).pkgId = 5 ∧ (upLink.partials.getD 0 none).isSome = false := by decide +kernel
theorem witness_DataFlits_crc : let k := { upLink with crcTimes := List.replicate 1000 0 }
    1000 < ((linked k).now :: ((linked k).lnk 3).crcTimes.filter (fun x => decide ((linked k).now ≤ x + sec 1))).length := by decide +kernel
def sentF (n : Nat) : SentFlit := { seq := n, uid := 1, vc := 0, last := true }
theorem witness_LinkControlRecords : let k := { upLink with replay := [sentF 0, sentF 1], nextSeq := 2 }
    ((linked k).lnk 3).alive = true ∧ ((linked k).lnk 3).replay.findIdx? (fun f => decide (f.seq = 1 % 4096)) = some 1 ∧
    ((linked k).lnk 3).replay.any (fun f => decide (f.seq = 1 % 4096)) = true ∧ (if k.resendSeq = 1 % 4096 then k.resends else 0) < 8 ∧
    (let j := { k with resendSeq := 1, resends := 8 }; ((linked j).lnk 3).alive = true ∧ 8 ≤ (if j.resendSeq = 1 % 4096 then j.resends else 0)) ∧
    ((linked Link.reset).lnk 3).alive = false ∧ ((linked k).lnk 3).replay.any (fun f => decide (f.seq = 4 % 4096)) = false := by decide +kernel
/-- R350: an ACK empties the replay buffer up to its SEQ. -/
theorem test_ack : ((after (.ack 3 0) (linked { upLink with replay := [sentF 0, sentF 1], nextSeq := 2 })).lnk 3).replay = [sentF 1] := by decide +kernel
def member : State := { linked upLink with members := [(9, 4)], windows := [(65536 * 9 + 2, { base := 0x1000, len := 8, counter := cntKey 8 1 })] }
theorem witness_HelloAndReset : ((linked upLink).lnk 3).alive = true ∧ Tab.find (linked upLink).members (9 % 4096) ≠ some (4 % 65536) ∧ (member.lnk 3).alive = true ∧
    Tab.find member.members (9 % 4096) = some (4 % 65536) ∧ Tab.wf Link.reset member.links = true ∧ (member.lnk 3).peer = 9 % 4096 ∧ ((linked Link.reset).lnk 3).alive = false := by
  decide +kernel
theorem witness_LinkTimers : ((linked upLink).lnk 3).alive = true ∧ ((linked { Link.reset with state := 0 }).lnk 3).state = 0 ∧ State.reset.borderOut (3 / 48) = false ∧
    ((linked { Link.reset with state := 1 }).lnk 3).state = 1 ∧ ((linked { Link.reset with state := 1 }).lnk 3).trainFails < 2 ∧
    2 ≤ ((linked { Link.reset with state := 1, trainFails := 2 }).lnk 3).trainFails ∧
    (let k := { upLink with retrainTimes := [us 2, us 2, us 2, us 2], lastFlit := 0 }
     4 < (max 0 (k.lastFlit + us 2) :: k.retrainTimes.filter (fun x => decide (max 0 (k.lastFlit + us 2) ≤ x + sec 60))).length) := by decide +kernel
theorem witness_LinkReenableAndHold : let s := fun (k : Link) => (linked k).setReg 0x80010 3#32
    (s upLink).isMgmt 1 = true ∧ (s upLink).isMgmt 0 = false ∧ (s upLink).rfld 0x80010 6 0 = 3 ∧ ((s upLink).lnk 3).state ≠ 5 ∧
    (let k := { Link.reset with state := 5 }; ((s k).lnk 3).state = 5 ∧ ((s k).lnk 3).hold = false) ∧ ((s { Link.reset with state := 5, hold := true }).lnk 3).hold = true ∧
    Tab.wf Link.reset (s upLink).links = true ∧ (s upLink).members = [] ∧ 96 ≤ (State.reset.setReg 0x80010 100#32).rfld 0x80010 6 0 := by decide +kernel
def msg (kind : Nat) : RxMsg := { link := 3, kind := kind, flags := 0, dest := 5, src := 9, flow := 2, msgNo := 0, offset := 4, body := [1#8, 2#8] }
def arrived (kind : Nat) : State := { member with fabIn := [msg kind] }
theorem witness_Adverts : ((linked upLink).lnk 3).up = true ∧ (arrived 3).fabIn.find? (fun m => decide (m.kind = 3)) = some (msg 3) ∧ (arrived 3).pkgId = 5 ∧ (arrived 3).incarnation = 0 ∧
    0 ≤ (arrived 3).advertSeq ∧ ((arrived 3).lnk 3).alive = true ∧
    Tab.find ({ arrived 3 with adverts := [(9, { inc := 4, seq := 8, links := [], slots := 0 })] } : State).adverts 9 = some { inc := 4, seq := 8, links := [], slots := 0 } ∧
    Tab.find (arrived 3).members 8 = none ∧ Tab.find (arrived 3).adverts 8 = none ∧ (arrived 1).fabIn.find? (fun m => decide (m.kind = 3)) = none := by decide +kernel
theorem witness_FabricMessages : (arrived 1).fabIn.find? (fun m => decide (m.kind = 1)) = some (msg 1) ∧
    Tab.find (arrived 1).windows (65536 * (msg 1).src + (msg 1).flow) = some { base := 0x1000, len := 8, counter := cntKey 8 1 } ∧ (msg 1).offset + (msg 1).body.length ≤ 8 ∧
    Tab.find ({ arrived 1 with windows := [] } : State).windows (65536 * (msg 1).src + (msg 1).flow) = none ∧ (arrived 2).fabIn.find? (fun m => decide (m.kind = 1)) = none ∧
    (arrived 2).fabIn.find? (fun m => decide (m.kind = 2)) = some (msg 2) ∧
    (let s := (arrived 2).setStream 3 { Stream.reset with state := .prefill, remote := true, peer := 9 }; (s.stream 3).state = .prefill ∧ (s.stream 3).remote = true ∧ (s.stream 3).peer = (msg 2).src ∧ s.allPages 3 (s.stream 3).positions = false) ∧
    (let s := { paged pte0 with fabIn := [msg 2] }.modStream 3 (fun x => { x with state := .prefill, remote := true, peer := 9, promptLen := 1 })
     (s.stream 3).remote = true ∧ s.allPages 3 (s.stream 3).positions = true) := by
  decide +kernel
/-- R355: bytes that leave the window drop the message. -/
theorem test_write_window : (after (.write none) { arrived 1 with windows := [(65536 * 9 + 2, { base := 0x1000, len := 5, counter := cntKey 8 1 })] }).reg 0x8002C = 1#32 ∧
    (after (.write none) (arrived 1)).byte 0x1005 = 2#8 := by decide +kernel
/-- Tree 1: link 3 to the parent, link 4 a child edge; a message of the tree waits. -/
def treed (freed : Nat) (from_ : Nat) : State :=
  { linked upLink with links := [(3, upLink), (4, { upLink with freed := [50, 50, freed] })], treeMap := [(16, 0x00021000#32)], fabIn := [{ msg 4 with dest := 1, link := from_ }] }
theorem witness_Bcast : let s := treed 50 3; let m := { msg 4 with dest := 1, link := 3 }
    s.fabIn.find? (fun m => decide (m.kind = 4) && decide (m.msgNo = (s.tree m.dest).next)) = some m ∧ s.treeRole m.dest m.link = 1 ∧
    s.treeLinks m.dest = [(0, 4)] ∧ (∀ p, p ∈ s.treeLinks m.dest → (s.lnk p.2).credit 2 ≠ 0) ∧ s.loads = [] ∧ (treed 50 4).treeRole 1 4 ≠ 1 ∧
    (∃ p, p ∈ (treed 65522 3).treeLinks 1 ∧ ((treed 65522 3).lnk p.2).credit 2 = 0) ∧
    (arrived 1).fabIn.find? (fun m => decide (m.kind = 4) && decide (m.msgNo = ((arrived 1).tree m.dest).next)) = none := by decide +kernel

/-! ### Registers and snapshots -/

/-- R282: a 64-bit access writes the lower address first. -/
theorem test_wide_write : let s := after (.registerWrite 0 (galReg 0 0x10) (5 + 6 * 2 ^ 32) 8) State.reset
    s = after (.registerWrite 0 (galReg 0 0x14) 6 4) (after (.registerWrite 0 (galReg 0 0x10) 5 4) State.reset) := by decide +kernel
theorem witness_RegisterWritesIgnored : (let s := State.reset.setFn 0 { FnRegs.reset with d3hot := true }; (s.fn 0).d3hot = true ∧ s.fnPresent 0 = false) ∧ 6 % 4 ≠ 0 ∧ State.reset.fnPresent 3 = false ∧ regDef 0xF0000 = none ∧ Sys2Proof.Claims.hostRange 0xF0000 = false ∧ mgmtOnly 0x1001C = true ∧
    State.reset.isMgmt 0 = false ∧ (withGal { readyGal with retired := true }).gal 0 = { readyGal with retired := true } ∧
    ({ State.reset with power := { Power.reset with hallsOut := [2], ready := some 0 } } : State).hallGone (galReg 1024 0) = true := by decide +kernel
theorem witness_RegisterWritesTake : State.reset.fnPresent 0 = true ∧ (State.reset.gal 0).retired = false ∧ State.reset.hallGone (galReg 0 0) = false ∧ State.reset.isMgmt 1 = true ∧
    State.reset.fnPresent 1 = true := by decide +kernel
/-- R97: GAL_BUDGET_WAITED clears the bits written 1. -/
theorem test_waited_w1c : (after (.registerWrite 0 (galReg 0 0x2C) 3 4) (State.reset.setReg (galReg 0 0x2C) 7#32)).reg (galReg 0 0x2C) = 4#32 := by decide +kernel
theorem witness_RingAndVectorWrites : (State.reset.ring 0).fn = 0 ∧ (State.reset.ring 0).enabled = false ∧ fld (State.reset.fn 0).ringSel 12 0 = 0 ∧ (State.reset.ring 0).fn ≠ 1 ∧
    State.reset.fnPresent 1 = true ∧ (let s := State.reset.setFn 0 { FnRegs.reset with pba := [(0, 4#32)] }; bit (Tab.get 0#32 (s.fn 0).pba (2 / 32)) (2 % 32) = true) ∧
    bit (Tab.get 0#32 (State.reset.fn 0).pba (2 / 32)) (2 % 32) = false := by decide +kernel
theorem witness_ReadsWithEffects : State.reset.fnPresent 0 = true ∧ State.reset.fnPresent 9 = false := by decide +kernel
/-- R438: at 2^32 + 5 ns TB_LO reads 5 and TB_HI 1. -/
theorem test_tb : let s := after .tbLoRead { State.reset with tbStart := some 0, now := 12 * (2 ^ 32 + 5) }
    s.lastRead = 5#64 ∧ s.tbHi = 1#32 := by decide +kernel
/-- A SNAPSHOT for an instant; entry of ring 0 of the management function. -/
def snapE (rel u bad : Nat) : SubEntry := entryOf (0x30 + at8 16 u + at8 24 rel + at8 25 bad)
def snapping : State := State.reset.setRing 0 { Ring.reset with cfg := 0x10200#32 }
theorem snapE_zero (rel u bad : Nat) (i : Nat) (h : 26 ≤ i) (k : i < 64) (hr : rel < 256) (hu : u < 2 ^ 64) (hb : bad < 256) : (snapE rel u bad).byte i = 0 := by
  have e : (BitVec.ofNat 512 (0x30 + at8 16 u + at8 24 rel + at8 25 bad)).toNat = 0x30 + at8 16 u + at8 24 rel + at8 25 bad := by
    rw [BitVec.toNat_ofNat]
    apply Nat.mod_eq_of_lt
    unfold at8
    omega
  unfold snapE entryOf SubEntry.byte fld
  rw [e]
  unfold at8
  have h1 : 0x30 + u * 256 ^ 16 + rel * 256 ^ 24 + bad * 256 ^ 25 < 2 ^ (8 * i) :=
    Nat.lt_of_lt_of_le (by omega : _ < 2 ^ 208) (Nat.pow_le_pow_right (by decide) (by omega))
  simp only [Nat.shiftRight_eq_div_pow]
  rw [Nat.div_eq_of_lt h1]
  exact Nat.zero_mod _
theorem witness_SnapshotAccepted : (∀ p, p ∈ [(0, 2000, 0), (1, 1000000000, 0), (0, 1999, 0), (2, 0, 0), (0, 0, 1)] →
      (snapE p.1 p.2.1 p.2.2).opcode = 0x30 ∧ snapping.isMgmt (snapping.ring (snapE p.1 p.2.1 p.2.2).sq).fn = true ∧
      (∀ i, i < 8 → 1 ≤ i → (snapE p.1 p.2.1 p.2.2).byte i = 0) ∧ (snapE p.1 p.2.1 p.2.2).byte 24 = p.1 ∧ (snapE p.1 p.2.1 p.2.2).byte 25 = p.2.2 ∧
      (snapE p.1 p.2.1 p.2.2).num 16 23 = p.2.1) ∧ snapping.time.toNat = 0 ∧ snapping.snapDue = none ∧
    ({ snapping with snapDue := some (snapE 0 2000 0, 2000) } : State).snapDue.isSome = true := by decide +kernel
theorem witness_SnapshotLatches : State.reset.snapDue = none ∧ ({ snapping with snapDue := some (snapE 0 2000 0, 2000) } : State).snapDue = some (snapE 0 2000 0, 2000) ∧
    0x40018 ∈ latchAll ∧ (State.reset.snap = none ∧ bit (State.reset.fn 0).snapView 0 = false) ∧
    (let s := { State.reset.setFn 0 { FnRegs.reset with snapView := 1#32 } with snap := some { epoch := 1, instant := 0#64, regs := [] } }
     s.snap = some { epoch := 1, instant := 0#64, regs := [] } ∧ bit (s.fn 0).snapView 0 = true) := by decide +kernel
theorem witness_StepReplays_runs : ((inState .decode).stream 3).state = .decode ∧ (inState .decode).jobsOf 3 = false ∧ ((inState .decode).stream 3).kvDir = 0 ∧
    ((inState .free).stream 3).state ≠ .decode ∧ ((inState .free).stream 3).state ≠ .prefill ∧ ({ inState .decode with attQueue := [attJob 1 0] } : State).jobsOf 3 = true := by
  decide +kernel
/-- R421: a matrix without a wide copy, its gallery suspect or no longer so. -/
theorem witness_StepReplays_wide : (inState .decode).replays 0 1 = true ∧ (inState .decode).replays 0 3 = false ∧ (inState .decode).noWide 0 = [] ∧
    (let s : State := { inState .decode with contexts := [(0, { Context.reset with live := true, matrices := 1, layers := 1 })] }
     s.noWide 0 = [0] ∧ s.replays 0 0 = true ∧
     (let t := ((s.setReg (galReg 0 0xC0) 0x40#32).setGal 0 { readyGal with suspect := true }).setArr 0 recArr
      t.noWideSuspect 0 = true)) := by decide +kernel

/-! ### The whole machine -/

theorem witness_EveryCommandCompletes : (1 ≤ dnum 1#512 0 0 ∧ dnum 1#512 0 0 ≤ 6) ∧ 7 ≤ dnum 9#512 0 0 ∧ dnum 0#512 0 0 = 0 := by decide +kernel
theorem witness_EmptyQueueIdles : State.reset.pending = [] ∧ step State.reset = .next { State.reset with now := 1 } := ⟨rfl, rfl⟩
theorem witness_QueueInOrder : exec .vddAonLoss State.reset = .next (after .vddAonLoss State.reset) ∧
    step { State.reset with pending := [.ringResume 0, .retry] } = .next { State.reset with pending := [.retry] } := ⟨rfl, rfl⟩
theorem witness_StepKeepsInvariant : State.reset.Inv ∧ step State.reset = .next { State.reset with now := 1 } := ⟨by unfold State.Inv; decide +kernel, rfl⟩
theorem witness_ResetRegisters : (State.reset.gal 4095).power = .deep ∧ State.reset.reg (galReg 4095 0x80) = 0xA0E96#32 ∧ State.reset.pkg = 1 := by decide +kernel
theorem witness_ScaleDecoding : (0xF8#8 : BitVec 8).toNat / 8 = 31 ∧ (0x00#8 : BitVec 8).toNat = 0 ∧ (0x78#8 : BitVec 8).toNat / 8 = 15 ∧ S8.isPoison 0xF7#8 = false := by decide +kernel

end Sys2Proof.Tests
end

section
/-! SUPPORT. Where the registers of a gallery window lie and which rows they have (R67, R434). -/

namespace Sys2Proof.Machine

/-- A gallery's window lies in its hall's block, apart from every other block of BAR0 (R434). -/
theorem regPlace_galReg {k w : Nat} (hk : k < 4096) (hw : w < 256) : regPlace (galReg k w) = .gallery (k / 512) (k % 512) w := by
  have hh : k / 512 < 8 := by omega
  have hg : k % 512 < 512 := Nat.mod_lt _ (by decide)
  unfold galReg
  generalize k / 512 = h at hh ⊢
  generalize k % 512 = g at hg ⊢
  have hwin : (0x100000 + h * 0x40000 + 0x20000 + g * 0x100 + w) % 0x40000 = 0x20000 + (g * 0x100 + w) := by omega
  have hhall : (0x100000 + h * 0x40000 + 0x20000 + g * 0x100 + w - 0x100000) / 0x40000 = h := by omega
  have hgal : (g * 0x100 + w) / 0x100 = g := by omega
  have hoff : (0x100000 + h * 0x40000 + 0x20000 + g * 0x100 + w) % 0x100 = w := by omega
  rw [regPlace, hwin, if_pos ⟨by omega, by omega, Nat.le_add_right _ _⟩, hhall, Nat.add_sub_cancel_left, hgal, hoff]

/-- The table row of a gallery register is the row of its offset in the window. -/
theorem regDef_galReg {k w : Nat} (hk : k < 4096) (hw : w < 256) : regDef (galReg k w) = galRegs.find? (RegDef.covers · w) := by
  rw [regDef, regPlace_galReg hk hw]

end Sys2Proof.Machine
end

section
/-! PROOFS. The registers right after reset: O59. -/

namespace Sys2Proof.Machine

/-- A register that the table does not list holds its reset value. -/
theorem State.reg_of_unlisted {s : State} {o : Nat} (h : Tab.find s.bar0 o = none) : s.reg o = regReset o := by
  rw [State.reg, Tab.get, h, Option.getD_none]

/-- After reset a gallery register holds what the row of its offset gives. -/
theorem State.reg_reset_galReg {k w v : Nat} (hk : k < 4096) (hw : w < 256)
    (hr : (galRegs.find? (RegDef.covers · w)).map RegDef.reset = some v) : State.reset.reg (galReg k w) = BitVec.ofNat 32 v := by
  obtain ⟨r, hrow, rfl⟩ := Option.map_eq_some_iff.1 hr
  rw [State.reg_of_unlisted (Tab.find_nil _), regReset, regDef_galReg hk hw, hrow]

/-- Settles O59: no table lists anything after reset, so every register reads its row's reset value. -/
theorem resetState : Obligations.ResetState := by
  refine ⟨⟨State.inv_reset, rfl⟩, fun k hk => ?_, rfl, rfl, rfl, rfl, fun _ => rfl, fun _ => rfl, rfl⟩
  have hreg {w v : Nat} (hw : w < 256) (hr : (galRegs.find? (RegDef.covers · w)).map RegDef.reset = some v) :=
    State.reg_reset_galReg hk hw hr
  refine ⟨hreg ?_ rfl, hreg ?_ rfl, hreg ?_ rfl, hreg ?_ rfl, hreg ?_ rfl, hreg ?_ rfl, hreg ?_ rfl, rfl, rfl⟩ <;> decide

end Sys2Proof.Machine
end

section
/-! SUPPORT. What the access of a register write does before its register's row, who may write, and where the write goes (R11, R279,
R282, R435). -/

namespace Sys2Proof.Machine

open Sys2Proof.Claims

/-! ### What a stored write leaves -/

theorem State.storeReg_of_row {s : State} {o : Nat} {r : RegDef} (hr : regDef o = some r) (v : Word) :
    s.storeReg o v = s.setReg o (r.write (s.reg o) v) := by
  rw [State.storeReg, hr]

theorem State.storeReg_reserved {s : State} {o : Nat} (hr : regDef o = none) (v : Word) : s.storeReg o v = s := by
  rw [State.storeReg, hr]

@[simp] theorem word_and_ones (x : Word) : x &&& 0xFFFFFFFF#32 = x := BitVec.and_allOnes

/-- A row without write-1 fields, whose RW bits are those of `m`. -/
def RegDef.plain (m : Word) (r : RegDef) : Bool := decide (BitVec.ofNat 32 r.rw = m ∧ r.w1c = 0 ∧ r.w1s = 0)

/-- R11: a plain register takes its RW bits and keeps the others. -/
theorem RegDef.write_of_plain {r : RegDef} {m : Word} (h : r.plain m = true) (old v : Word) :
    r.write old v = (old &&& ~~~ m) ||| (v &&& m) := by
  obtain ⟨hrw, hc, hs⟩ := of_decide_eq_true h
  simp [RegDef.write, hrw, hc, hs]

theorem regBecomes_setReg (s : State) (o : Nat) (v : Word) : regBecomes o v s (s.setReg o v) :=
  ⟨s.reg_setReg o v, fun _ hp => s.reg_setReg_other v (by simpa using hp), rfl⟩

theorem fnBecomes_setFn (s : State) (fn : Nat) (f : FnRegs) : fnBecomes fn f s (s.setFn fn f) :=
  ⟨s.fn_setFn fn f, fun _ hi => s.fn_setFn_other f hi, rfl⟩

/-! ### The access (R11, R282) -/

theorem exec_registerWrite (s : State) (fn o v width : Nat) : exec (.registerWrite fn o v width) s = execRegisterWrite fn o v s width := rfl

theorem exec_registerWrite_word {o : Nat} (ho : o % 4 = 0) (s : State) (fn v : Nat) :
    exec (.registerWrite fn o v 4) s = next (s.writeReg fn o (BitVec.ofNat 32 v)) := if_pos ⟨rfl, ho⟩

theorem exec_registerWrite_double {o : Nat} (ho : o % 8 = 0) (s : State) (fn v : Nat) :
    exec (.registerWrite fn o v 8) s =
      next ((s.writeReg fn o (BitVec.ofNat 32 v)).writeReg fn (o + 4) (BitVec.ofNat 32 (v / 2 ^ 32))) := by
  rw [exec_registerWrite, execRegisterWrite, if_neg (by omega), if_pos ⟨rfl, ho⟩]

theorem noEffect_registerWrite_unaligned {o width : Nat} (h4 : width ≠ 4 ∨ o % 4 ≠ 0) (h8 : width ≠ 8 ∨ o % 8 ≠ 0) (s : State) (fn v : Nat) :
    NoEffect (.registerWrite fn o v width) s := by
  rw [NoEffect, exec_registerWrite, execRegisterWrite, if_neg (by omega), if_neg (by omega)]

/-- A function whose every write is dropped changes nothing by an access of any width. -/
theorem noEffect_registerWrite_of_all {s : State} {fn : Nat} (h : ∀ o v, s.writeReg fn o v = s) (o v width : Nat) :
    NoEffect (.registerWrite fn o v width) s := by
  rw [NoEffect, exec_registerWrite, execRegisterWrite]
  simp only [h, ite_self]

/-- A 32-bit access to an offset whose writes are dropped changes nothing, aligned or not. -/
theorem noEffect_registerWrite_word {s : State} {fn o v : Nat} (h : s.writeReg fn o (BitVec.ofNat 32 v) = s) :
    NoEffect (.registerWrite fn o v 4) s := by
  by_cases ho : o % 4 = 0
  · rw [NoEffect, exec_registerWrite_word ho, h]
  · exact noEffect_registerWrite_unaligned (.inr ho) (.inl (by decide)) s fn v

/-! ### Who may write, and where a write goes (R279, R435) -/

theorem State.writeReg_refused {s : State} {fn o : Nat}
    (h : s.fnPresent fn = false ∨ (mgmtOnly o = true ∧ s.isMgmt fn = false) ∨ s.hallGone o = true) (v : Word) : s.writeReg fn o v = s := by
  refine if_pos ?_
  rcases h with h | ⟨hm, hs⟩ | h
  · simp [h]
  · simp [hm, hs]
  · simp [h]

/-- R280: a function in D3hot is not present. -/
theorem State.fnPresent_d3hot {s : State} {fn : Nat} (h : (s.fn fn).d3hot = true) : s.fnPresent fn = false := by
  simp [State.fnPresent, h]

/-- May function `fn` write the register at `o`? -/
def State.writeGranted (s : State) (fn o : Nat) : Prop :=
  s.fnPresent fn = true ∧ (mgmtOnly o = false ∨ s.isMgmt fn = true) ∧ s.hallGone o = false

theorem State.writeGranted.guard {s : State} {fn o : Nat} (h : s.writeGranted fn o) :
    ¬ (!(s.fnPresent fn) || (mgmtOnly o && !(s.isMgmt fn)) || s.hallGone o) = true := by
  obtain ⟨hf, hm, hh⟩ := h
  rcases hm with hm | hm <;> simp [hf, hm, hh]

theorem State.writeReg_fixed {s : State} {fn o : Nat} (h : s.writeGranted fn o) (hp : regPlace o = .fixed o) (v : Word) :
    s.writeReg fn o v = s.writeFixed fn o v := by
  rw [State.writeReg, if_neg h.guard, hp]

/-! ### Gallery windows -/

theorem galKey_div_mod {k : Nat} (hk : k < 4096) : galKey (k / 512) (k % 512) = k := by unfold galKey; omega

theorem State.hallGone_galReg (s : State) {k w : Nat} (hk : k < 4096) (hw : w < 256) :
    s.hallGone (galReg k w) = s.power.hallsOut.contains (k / 512) := by
  have hh : k / 512 < 8 := by omega
  have hg : k % 512 < 512 := Nat.mod_lt _ (by decide)
  unfold State.hallGone galReg
  generalize k / 512 = h at hh ⊢
  generalize k % 512 = g at hg ⊢
  have hhall : (0x100000 + h * 0x40000 + 0x20000 + g * 0x100 + w - 0x100000) / 0x40000 = h := by omega
  rw [hhall, decide_eq_true (by omega), Bool.true_and]

/-- No register of a gallery is the management function's alone (R434). -/
theorem mgmtOnly_galReg {k w : Nat} (hk : k < 4096) (hw : w < 256) : mgmtOnly (galReg k w) = false := by
  have hrows : ∀ r ∈ galRegs, r.mgmt = false := by decide
  rw [mgmtOnly, regDef_galReg hk hw]
  split
  · next r hr => exact hrows r (List.mem_of_find?_eq_some hr)
  · rfl

/-- R127: a write in the window of a retired gallery, or to GAL_CORR_STATUS, is dropped. -/
theorem State.writeReg_gallery_dropped {s : State} {k w : Nat} (hk : k < 4096) (hw : w < 256) (h : (s.gal k).retired = true ∨ w = 0x64)
    (fn : Nat) (v : Word) : s.writeReg fn (galReg k w) v = s := by
  unfold State.writeReg
  rw [regPlace_galReg hk hw]
  dsimp only
  rw [galKey_div_mod hk, if_pos (show ((s.gal k).retired || decide (w = 0x64)) = true by simpa using h), ite_self]

/-- Any other write in the window of a gallery that is there is stored. -/
theorem State.writeReg_gallery {s : State} {fn k w : Nat} (hk : k < 4096) (hw : w < 256) (hf : s.fnPresent fn = true)
    (hret : (s.gal k).retired = false) (hgone : s.hallGone (galReg k 0) = false) (h64 : w ≠ 0x64) (v : Word) :
    s.writeReg fn (galReg k w) v = s.storeReg (galReg k w) v := by
  have hmay : s.writeGranted fn (galReg k w) := by
    refine ⟨hf, .inl (mgmtOnly_galReg hk hw), ?_⟩
    rwa [s.hallGone_galReg hk hw, ← s.hallGone_galReg hk (w := 0) (by decide)]
  rw [State.writeReg, if_neg hmay.guard, regPlace_galReg hk hw]
  dsimp only
  rw [galKey_div_mod hk, if_neg (by simp [hret, h64])]

end Sys2Proof.Machine
end

section
/-! SUPPORT. Reserved offsets: no write of one has an effect (R11). -/

namespace Sys2Proof.Machine

open Sys2Proof.Claims

theorem regPlace_fixed {o w : Nat} (h : regPlace o = .fixed w) : w = o := by
  unfold regPlace at h
  split at h
  · cases h
  split at h
  · cases h
  split at h
  · cases h
  exact (RegPlace.fixed.inj h).symm

theorem tmonReg_of_regPlace {o d c w : Nat} (h : regPlace o = .tmon d c w) : tmonReg d c w = o := by
  unfold regPlace at h
  split at h
  · cases h
  split at h
  next hin =>
    obtain ⟨rfl, rfl, rfl⟩ := RegPlace.tmon.inj h
    obtain ⟨hlo, -, -⟩ := hin
    unfold tmonReg
    omega
  split at h <;> cases h

theorem engReg_of_regPlace {o e w : Nat} (h : regPlace o = .engine e w) : engReg e w = o := by
  unfold regPlace at h
  split at h
  · cases h
  split at h
  · cases h
  split at h
  next hin =>
    obtain ⟨rfl, rfl⟩ := RegPlace.engine.inj h
    obtain ⟨hlo, -⟩ := hin
    unfold engReg
    omega
  cases h

/-- An offset of the fixed block that a row of its table covers is not reserved. -/
theorem regDef_ne_none_of_covers {o : Nat} {r : RegDef} (hp : regPlace o = .fixed o) (hr : r ∈ mainRegs) (hc : r.covers o = true) :
    regDef o ≠ none := by
  intro h
  rw [regDef, hp] at h
  exact absurd hc (List.find?_eq_none.1 h r hr)

/-- A reserved offset is none of those that have a row. -/
theorem ne_of_reserved {o x : Nat} (h : regDef o = none) (hx : (regDef x).isSome = true) : o ≠ x := by
  rintro rfl
  simp [h] at hx

section
variable {s : State} {fn o : Nat} (hd : regDef o = none)
include hd

/-- The words of a broadcast tree's map are all registers (R361). -/
theorem not_treeMap_of_reserved (hp : regPlace o = .fixed o) : ¬ (0x80104 ≤ o ∧ o < 0x80134 ∧ o % 4 = 0) := by
  rintro ⟨hlo, hhi, hal⟩
  refine regDef_ne_none_of_covers (r := ⟨"FAB_TREE_MAP", 0x80104, 4, 12, 0, 0xFFFFFFFF, 0, 0, 0, true, 0⟩) hp (by decide) ?_ hd
  simp only [RegDef.covers, Bool.and_eq_true, decide_eq_true_eq]
  omega

theorem State.writeHost_reserved (hh : hostRange o = false) (hlo : 0x50000 ≤ o) (v : Word) : s.writeHost fn o v = s := by
  have hcopy : ¬ o < 0x50020 ∧ ¬ (0x57F00 ≤ o ∧ o < 0x60000) := by
    simp only [hostRange, Bool.or_eq_false_iff, decide_eq_false_iff_not] at hh
    omega
  obtain ⟨hring, hmsix⟩ := hcopy
  rw [State.writeHost, if_neg (by omega), if_neg hring, if_neg (by omega), State.storeReg_reserved hd]

theorem State.writeFab_reserved (hp : regPlace o = .fixed o) (v : Word) : s.writeFab o v = s := by
  have hid : o ≠ 0x80000 := ne_of_reserved hd rfl
  have hdom : o ≠ 0x80004 := ne_of_reserved hd rfl
  have hctrl : o ≠ 0x80018 := ne_of_reserved hd rfl
  rw [State.writeFab, if_neg (by simp [hid, hdom]), if_neg hctrl, if_neg (not_treeMap_of_reserved hd hp), State.storeReg_reserved hd]

theorem State.writeTier_reserved (v : Word) : s.writeTier o v = s := by
  unfold State.writeTier
  split
  case h_7 => exact State.storeReg_reserved hd v
  all_goals exact absurd hd (by decide)

/-- Beside the host's copies, every offset of the fixed block where a write does more than store has a row. -/
theorem State.writeFixed_reserved (hp : regPlace o = .fixed o) (hh : hostRange o = false) (v : Word) : s.writeFixed fn o v = s := by
  unfold State.writeFixed
  split
  next hhost => exact State.writeHost_reserved hd hh hhost.1 v
  split
  · exact State.writeFab_reserved hd hp v
  split
  · exact State.writeTier_reserved hd v
  split
  case h_7 => exact absurd hh (by decide)
  case h_10 => exact absurd hh (by decide)
  case h_12 => exact State.storeReg_reserved hd v
  all_goals exact absurd hd (by decide)

theorem State.writeTmon_reserved {d c w : Nat} (hp : regPlace o = .tmon d c w) (v : Word) : s.writeTmon d c w v = s := by
  have hw : w ≠ 0 := by
    rintro rfl
    have hctrl : tmonRegs.find? (RegDef.covers · 0) ≠ none := by decide
    rw [regDef, hp] at hd
    exact hctrl hd
  rw [State.writeTmon, if_neg hw, tmonReg_of_regPlace hp, State.storeReg_reserved hd]

theorem State.writeEng_reserved {e w : Nat} (hp : regPlace o = .engine e w) (v : Word) : s.writeEng e w v = s := by
  rw [State.writeEng, if_pos (by simp [engReg_of_regPlace hp, hd])]

/-- R11: a write of a reserved offset is ignored. -/
theorem State.writeReg_reserved (hh : hostRange o = false) (v : Word) : s.writeReg fn o v = s := by
  unfold State.writeReg
  split
  · rfl
  · split
    next => rw [State.storeReg_reserved hd, ite_self]
    next hp => exact State.writeTmon_reserved hd hp v
    next hp => exact State.writeEng_reserved hd hp v
    next w hp =>
      obtain rfl := regPlace_fixed hp
      exact State.writeFixed_reserved hd hp hh v

end

end Sys2Proof.Machine
end

section
/-! PROOFS. Register writes, ignored and taken: O50. -/

namespace Sys2Proof.Machine

open Sys2Proof.Claims

/-! ### Plain registers (R97, R131, R282, R435) -/

/-- Every plain register of a gallery window is an aligned one, stored by a row of its bits. -/
theorem plainGal_rows : ∀ p ∈ plainGal, p.1 % 4 = 0 ∧ p.1 < 256 ∧ p.1 ≠ 0x64 ∧ ((galRegs.find? (RegDef.covers · p.1)).any (RegDef.plain p.2)) = true := by
  decide

/-- Every plain shared register is an aligned one of the fixed block, and its row has its bits and its writer. -/
theorem plainMain_rows : ∀ p ∈ plainMain, p.1 % 4 = 0 ∧ p.1 < 0x100000 ∧ regPlace p.1 = .fixed p.1 ∧
    ((regDef p.1).any (fun r => r.plain p.2.1 && r.mgmt == p.2.2)) = true := by
  decide

/-- A write of a plain shared register only stores. -/
theorem State.writeFixed_plainMain (s : State) (fn : Nat) (v : Word) : ∀ p ∈ plainMain, s.writeFixed fn p.1 v = s.storeReg p.1 v := by
  simp only [plainMain, List.forall_mem_cons, List.not_mem_nil, false_imp_iff, implies_true, and_true]
  exact ⟨rfl, rfl, rfl, rfl, rfl, rfl, rfl, rfl, rfl, rfl, rfl, rfl, rfl, rfl, rfl, rfl, rfl⟩

theorem galReg_mod_four (k w : Nat) : galReg k w % 4 = w % 4 := by unfold galReg; omega

theorem State.hallGone_below {o : Nat} (ho : o < 0x100000) (s : State) : s.hallGone o = false := by
  rw [State.hallGone, decide_eq_false (by omega), Bool.false_and]

/-- R11, R97: a write in the window of a gallery that is there takes effect by its register's row, and on that register alone. -/
theorem completes_galleryWrite {s : State} {fn k w : Nat} {r : RegDef} (hk : k < 4096) (hw : w < 256) (hf : s.fnPresent fn = true)
    (hret : (s.gal k).retired = false) (hgone : s.hallGone (galReg k 0) = false) (hal : w % 4 = 0) (h64 : w ≠ 0x64)
    (hr : galRegs.find? (RegDef.covers · w) = some r) (v : Nat) :
    Completes (.registerWrite fn (galReg k w) v 4) s
      (regBecomes (galReg k w) (r.write (s.reg (galReg k w)) (BitVec.ofNat 32 v)) s) := by
  have hrow : regDef (galReg k w) = some r := (regDef_galReg hk hw).trans hr
  refine ⟨_, exec_registerWrite_word ((galReg_mod_four k w).trans hal) s fn v, ?_⟩
  rw [State.writeReg_gallery hk hw hf hret hgone h64, State.storeReg_of_row hrow]
  exact regBecomes_setReg _ _ _

/-- A write of an aligned offset of the fixed block that the function may write is what `writeFixed` says. -/
theorem exec_registerWrite_fixed {s : State} {fn o : Nat} (hal : o % 4 = 0) (hlo : o < 0x100000) (hp : regPlace o = .fixed o)
    (hf : s.fnPresent fn = true) (hm : mgmtOnly o = false ∨ s.isMgmt fn = true) (v : Nat) :
    exec (.registerWrite fn o v 4) s = next (s.writeFixed fn o (BitVec.ofNat 32 v)) := by
  rw [exec_registerWrite_word hal, State.writeReg_fixed ⟨hf, hm, s.hallGone_below hlo⟩ hp]

/-- Which register writes are ignored (R11, R127, R279, R280, R435). -/
theorem registerWritesIgnored : RegisterWritesIgnored := by
  intro s fn o v
  have habsent (hf : s.fnPresent fn = false) (width : Nat) : NoEffect (.registerWrite fn o v width) s :=
    noEffect_registerWrite_of_all (fun _ => State.writeReg_refused (.inl hf)) o v width
  refine ⟨fun width h4 h8 => noEffect_registerWrite_unaligned h4 h8 s fn v, habsent, fun hd3 => habsent (State.fnPresent_d3hot hd3),
    fun hd hh => ?_, fun hm hs => ?_, fun hgone => ?_, fun k w hk hw h => ?_⟩ <;> apply noEffect_registerWrite_word
  · exact State.writeReg_reserved hd hh _
  · exact State.writeReg_refused (.inr (.inl ⟨hm, hs⟩)) _
  · exact State.writeReg_refused (.inr (.inr hgone)) _
  · exact State.writeReg_gallery_dropped hk hw h fn _

section
variable {s : State} {fn : Nat} (hf : s.fnPresent fn = true) (v : Nat)
include hf

/-- Plain registers of a gallery window take their RW bits (R97). -/
theorem completes_plainGal {k : Nat} (hk : k < 4096) (hret : (s.gal k).retired = false) (hgone : s.hallGone (galReg k 0) = false)
    {p : Nat × Word} (hp : p ∈ plainGal) : Completes (.registerWrite fn (galReg k p.1) v 4) s
      (regBecomes (galReg k p.1) ((s.reg (galReg k p.1) &&& ~~~ p.2) ||| (BitVec.ofNat 32 v &&& p.2)) s) := by
  obtain ⟨hal, hw, h64, hrow⟩ := plainGal_rows p hp
  obtain ⟨r, hr, hplain⟩ := (Option.any_eq_true _ _).1 hrow
  rw [← RegDef.write_of_plain hplain]
  exact completes_galleryWrite hk hw hf hret hgone hal h64 hr v

/-- Plain shared registers take their RW bits (R131, R435). -/
theorem completes_plainMain {p : Nat × Word × Bool} (hp : p ∈ plainMain) (hm : p.2.2 = false ∨ s.isMgmt fn = true) :
    Completes (.registerWrite fn p.1 v 4) s (regBecomes p.1 ((s.reg p.1 &&& ~~~ p.2.1) ||| (BitVec.ofNat 32 v &&& p.2.1)) s) := by
  obtain ⟨hal, hlo, hplace, hrow⟩ := plainMain_rows p hp
  obtain ⟨r, hr, hplain⟩ := (Option.any_eq_true _ _).1 hrow
  obtain ⟨hplain, hmgmt⟩ := Bool.and_eq_true_iff.1 hplain
  have hwriter : mgmtOnly p.1 = p.2.2 := by rw [mgmtOnly, hr]; exact eq_of_beq hmgmt
  refine ⟨_, exec_registerWrite_fixed hal hlo hplace hf (by rwa [hwriter]) v, ?_⟩
  rw [s.writeFixed_plainMain fn _ p hp, State.storeReg_of_row hr, RegDef.write_of_plain hplain]
  exact regBecomes_setReg _ _ _

/-- A write to a register of which each function has its own changes the writing function's alone (R282, R438). -/
theorem completes_ownWrite {o : Nat} {f : FnRegs} (hal : o % 4 = 0) (hlo : o < 0x100000) (hp : regPlace o = .fixed o)
    (hm : mgmtOnly o = false) (hw : s.writeFixed fn o (BitVec.ofNat 32 v) = s.setFn fn f) :
    Completes (.registerWrite fn o v 4) s (fnBecomes fn f s) :=
  ⟨_, exec_registerWrite_fixed hal hlo hp hf (.inl hm) v, hw ▸ fnBecomes_setFn s fn f⟩

end

/-- What the writes that are taken leave (R11, R97, R131, R282, R435). -/
theorem registerWritesTake : RegisterWritesTake := by
  intro s fn v hf
  refine ⟨fun o s1 ho h1 => ?_, fun k hk hret hgone => ⟨fun p hp => completes_plainGal hf v hk hret hgone hp, ?_, ?_⟩,
    fun p hp hm => completes_plainMain hf v hp hm, ?_, ?_, ?_⟩
  · rw [exec_registerWrite_word (by omega)] at h1
    rw [exec_registerWrite_double ho, Host.Outcome.next.inj h1, exec_registerWrite_word (by omega)]
  · simpa [RegDef.write] using completes_galleryWrite (w := 0x2C) hk (by decide) hf hret hgone rfl (by decide) rfl v
  · simpa [RegDef.write] using completes_galleryWrite (w := 0x44) hk (by decide) hf hret hgone rfl (by decide) rfl v
  all_goals exact completes_ownWrite hf v rfl (by decide) rfl rfl rfl

/-- Settles O50: a write that is refused or reserved leaves the state, one that is taken changes its register by its row. -/
theorem registerWrites : Obligations.RegisterWrites := ⟨registerWritesIgnored, registerWritesTake⟩

end Sys2Proof.Machine
end

section
/-! PROOFS. Memory tiers, O45: a drive that is pulled while a saturated context loads from it. -/

namespace Sys2Proof.Machine

/-- A load of context 0, not done, whose image comes from volume 0 of tier 2. -/
def tier2Load : Load where
  cmd := { sq := 0, index := 0, bytes := 0#512 }
  context := 0
  source := 1
  addr := 0
  nsid := 0
  tree := 0
  sendOnly := false
  image := []
  stage := 0
  retried := false
  bound := []
  arraysStarted := 0
  waitSince := none
  lastData := 0
  done := false

/-- Volume 0 has one member, on drive 1; context 0 is saturated and loads from it. -/
def saturatedLoading : State :=
  { State.reset with
    drives := [1], t2Vol := [(0, 1)], t2Mem := [(0, 1#32)], loads := [(0, tier2Load)],
    contexts := [(0, { Context.reset with live := true, saturated := true })] }

/-- Removing the drive raises MEMORY_CHANNEL_RETIRED, ends the load with DEVICE_FAULT, and that raises FALLBACK_SATURATED:
two events take a SEQ. -/
theorem State.eventSeq_retireDrive_saturatedLoading : (saturatedLoading.retireDrive 1).eventSeq = 2 := by decide +kernel

/-- Refutes O45: it says of every state that DRIVE_REMOVED takes one SEQ, but a load that the removal ends may have a saturated
context, whose release takes a second one. -/
theorem not_memoryTiers : ¬ Obligations.MemoryTiers := by
  intro h
  obtain ⟨_, _, _, _, _, hdrives, _⟩ := h saturatedLoading
  obtain ⟨⟨t, hexec, _, _, _, hseq⟩, _⟩ := hdrives 1 (by decide) (by decide)
  have ht : saturatedLoading.retireDrive 1 = t := Host.Outcome.next.inj hexec
  rw [← ht, State.eventSeq_retireDrive_saturatedLoading] at hseq
  exact absurd hseq (by decide)

end Sys2Proof.Machine
end

section
/-! SUPPORT. The binary32 nearest a rational that is an integer below 2^24 times a power of two is that rational (R32). -/

namespace Sys2Proof.Machine

/-! ### Powers of two -/

theorem two_pow_pos_rat (k : Nat) : (0 : Rat) < (2 ^ k : Nat) := Rat.natCast_pos.2 (Nat.two_pow_pos k)

theorem pow2_natCast (k : Nat) : pow2 k = (2 ^ k : Nat) := by
  rw [pow2, if_pos (Int.natCast_nonneg k), Int.toNat_natCast]

theorem pow2_neg_mul (k : Nat) : pow2 (-k) * (2 ^ k : Nat) = 1 := by
  cases k with
  | zero => decide +kernel
  | succ k =>
    rw [pow2, if_neg (by omega), Int.neg_neg, Int.toNat_natCast, Rat.div_mul_cancel (Rat.ne_of_gt (two_pow_pos_rat _))]

theorem pow2_succ (e : Int) : pow2 (e + 1) = 2 * pow2 e := by
  cases e with
  | ofNat k =>
    rw [Int.ofNat_eq_natCast, ← Int.natCast_succ, pow2_natCast, pow2_natCast, Nat.pow_succ', Rat.natCast_mul, Rat.natCast_ofNat]
  | negSucc k =>
    have hk := pow2_neg_mul k
    have hs := pow2_neg_mul (k + 1)
    rw [Nat.pow_succ', Rat.natCast_mul, Rat.natCast_ofNat] at hs
    rw [Int.negSucc_eq, show -((k : Int) + 1) + 1 = -k by omega]
    grind

/-- Powers of two whose exponents differ by `k`. -/
theorem pow2_of_eq_add {a b : Int} (k : Nat) (h : b = a + k) : pow2 b = (2 ^ k : Nat) * pow2 a := by
  subst h
  induction k with
  | zero => simp
  | succ k ih => rw [Int.natCast_succ, ← Int.add_assoc, pow2_succ, ih, Nat.pow_succ', Rat.natCast_mul, Rat.natCast_ofNat, Rat.mul_assoc]

theorem pow2_pos (e : Int) : 0 < pow2 e := by
  have hpos := two_pow_pos_rat e.toNat
  rw [← pow2_natCast, pow2_of_eq_add (a := e) (-e).toNat (by omega)] at hpos
  exact (Rat.mul_pos_iff_of_pos_left (two_pow_pos_rat _)).1 hpos

theorem pow2_le_pow2 {a b : Int} (h : a ≤ b) : pow2 a ≤ pow2 b := by
  have hone : (1 : Rat) ≤ (2 ^ (b - a).toNat : Nat) := Rat.natCast_le_natCast.2 Nat.one_le_two_pow
  have hle := Rat.mul_le_mul_of_nonneg_right hone (Rat.le_of_lt (pow2_pos a))
  rwa [← pow2_of_eq_add (b := b) _ (by omega), Rat.one_mul] at hle

theorem lt_of_pow2_lt_pow2 {a b : Int} (h : pow2 a < pow2 b) : a < b :=
  Int.not_le.1 fun hba => Rat.not_le.2 h (pow2_le_pow2 hba)

/-! ### Packing -/

/-- A quotient without a remainder is not rounded. -/
theorem roundQuot_of_eq_mul {n q d : Nat} (hd : 0 < d) (h : n = q * d) (mode : Rounding) : roundQuot mode n d = q := by
  subst h
  cases mode <;> simp [roundQuot, Nat.mul_div_cancel q hd, hd]

/-- The comparison that `binExp` makes in natural numbers, one of them scaled, is that of the quotient with 2^e. -/
theorem lt_mul_pow2_iff (n d : Nat) (e : Int) :
    (n : Rat) < d * pow2 e ↔ if 0 ≤ e then n < d * 2 ^ e.toNat else n * 2 ^ (-e).toNat < d := by
  split
  next h => rw [pow2, if_pos h, ← Rat.natCast_mul, Rat.natCast_lt_natCast]
  next h =>
    obtain ⟨k, rfl⟩ : ∃ k : Nat, e = -k := ⟨(-e).toNat, by omega⟩
    rw [Int.neg_neg, Int.toNat_natCast, ← Rat.natCast_lt_natCast, Rat.natCast_mul, ← Rat.mul_lt_mul_right (two_pow_pos_rat k),
      Rat.mul_assoc, pow2_neg_mul, Rat.mul_one]

/-- A quotient lies within a factor of two of the power that the bit lengths of its parts give. -/
theorem log2_sub_bounds {n d : Nat} (hn : 0 < n) (hd : 0 < d) :
    d * pow2 (n.log2 - d.log2 - 1) ≤ n ∧ n < d * pow2 (n.log2 - d.log2 + 1) := by
  have hn_ge : ((2 ^ n.log2 : Nat) : Rat) ≤ n := Rat.natCast_le_natCast.2 (Nat.log2_self_le (Nat.ne_of_gt hn))
  have hn_lt : (n : Rat) < (2 ^ (n.log2 + 1) : Nat) := Rat.natCast_lt_natCast.2 Nat.lt_log2_self
  have hd_ge : ((2 ^ d.log2 : Nat) : Rat) ≤ d := Rat.natCast_le_natCast.2 (Nat.log2_self_le (Nat.ne_of_gt hd))
  have hd_le : (d : Rat) ≤ (2 ^ (d.log2 + 1) : Nat) := Rat.natCast_le_natCast.2 (Nat.le_of_lt Nat.lt_log2_self)
  have hlow := Rat.mul_le_mul_of_nonneg_right hd_le (Rat.le_of_lt (pow2_pos (n.log2 - d.log2 - 1)))
  have hhigh := Rat.mul_le_mul_of_nonneg_right hd_ge (Rat.le_of_lt (pow2_pos (n.log2 - d.log2 + 1)))
  rw [← pow2_of_eq_add (b := n.log2) _ (by omega), pow2_natCast] at hlow
  rw [← pow2_of_eq_add (b := (n.log2 + 1 : Nat)) _ (by omega), pow2_natCast] at hhigh
  exact ⟨Rat.le_trans hlow hn_ge, by grind⟩

/-- `binExp` gives the exponent of the interval between powers of two that holds the quotient, not below −126. -/
theorem binExp_eq_max {n d : Nat} (hn : 0 < n) (hd : 0 < d) :
    ∃ l : Int, binExp n d = max (-126) l ∧ d * pow2 l ≤ n ∧ n < d * pow2 (l + 1) := by
  obtain ⟨hlow, hhigh⟩ := log2_sub_bounds hn hd
  have hiff := lt_mul_pow2_iff n d (n.log2 - d.log2)
  by_cases hlt : (n : Rat) < d * pow2 (n.log2 - d.log2)
  · refine ⟨n.log2 - d.log2 - 1, ?_, hlow, by rwa [Int.sub_add_cancel]⟩
    have htest := hiff.1 hlt
    simp only [binExp]
    split at htest
    next h0 => rw [if_pos h0, if_pos htest]; omega
    next h0 => rw [if_neg h0, if_pos htest]; omega
  · refine ⟨n.log2 - d.log2, ?_, Rat.not_lt.1 hlt, hhigh⟩
    have htest := mt hiff.2 hlt
    simp only [binExp]
    split at htest
    next h0 => rw [if_pos h0, if_neg htest]; omega
    next h0 => rw [if_neg h0, if_neg htest]; omega

/-- A quotient that is an integer in units of its interval is packed without rounding. -/
theorem packMag_of_scaled {n d q : Nat} (hn : 0 < n) (hd : 0 < d) (hq : (n : Rat) = q * pow2 (binExp n d - 23) * d)
    (hfin : (binExp n d + 126).toNat * 2 ^ 23 + q < 0x7F800000) :
    packMag .nearestEven n d = (binExp n d + 126).toNat * 2 ^ 23 + q := by
  simp only [packMag, if_neg (Nat.ne_of_gt hn)]
  split
  next hsh =>
    obtain ⟨k, hk⟩ := Int.eq_ofNat_of_zero_le hsh
    have hone := pow2_neg_mul k
    rw [show binExp n d - 23 = -k by omega] at hq
    have hn' : n * 2 ^ k = q * d := by
      rw [← Rat.natCast_inj, Rat.natCast_mul, Rat.natCast_mul]
      grind
    rw [hk, Int.toNat_natCast, roundQuot_of_eq_mul hd hn', if_neg (by omega)]
  next hsh =>
    obtain ⟨k, hk⟩ : ∃ k : Nat, binExp n d - 23 = k := ⟨(binExp n d - 23).toNat, by omega⟩
    rw [hk, pow2_natCast, Rat.mul_assoc, Rat.mul_comm _ (d : Rat), ← Rat.natCast_mul, ← Rat.natCast_mul, Rat.natCast_inj] at hq
    rw [show -(23 - binExp n d) = k by omega, Int.toNat_natCast, roundQuot_of_eq_mul (Nat.mul_pos hd (Nat.two_pow_pos k)) hq,
      if_neg (by omega)]

/-- The value of the bits that `packMag` writes: the integer `q` in units of interval `k`, whose leading 1 carries into the exponent
field unless the interval is the lowest and the value subnormal. -/
theorem F32.toRat_of_bits {x : F32} {k q : Nat} (hx : x.toNat = k * 2 ^ 23 + q) (hk : k ≤ 253) (hq : q < 2 ^ 24)
    (hnorm : k = 0 ∨ 2 ^ 23 ≤ q) : F32.toRat x = q * pow2 (k - 149) := by
  have hneg : F32.neg x = false := by
    rw [F32.neg, BitVec.getLsbD, hx]
    exact Nat.testBit_lt_two_pow (by omega)
  have hexp : F32.exp x = if q < 2 ^ 23 then 0 else k + 1 := by
    rw [F32.exp, hx, Nat.shiftRight_eq_div_pow]; split <;> omega
  have hman : F32.man x = if q < 2 ^ 23 then q else q - 2 ^ 23 := by
    rw [F32.man, hx]; split <;> omega
  simp only [F32.toRat, hneg, hexp, hman, Bool.false_eq_true, if_false, Rat.one_mul]
  by_cases hsub : q < 2 ^ 23
  · have hk0 : k = 0 := by omega
    simp only [if_pos hsub, if_true, hk0]
    rfl
  · have hm : 2 ^ 23 + (q - 2 ^ 23) = q := by omega
    have he : ((k + 1 : Nat) : Int) - 150 = k - 149 := by omega
    simp only [if_neg hsub, Nat.succ_ne_zero, if_false, hm, he]

/-! ### Exact conversion -/

theorem num_pos_of_pos {r : Rat} (hr : 0 < r) : 0 < r.num := by
  rw [Rat.lt_iff] at hr
  simpa using hr

theorem natAbs_num_eq_mul_den {r : Rat} (hr : 0 < r) : (r.num.natAbs : Rat) = r * r.den := by
  calc (r.num.natAbs : Rat) = r.num := by rw [← Rat.intCast_natCast, Int.natAbs_of_nonneg (Int.le_of_lt (num_pos_of_pos hr))]
    _ = r.num / r.den * r.den := (Rat.div_mul_cancel (Rat.ne_of_gt (Rat.natCast_pos.2 r.den_pos))).symm
    _ = r * r.den := by rw [← Rat.mkRat_eq_div, Rat.mkRat_self]

/-- The interval whose exponent `F32.ofRat` computes holds the value, or lies above it where subnormals begin. -/
theorem binExp_num_den {r : Rat} (hr : 0 < r) :
    ∃ l : Int, binExp r.num.natAbs r.den = max (-126) l ∧ pow2 l ≤ r ∧ r < pow2 (l + 1) := by
  have hnum : 0 < r.num := num_pos_of_pos hr
  have hden : (0 : Rat) < r.den := Rat.natCast_pos.2 r.den_pos
  obtain ⟨l, hl, hle, hlt⟩ := binExp_eq_max (Int.natAbs_pos.2 (Int.ne_of_gt hnum)) r.den_pos
  rw [natAbs_num_eq_mul_den hr, Rat.mul_comm] at hle hlt
  exact ⟨l, hl, Rat.le_of_mul_le_mul_right hle hden, (Rat.mul_lt_mul_left hden).1 (Rat.mul_comm r _ ▸ hlt)⟩

/-- A value in units of its binary32 interval has 24 bits, the top one set but in the lowest interval. -/
theorem scaled_bounds {r : Rat} {e l : Int} {q : Nat} (he : e = max (-126) l) (hle : pow2 l ≤ r) (hlt : r < pow2 (l + 1))
    (hq : r = q * pow2 (e - 23)) : q < 2 ^ 24 ∧ ((e + 126).toNat = 0 ∨ 2 ^ 23 ≤ q) := by
  have hunit := pow2_pos (e - 23)
  constructor
  · have hlt' : r < pow2 (e + 1) := Std.lt_of_lt_of_le hlt (pow2_le_pow2 (by omega))
    rw [hq, pow2_of_eq_add (b := e + 1) (a := e - 23) 24 (by omega), Rat.mul_lt_mul_right hunit] at hlt'
    exact Rat.natCast_lt_natCast.1 hlt'
  · by_cases hlow : l ≤ -126
    · exact .inl (by omega)
    · obtain rfl : e = l := by omega
      rw [hq, pow2_of_eq_add (b := e) (a := e - 23) 23 (by omega)] at hle
      exact .inr (Rat.natCast_le_natCast.1 (Rat.le_of_mul_le_mul_right hle hunit))

/-- A value that is such an integer in units of its interval converts exactly (R32). -/
theorem F32.toRat_ofRat_of_scaled {r : Rat} {e : Int} {q : Nat} (hr : 0 < r) (he : binExp r.num.natAbs r.den = e)
    (hmin : -126 ≤ e) (hmax : e ≤ 127) (hq : r = q * pow2 (e - 23)) (hupper : q < 2 ^ 24)
    (hlower : (e + 126).toNat = 0 ∨ 2 ^ 23 ≤ q) : F32.toRat (F32.ofRat r) = r := by
  have hnum := num_pos_of_pos hr
  have hbits := packMag_of_scaled (q := q) (Int.natAbs_pos.2 (Int.ne_of_gt hnum)) r.den_pos
    (by rw [natAbs_num_eq_mul_den hr, he, ← hq]) (by omega)
  have hx : (F32.ofRat r).toNat = (e + 126).toNat * 2 ^ 23 + q := by
    rw [F32.ofRat, if_neg (Int.ne_of_gt hnum), if_neg (Int.not_lt.2 (Int.le_of_lt hnum)), hbits, he, BitVec.toNat_ofNat]
    omega
  have hunit : ((e + 126).toNat : Int) - 149 = e - 23 := by omega
  rw [F32.toRat_of_bits hx (by omega) hupper hlower, hunit, hq]

/-- Every integer below 2^24, times a power of two that keeps it in range, is a binary32 value (R32). -/
theorem F32.toRat_ofRat_mul_pow2 {n : Nat} {t : Int} (hn : 0 < n) (hn24 : n < 2 ^ 24) (hlo : -149 ≤ t) (hhi : t ≤ 104) :
    F32.toRat (F32.ofRat (n * pow2 t)) = n * pow2 t := by
  have hr : 0 < n * pow2 t := Rat.mul_pos (Rat.natCast_pos.2 hn) (pow2_pos t)
  obtain ⟨l, hl, hle, hlt⟩ := binExp_num_den hr
  have hl24 : l < t + 24 := by
    have hn24' := (Rat.mul_lt_mul_right (pow2_pos t)).2 (Rat.natCast_lt_natCast.2 hn24)
    rw [← pow2_of_eq_add (b := t + 24) 24 rfl] at hn24'
    exact lt_of_pow2_lt_pow2 (Std.lt_of_le_of_lt hle hn24')
  have hq : n * pow2 t = (n * 2 ^ (t + 23 - Max.max (-126) l).toNat : Nat) * pow2 (Max.max (-126) l - 23) := by
    rw [Rat.natCast_mul, Rat.mul_assoc, ← pow2_of_eq_add (b := t) _ (by omega)]
  obtain ⟨hupper, hlower⟩ := scaled_bounds rfl hle hlt hq
  exact F32.toRat_ofRat_of_scaled hr hl (by omega) (by omega) hq hupper hlower

end Sys2Proof.Machine
end

section
/-! PROOFS. The decoding of S8 scales: O60. -/

namespace Sys2Proof.Machine

/-- R23: the value of a scale with exponent 0, as an integer times a power of two. -/
theorem S8.toRat_subnormal {b : Byte} (h : b.toNat / 8 = 0) : S8.toRat b = (b.toNat % 8 : Nat) * pow2 (-17) := by
  have hpow : pow2 (-14) = (8 : Nat) * pow2 (-17) := pow2_of_eq_add 3 rfl
  rw [S8.toRat, if_pos h, hpow]
  grind

/-- R23: the value of a scale with another exponent, the leading 1 written out. -/
theorem S8.toRat_normal {b : Byte} (h : b.toNat / 8 ≠ 0) : S8.toRat b = (8 + b.toNat % 8 : Nat) * pow2 ((b.toNat / 8 : Nat) - 18) := by
  have hpow : pow2 ((b.toNat / 8 : Nat) - 15) = (8 : Nat) * pow2 ((b.toNat / 8 : Nat) - 18) := pow2_of_eq_add 3 (by omega)
  rw [S8.toRat, if_neg h, hpow, Rat.natCast_add]
  grind

theorem S8.eq_zero_iff (b : Byte) : b = 0#8 ↔ b.toNat / 8 = 0 ∧ b.toNat % 8 = 0 := by
  rw [← BitVec.toNat_inj, BitVec.toNat_ofNat]
  omega

/-- R23: every scale that is not poison is a binary32 value. -/
theorem S8.toRat_toF32 {b : Byte} (h : b.toNat / 8 ≤ 30) : F32.toRat (S8.toF32 b) = S8.toRat b := by
  rw [S8.toF32]
  by_cases he : b.toNat / 8 = 0
  · rw [S8.toRat_subnormal he]
    by_cases hm : b.toNat % 8 = 0
    · rw [hm]; decide +kernel
    · exact F32.toRat_ofRat_mul_pow2 (by omega) (by omega) (by decide) (by decide)
  · rw [S8.toRat_normal he]
    exact F32.toRat_ofRat_mul_pow2 (by omega) (by omega) (by omega) (by omega)

theorem S8.isPoison_iff (b : Byte) : S8.isPoison b = true ↔ b.toNat / 8 = 31 := by
  rw [S8.isPoison, decide_eq_true_iff]; omega

/-- A product of a natural number and a power of two is monotone in both. -/
theorem mul_pow2_le_mul_pow2 {m n : Nat} {a b : Int} (hmn : m ≤ n) (hab : a ≤ b) : m * pow2 a ≤ n * pow2 b :=
  Rat.le_trans (Rat.mul_le_mul_of_nonneg_right (Rat.natCast_le_natCast.2 hmn) (Rat.le_of_lt (pow2_pos a)))
    (Rat.mul_le_mul_of_nonneg_left (pow2_le_pow2 hab) Rat.natCast_nonneg)

theorem S8.toRat_smallest : S8.toRat 0x01#8 = 1 / 131072 := by decide +kernel

theorem S8.toRat_largest : S8.toRat 0xF7#8 = 61440 := by decide +kernel

/-- R23: 61,440 is the largest scale. -/
theorem S8.toRat_le {b : Byte} (h : b.toNat / 8 ≤ 30) : S8.toRat b ≤ 61440 := by
  rw [← S8.toRat_largest, S8.toRat_normal (b := 0xF7#8) (by decide)]
  by_cases he : b.toNat / 8 = 0
  · rw [S8.toRat_subnormal he]
    exact mul_pow2_le_mul_pow2 (n := 15) (b := 12) (by omega) (by decide)
  · rw [S8.toRat_normal he]
    exact mul_pow2_le_mul_pow2 (n := 15) (b := 12) (by omega) (by omega)

/-- R23: 2^-17 is the smallest scale that is not zero. -/
theorem S8.le_toRat {b : Byte} (h : b ≠ 0#8) : 1 / 131072 ≤ S8.toRat b := by
  rw [Ne, S8.eq_zero_iff] at h
  rw [← S8.toRat_smallest, S8.toRat_subnormal (b := 0x01#8) rfl]
  by_cases he : b.toNat / 8 = 0
  · rw [S8.toRat_subnormal he]
    exact mul_pow2_le_mul_pow2 (m := 1) (by omega) (by decide)
  · rw [S8.toRat_normal he]
    exact mul_pow2_le_mul_pow2 (m := 1) (by omega) (by omega)

/-- Settles O60: a scale that is not poison is an integer below 16 times a power of two, which binary32 holds exactly. -/
theorem scaleDecoding : Obligations.ScaleDecoding := by
  intro b e m
  refine ⟨(S8.isPoison_iff b).symm, decide_eq_true_iff, fun he hm => ?_, fun he _ => ?_, fun he hle => ?_, fun hge _ => ?_,
    fun hp => ?_, S8.toRat_smallest, ?_, S8.toRat_largest⟩
  · rw [(S8.eq_zero_iff b).2 ⟨he, hm⟩]; decide +kernel
  · rw [S8.toRat, if_pos he, Rat.div_def _ 16384]
    exact congrArg ((m : Rat) / 8 * ·) (by decide +kernel)
  · have hexp : (b.toNat / 8 : Nat) - (15 : Int) = -(15 - e : Nat) := by omega
    rw [S8.toRat, if_neg (by omega), hexp, Rat.div_def]
    have hone := pow2_neg_mul (15 - e)
    rw [Rat.natCast_pow, Rat.mul_comm] at hone
    exact congrArg ((1 + (m : Rat) / 8) * ·) (Rat.inv_eq_of_mul_eq_one hone).symm
  · have hexp : (b.toNat / 8 : Nat) - (15 : Int) = (e - 15 : Nat) := by omega
    rw [S8.toRat, if_neg (by omega), hexp, pow2_natCast, Rat.natCast_pow]
    rfl
  · have hle : b.toNat / 8 ≤ 30 := by
      rw [← Bool.not_eq_true, S8.isPoison_iff] at hp; omega
    exact ⟨S8.toRat_toF32 hle, S8.toRat_le hle, S8.le_toRat⟩
  · decide +kernel

end Sys2Proof.Machine
end

section
/-! SUPPORT. Galleries and registers do not touch each other; what a chain of updates of gallery `k` does; and a step that issues while the
comparator finds no difference (R69, R71, R78). -/

namespace Sys2Proof.Machine

@[simp] theorem State.gal_at (s : State) (u k : Nat) : (s.at u).gal k = s.gal k := rfl

@[simp] theorem State.reg_setGal (s : State) (k : Nat) (g : Gallery) (o : Nat) : (s.setGal k g).reg o = s.reg o :=
  congrArg (Tab.get (regReset o) · o) (State.setGal_bar0 s k g)

@[simp] theorem State.gal_setReg (s : State) (o : Nat) (v : Word) (k : Nat) : (s.setReg o v).gal k = s.gal k :=
  congrArg (Tab.get Gallery.reset · k) (State.setReg_galleries s o v)

/-- An update of gallery `k` on top of others of the same gallery. -/
theorem galleryBecomes_setGal {s t : State} {k : Nat} (g : Gallery) (ho : OtherGalleries k s t)
    (ht : t = { s with now := t.now, galleries := t.galleries }) : GalleryBecomes k g t.now s (t.setGal k g) := by
  refine ⟨rfl, State.gal_setGal _ _ _, fun j hj => (State.gal_setGal_other _ _ hj).trans (ho j hj), ?_⟩
  rw [ht]; rfl

/-- A step that issues runs its body at its instant when the comparator finds no difference. -/
theorem State.withChecked_issues {s : State} {k op : Nat} {f : Flight} {w : StepWord} (body : State → Flight → StepWord → State)
    (h : Issues s k op f w) : s.withChecked k op false body = body (s.at f.issueAt) f w :=
  State.withStep_issues _ h

end Sys2Proof.Machine
end

section
/-! PROOFS. Power steps, their arrival and the timed power events of a gallery: O3. -/

namespace Sys2Proof.Machine

open Sys2Proof.Claims (powered)

/-! ### WAKE and ARM_REF (R73, R74, R79) -/

/-- R73: what a power step does to the gallery it reaches. -/
theorem powered_eq (g : Gallery) (arm : Bool) (u : Nat) : powered g arm u = if arm then g.arm u else g.wake u := by
  cases hp : g.power
  case light =>
    cases arm
    case true => simp only [powered, Gallery.arm, hp, if_true]
    case false =>
      cases hw : g.wakeDue
      case none => simp only [powered, Gallery.wake, hp, hw, lightWake, Option.getD_none, Option.isSome_none, Bool.false_eq_true, if_false]
      case some t =>
        simp only [powered, Gallery.wake, hp, hw, Option.isSome_some, Option.getD_some, Bool.false_eq_true, if_false, if_true]
        rw [← hw, ← hp]
  all_goals cases arm <;> simp only [powered, Gallery.arm, Gallery.wake, hp, Bool.false_eq_true, if_false, if_true] <;> rfl

theorem State.powerAt_eq (s : State) (k : Nat) (arm : Bool) : s.powerAt k arm = s.setGal k (powered (s.gal k) arm s.now) := by
  rw [powered_eq]; rfl

theorem exec_powerStep (s : State) (h g : Nat) (arm : Bool) : exec (if arm then .armRef h g false else .wake h g false) s =
    next (s.withChecked (galKey h g) (if arm then opArmRef else opWake) false (powerStep arm (galKey h g))) := by
  cases arm <;> rfl

/-- The flight after a power step that issues at `u`. -/
def Flight.afterPowerStep (f : Flight) (u : Nat) : Flight := { f with pc := f.pc + 1, issueAt := u + hallCycles 1 }

/-- R74: the time a power step is under way is 0 just for one without delay that names no other gallery. -/
theorem powerTarget_due_eq_iff (k : Nat) (w : StepWord) (u d : Nat) :
    u + (powerTarget k w).2 + ns d = u ↔ bit w 121 = false ∧ d = 0 := by
  unfold powerTarget
  split
  case isTrue hb =>
    simp only [hb, Bool.true_eq_false, false_and, iff_false, ns]
    split <;> omega
  case isFalse hb =>
    simp only [Bool.eq_false_iff.2 hb, true_and, Nat.add_zero, ns]
    omega

/-- R73: a power step whose DIST does not select it only moves its flight on. -/
theorem powerStep_unselected {s : State} {k : Nat} {w : StepWord} (arm : Bool) (f : Flight)
    (hd : ¬ (fld w 108 107 = 0 ∨ fld w 108 107 = s.rfld (galReg k 0x08) 1 0)) :
    powerStep arm k s f w = s.setGal k { s.gal k with flight := some (f.afterPowerStep s.now) } := by
  unfold powerStep
  simp only [if_neg hd]
  rfl

/-- R73: a selected power step without delay acts on its own gallery at once. -/
theorem powerStep_here {s : State} {k : Nat} {w : StepWord} (arm : Bool) (f : Flight)
    (hd : fld w 108 107 = 0 ∨ fld w 108 107 = s.rfld (galReg k 0x08) 1 0) (hb : bit w 121 = false) (hdel : fld w 106 91 = 0) :
    powerStep arm k s f w = (s.powerAt k arm).setGal k { powered (s.gal k) arm s.now with flight := some (f.afterPowerStep s.now) } := by
  have ht : powerTarget k w = (k, 0) := by rw [powerTarget, hb]; rfl
  unfold powerStep
  simp only [if_pos hd, ht, hdel, Nat.add_zero, Nat.mul_zero, if_true, State.modGal_eq, State.powerAt_eq, State.gal_setGal]
  rfl

/-- R74, R79: any other selected power step is under way for its delay and delivery time. -/
theorem powerStep_sent {s : State} {k : Nat} {w : StepWord} (arm : Bool) (f : Flight)
    (hd : fld w 108 107 = 0 ∨ fld w 108 107 = s.rfld (galReg k 0x08) 1 0) (hs : ¬ (bit w 121 = false ∧ fld w 106 91 = 0)) :
    powerStep arm k s f w =
      ({ s with powerSteps := s.powerSteps ++
          [{ target := (powerTarget k w).1, arm := arm, due := s.now + (powerTarget k w).2 + ns (fld w 106 91) }] } : State).setGal k
        { s.gal k with flight := some (f.afterPowerStep s.now) } := by
  unfold powerStep
  simp only [if_pos hd, if_neg (mt (powerTarget_due_eq_iff k w s.now _).1 hs)]
  rfl

/-- R73, R74, R79: a step whose DIST does not select it, one that acts here and now, and one that is under way. -/
theorem powerSteps_issue : Sys2Proof.Claims.PowerSteps := by
  intro s h g f w arm hi
  dsimp only
  refine ⟨_, (exec_powerStep s h g arm).trans (congrArg _ (State.withChecked_issues _ hi)), ?_⟩
  generalize galKey h g = k
  by_cases hd : fld w 108 107 = 0 ∨ fld w 108 107 = s.rfld (galReg k 0x08) 1 0
  case neg =>
    rw [if_neg hd, powerStep_unselected (s := s.at f.issueAt) arm f hd]
    exact galleryBecomes_at _ _ _ _
  case pos =>
    rw [if_pos hd]
    by_cases hs : bit w 121 = false ∧ fld w 106 91 = 0
    · obtain ⟨hown, hdelay⟩ := hs
      rw [if_pos ⟨hown, hdelay⟩, powerStep_here (s := s.at f.issueAt) arm f hd hown hdelay, State.powerAt_eq]
      exact galleryBecomes_setGal _ (fun j hj => State.gal_setGal_other _ _ hj) rfl
    · rw [if_neg hs, powerStep_sent (s := s.at f.issueAt) arm f hd hs]
      refine ⟨?_, galleryBecomes_at _ _ _ _⟩
      unfold powerTarget
      cases bit w 121 <;> rfl

/-! ### Arrival (R79) -/

theorem firstPowerStep_mem {q : PowerStep} {ps : List PowerStep} (h : firstPowerStep ps = some q) : q ∈ ps := by
  induction ps with
  | nil => cases h
  | cons p ps ih =>
    rw [firstPowerStep] at h
    cases hf : firstPowerStep ps with
    | none =>
      rw [hf] at h
      exact List.mem_cons.2 (.inl (Option.some.inj h).symm)
    | some r =>
      simp only [hf] at h
      split at h
      · exact List.mem_cons_of_mem _ (ih (hf.trans h))
      · exact List.mem_cons.2 (.inl (Option.some.inj h).symm)

/-- R79: a power step due before every other is the one that is taken up. -/
theorem firstPowerStep_of_least {p : PowerStep} {ps : List PowerStep} (hp : p ∈ ps) (hmin : ∀ q ∈ ps, q = p ∨ p.due < q.due) :
    firstPowerStep ps = some p := by
  induction ps with
  | nil => cases hp
  | cons q ps ih =>
    obtain ⟨hq, hps⟩ := List.forall_mem_cons.1 hmin
    rw [firstPowerStep]
    by_cases hmem : p ∈ ps
    · rw [ih hmem hps]
      rcases hq with rfl | hlt
      · simp only [Nat.lt_irrefl, if_false]
      · simp only [hlt, if_true]
    · obtain rfl : p = q := (List.mem_cons.1 hp).resolve_right hmem
      cases hf : firstPowerStep ps with
      | none => rfl
      | some r =>
        have hr := firstPowerStep_mem hf
        have hlt : p.due < r.due := (hps r hr).resolve_left (fun h => hmem (h ▸ hr))
        simp only [Nat.not_lt.2 (Nat.le_of_lt hlt), if_false]

theorem powerStep_arrives : Sys2Proof.Claims.PowerStepArrives := by
  intro s p hp hmin
  refine ⟨({ s with powerSteps := s.powerSteps.erase p }.at p.due).powerAt p.target p.arm, ?_, rfl, ?_⟩
  · change execRemotePowerStepArrival s = _
    rw [execRemotePowerStepArrival, firstPowerStep_of_least hp hmin]
  · rw [State.powerAt_eq]
    exact galleryBecomes_at _ _ _ _

/-! ### Timed power events (R59, R72, R73) -/

/-- A gallery with an empty queue and no profile to take up starts nothing. -/
theorem State.startNext_of_idle {s : State} {k : Nat} (hq : (s.gal k).queue = []) (hp : (s.gal k).newProfile = none) (fuel : Nat) :
    s.startNext k fuel = s := by
  cases fuel with
  | zero => rfl
  | succ n =>
    have ht : s.takeProfile k = s := by simp only [State.takeProfile, hp]
    rw [State.startNext, ht, hq]

theorem powerEvents : Sys2Proof.Claims.PowerEvents := by
  intro s h g u
  dsimp only
  intro hf hq hn
  refine ⟨fun hw => ?_, fun hr => ?_, fun hi hp hne => ?_, fun hl hp hwd hland hne => ?_⟩
  · refine ⟨_, ?_, galleryBecomes_at _ _ _ _⟩
    change execGalleryReady h g s = _
    simp only [execGalleryReady, hw]
    rw [State.startNext_of_idle]
    · rfl
    · rw [State.modGal_eq, State.gal_setGal]; exact hq
    · rw [State.modGal_eq, State.gal_setGal]; exact hn
  · refine ⟨s.at (u + us 2), ?_, rfl, rfl, fun _ _ => rfl, rfl⟩
    change execRefReady h g s = _
    rw [execRefReady, hr]; rfl
  · refine ⟨_, ?_, galleryBecomes_at _ _ _ _⟩
    change execLightIdleExpiry h g s = _
    simp only [execLightIdleExpiry, hi]
    rw [if_pos ⟨hp, by rw [hf]; rfl, by rw [hq]; rfl, hne⟩]
    rfl
  · refine ⟨_, ?_, galleryBecomes_at _ _ _ _⟩
    change execDeepIdleExpiry h g s = _
    simp only [execDeepIdleExpiry, hl]
    rw [if_pos ⟨hp, by rw [hwd]; rfl, hland, hne⟩]
    rfl

/-- Settles O3: the power steps as they issue, as they arrive, and the timed power events. -/
theorem powerSteps : Obligations.PowerSteps := ⟨powerSteps_issue, powerStep_arrives, powerEvents⟩

end Sys2Proof.Machine
end

section
/-! SUPPORT. Operations of a gallery that touch no other gallery and take no time: the end of a flight, the next launch, a new profile, the
suspect state, and the survey's commits (R75 to R77, R127, R193 to R198, R276). -/

namespace Sys2Proof.Machine

/-- The clock stands and every gallery but `k` is as it was. -/
def GalleryOnly (k : Nat) (s t : State) : Prop := t.now = s.now ∧ OtherGalleries k s t

theorem GalleryOnly.refl (k : Nat) (s : State) : GalleryOnly k s s := ⟨rfl, fun _ _ => rfl⟩

theorem GalleryOnly.trans {k : Nat} {s t u : State} (h : GalleryOnly k s t) (g : GalleryOnly k t u) : GalleryOnly k s u :=
  ⟨g.1.trans h.1, fun j hj => (g.2 j hj).trans (h.2 j hj)⟩

/-- `trans`, read from the last update back. -/
theorem GalleryOnly.after {k : Nat} {s t u : State} (g : GalleryOnly k t u) (h : GalleryOnly k s t) : GalleryOnly k s u := h.trans g

/-- An update of fields other than the clock and the galleries. -/
theorem GalleryOnly.of_eq {s t : State} (k : Nat) (hn : t.now = s.now) (hg : t.galleries = s.galleries) : GalleryOnly k s t :=
  ⟨hn, fun j _ => congrArg (Tab.get Gallery.reset · j) hg⟩

theorem GalleryOnly.ite {k : Nat} {s t u : State} {c : Prop} [Decidable c] (ht : GalleryOnly k s t) (hu : GalleryOnly k s u) :
    GalleryOnly k s (if c then t else u) := by
  split
  · exact ht
  · exact hu

theorem GalleryOnly.foldl {β : Type} {k : Nat} {f : State → β → State} (h : ∀ s x, GalleryOnly k s (f s x)) (xs : List β) (s : State) :
    GalleryOnly k s (xs.foldl f s) := by
  induction xs generalizing s with
  | nil => exact .refl k s
  | cons x xs ih => exact (h s x).trans (ih _)

/-! ### Elementary updates -/

theorem galleryOnly_setGal (s : State) (k : Nat) (g : Gallery) : GalleryOnly k s (s.setGal k g) :=
  ⟨rfl, fun _ hj => State.gal_setGal_other _ _ hj⟩

theorem galleryOnly_modGal (s : State) (k : Nat) (f : Gallery → Gallery) : GalleryOnly k s (s.modGal k f) := galleryOnly_setGal _ _ _

theorem galleryOnly_bump (k : Nat) (s : State) (o n : Nat) : GalleryOnly k s (s.bump o n) := .of_eq k rfl rfl
theorem galleryOnly_setRfld (k : Nat) (s : State) (o hi lo x : Nat) : GalleryOnly k s (s.setRfld o hi lo x) := .of_eq k rfl rfl
theorem galleryOnly_writeBytes (k : Nat) (s : State) (a : Nat) (bs : List Byte) : GalleryOnly k s (s.writeBytes a bs) := .of_eq k rfl rfl

theorem galleryOnly_send (k : Nat) (s : State) (w : PendWrite) : GalleryOnly k s (s.send w) := .of_eq k rfl rfl
theorem galleryOnly_use (k : Nat) (s : State) (n : Nat) : GalleryOnly k s (s.use n) := .of_eq k rfl rfl
theorem galleryOnly_modArr (k : Nat) (s : State) (i : Nat) (f : ArrayState → ArrayState) : GalleryOnly k s (s.modArr i f) := .of_eq k rfl rfl

theorem galleryOnly_raise (k : Nat) (s : State) (code source : Nat) (ctx : Option Nat) (detail : Nat) :
    GalleryOnly k s (s.raise code source ctx detail) := by
  obtain ⟨_, _, _, _, _, h⟩ := s.raise_frame code source ctx detail
  rw [h]
  exact .of_eq k rfl rfl

theorem galleryOnly_complete (k : Nat) (s : State) (e : SubEntry) (status result : Nat) : GalleryOnly k s (s.complete e status result) := by
  obtain ⟨_, _, _, _, h⟩ := s.complete_frame e status result
  rw [h]
  exact .of_eq k rfl rfl

/-! ### A new profile (R275, R276) -/

theorem galleryOnly_rewriteBudgets (k : Nat) (s : State) (h a budget n : Nat) : GalleryOnly k s (s.rewriteBudgets h a budget n) := by
  induction n generalizing s with
  | zero => exact .refl k s
  | succ n ih => exact (GalleryOnly.ite (galleryOnly_writeBytes _ _ _ _) (.refl k s)).trans (ih _)

theorem galleryOnly_applyProfile (s : State) (k p : Nat) : GalleryOnly k s (s.applyProfile k p) := by
  unfold State.applyProfile
  dsimp only
  iterate 6 refine (galleryOnly_setRfld k _ _ _ _ _).after ?_
  exact .foldl (fun s x => galleryOnly_rewriteBudgets k s _ _ _ _) _ s

theorem galleryOnly_profileDone (k : Nat) (s : State) (c : Nat) : GalleryOnly k s (s.profileDone c) := by
  unfold State.profileDone
  split
  · exact .refl k s
  · refine .ite (.refl k s) (.trans (.of_eq k rfl rfl) (.foldl (fun s e => galleryOnly_complete k s e _ _) _ _))

theorem galleryOnly_takeProfile (s : State) (k : Nat) : GalleryOnly k s (s.takeProfile k) := by
  have happlied := fun p => (galleryOnly_applyProfile _ k p).after (galleryOnly_setGal s k { s.gal k with newProfile := none })
  -- `applied` is a variable, or the kernel evaluates the registers that the profile writes when it reads the owner.
  suffices h : ∀ applied : Nat → State, (∀ p, GalleryOnly k s (applied p)) →
      GalleryOnly k s (match (s.gal k).newProfile, (s.gal k).flight with
        | some p, none => (match (applied p).owner k with | some c => (applied p).profileDone c | none => applied p)
        | _, _ => s) from h _ happlied
  intro applied happlied
  split
  case h_1 p _ _ =>
    split
    · exact (galleryOnly_profileDone k _ _).after (happlied p)
    · exact happlied p
  case h_2 => exact .refl k s

/-! ### Launches and the end of a flight (R75 to R77) -/

theorem galleryOnly_flightRecord (s : State) (k : Nat) (l : Launch) (status : Nat) (rerun late : Bool) (passes : Nat) :
    GalleryOnly k s (s.flightRecord k l status rerun late passes) :=
  (galleryOnly_send k _ _).after ((galleryOnly_bump k _ _ _).after (galleryOnly_modGal s k _))

theorem galleryOnly_endUnrun (s : State) (k : Nat) (l : Launch) (status : Nat) : GalleryOnly k s (s.endUnrun k l status) :=
  (galleryOnly_modGal s k _).trans (galleryOnly_flightRecord _ k l status _ _ _)

theorem galleryOnly_startNext (s : State) (k fuel : Nat) : GalleryOnly k s (s.startNext k fuel) := by
  induction fuel generalizing s with
  | zero => exact .refl k s
  | succ n ih =>
    rw [State.startNext]
    refine (galleryOnly_takeProfile s k).trans ?_
    generalize s.takeProfile k = s
    split
    case h_1 l rest _ _ =>
      have hrest := galleryOnly_setGal s k { s.gal k with queue := rest }
      have hended := fun status => hrest.trans ((galleryOnly_endUnrun _ k l status).trans (ih _))
      have hback := hrest.trans (galleryOnly_setGal _ k (s.gal k))
      exact .ite (hended _) (.ite hback (.ite (hended _) (.ite hback (.ite (hrest.trans (galleryOnly_setGal _ k _)) hback))))
    case h_2 => exact .refl k s

theorem galleryOnly_releaseOutbound (s : State) (k : Nat) : GalleryOnly k s (s.releaseOutbound k) := .of_eq k rfl rfl

theorem galleryOnly_endFlight (s : State) (k status : Nat) : GalleryOnly k s (s.endFlight k status) := by
  unfold State.endFlight
  dsimp only
  split
  · exact .refl k s
  · exact (galleryOnly_startNext _ k _).after ((galleryOnly_flightRecord _ k _ _ _ _ _).after
      ((galleryOnly_releaseOutbound _ k).after (galleryOnly_setGal s k _)))

/-! ### The suspect state (R126, R127) -/

theorem galleryOnly_dropOutbound (s : State) (k : Nat) : GalleryOnly k s (s.dropOutbound k) := .of_eq k rfl rfl

theorem galleryOnly_refuseQueued (s : State) (k : Nat) : GalleryOnly k s (s.refuseQueued k) :=
  (galleryOnly_setGal s k _).trans (.foldl (fun s l => galleryOnly_flightRecord s k l _ _ _ _) _ _)

theorem galleryOnly_becomeSuspect (s : State) (k cause : Nat) : GalleryOnly k s (s.becomeSuspect k cause) := by
  unfold State.becomeSuspect
  dsimp only
  refine .ite (.refl k s) ?_
  generalize hs : State.raiseGal _ k evGallerySuspect = t
  have hraised : GalleryOnly k s t := by
    rw [← hs]
    exact (galleryOnly_raise k _ _ _ _ _).after (galleryOnly_setGal s k _)
  split
  · exact .ite ((galleryOnly_refuseQueued _ k).after hraised)
      ((galleryOnly_refuseQueued _ k).after ((galleryOnly_endFlight _ k _).after ((galleryOnly_dropOutbound _ k).after hraised)))
  · exact (galleryOnly_refuseQueued _ k).after ((galleryOnly_startNext _ k _).after hraised)

/-! ### Commits of the survey (R193 to R198, R202, R203) -/

theorem galleryOnly_refuse (s : State) (k a b kind reason : Nat) : GalleryOnly k s (s.refuse k a b kind reason) := by
  unfold State.refuse
  have hcount := (galleryOnly_bump k s (galReg k 0x94) 1).trans (galleryOnly_modGal _ k fun g =>
    { g with survey := { g.survey with rejectRun := min 3 (((s.bump (galReg k 0x94) 1).gal k).survey.rejectRun + 1) } })
  exact .ite (hcount.trans ((galleryOnly_raise k _ _ _ _ _).trans (galleryOnly_becomeSuspect _ k _))) hcount

theorem galleryOnly_accept (s : State) (k a : Nat) (c : CoefSet) : GalleryOnly k s (s.accept k a c) :=
  (((galleryOnly_writeBytes k s _ _).trans (galleryOnly_modGal _ k _)).trans (galleryOnly_bump k _ _ _)).trans (galleryOnly_modGal _ k _)

theorem galleryOnly_becomeDue (s : State) (k a cause : Nat) : GalleryOnly k s (s.becomeDue k a cause) :=
  .ite (.refl k s) (.trans (.of_eq k rfl rfl) (galleryOnly_raise k _ _ _ _ _))

theorem galleryOnly_updateDrift (s : State) (k a : Nat) (cols : List Nat) : GalleryOnly k s (s.updateDrift k a cols) := by
  unfold State.updateDrift
  dsimp only
  have hrecorded := fun f => (galleryOnly_use k _ 1).after (galleryOnly_modArr k s (arrKey k a) f)
  exact .ite ((galleryOnly_becomeDue _ k a 0).after (hrecorded _)) (hrecorded _)

theorem galleryOnly_gainCommit (s : State) (k a b : Nat) : GalleryOnly k s (s.gainCommit k a b) := by
  unfold State.gainCommit
  dsimp only
  have huse := galleryOnly_use k s 16
  refine .ite ((galleryOnly_bump k _ _ _).after huse) ?_
  split
  · exact (galleryOnly_refuse _ k a b 0 _).after huse
  · have hwritten := fun c f cols => (galleryOnly_updateDrift _ k a cols).after
      ((galleryOnly_modArr k _ (arrKey k a) f).after ((galleryOnly_accept _ k a c).after huse))
    exact .ite ((galleryOnly_modGal _ k _).after (hwritten _ _ _)) (hwritten _ _ _)

theorem galleryOnly_moveFocus (s : State) (k : Nat) : GalleryOnly k s (s.moveFocus k) := galleryOnly_modGal s k _

theorem galleryOnly_finishEstimate (s : State) (k : Nat) : GalleryOnly k s (s.finishEstimate k) := by
  unfold State.finishEstimate
  exact .ite ((galleryOnly_moveFocus _ k).after (galleryOnly_gainCommit s k _ _)) (.refl k s)

theorem galleryOnly_sample (s : State) (k : Nat) (e : EvalRun) (p : Pass) : GalleryOnly k s (s.sample k e p) := by
  unfold State.sample
  dsimp only
  split
  · exact .refl k s
  · exact galleryOnly_modGal s k _

end Sys2Proof.Machine
end

section
/-! SUPPORT. The passes of a gallery's EVALs: which pass is meant, what changes with it, when a window opens, what a pass counts (R52 to
R61, R67). -/

namespace Sys2Proof.Machine

/-! ### The pass that opens or converts next -/

theorem mem_of_findPass {es : List EvalRun} {test : Pass → Bool} {e : EvalRun} {i : Nat}
    (h : es.findSome? (fun e => (e.passes.findIdx? test).map (fun i => (e, i))) = some (e, i)) : e ∈ es := by
  obtain ⟨x, hx, hfind⟩ := List.exists_of_findSome?_eq_some h
  obtain ⟨j, -, hj⟩ := Option.map_eq_some_iff.1 hfind
  exact (Prod.mk.inj hj).1 ▸ hx

theorem nextPass_mem {es : List EvalRun} {e : EvalRun} {i : Nat} (h : nextPass es = some (e, i)) : e ∈ es := mem_of_findPass h

theorem convertingPass_mem {es : List EvalRun} {e : EvalRun} {i : Nat} (h : convertingPass es = some (e, i)) : e ∈ es :=
  mem_of_findPass h

theorem mem_modEval {g : Gallery} {e : EvalRun} (h : e ∈ g.evals) (fn : EvalRun → EvalRun) : fn e ∈ (modEval g e.id fn).evals :=
  List.mem_map.2 ⟨e, h, if_pos rfl⟩

theorem modPass_getElem {e : EvalRun} {i : Nat} {p : Pass} (h : e.passes[i]? = some p) (fn : Pass → Pass) :
    (modPass e i fn).passes[i]? = some (fn p) := by
  simp only [modPass, List.getElem?_map, List.getElem?_zipIdx, Nat.zero_add, h, Option.map_some, if_true]

/-! ### The instant a window opens (R56 to R61) -/

theorem le_foldl_nat {β : Type} {f : Nat → β → Nat} (hf : ∀ t x, t ≤ f t x) (xs : List β) (t : Nat) : t ≤ xs.foldl f t := by
  induction xs generalizing t with
  | nil => exact Nat.le_refl t
  | cons x xs ih => exact Nat.le_trans (hf t x) (ih _)

theorem le_foldl_nat_of_mem {β : Type} {f : Nat → β → Nat} (hf : ∀ t x, t ≤ f t x) {xs : List β} {x : β} (hx : x ∈ xs) {b : Nat}
    (hb : ∀ t, b ≤ f t x) (t : Nat) : b ≤ xs.foldl f t := by
  induction xs generalizing t with
  | nil => cases hx
  | cons y ys ih =>
    rcases List.mem_cons.1 hx with rfl | hys
    · exact Nat.le_trans (hb t) (le_foldl_nat hf ys _)
    · exact ih hys _

theorem le_hallEdge (t : Nat) : t ≤ hallEdge t := by
  simp only [hallEdge, cdiv, if_neg (by decide : ¬ 8 = 0)]; omega

theorem hallEdge_mod (t : Nat) : hallEdge t % hallCycles 1 = 0 := by
  simp only [hallEdge, hallCycles]; omega

/-- A run starts no sooner than the pass is available. -/
theorem le_runStart (g : Gallery) (mask avail : Nat) : avail ≤ runStart g mask avail :=
  Nat.le_trans (le_foldl_nat (fun _ _ => by omega) _ _) (le_hallEdge _)

/-- A run starts once every window before has closed and every sweep over an array of its mask has taken its last slot. -/
theorem sweep_le_runStart {g : Gallery} {w : Sweep} (hw : w ∈ g.sweeps) (mask avail : Nat) :
    w.closeAt ≤ runStart g mask avail ∧ (w.mask &&& mask ≠ 0 → w.lastSlot ≤ runStart g mask avail) := by
  have hbound : ∀ {b}, (∀ t, b ≤ max (max t w.closeAt) (if w.mask &&& mask = 0 then 0 else w.lastSlot)) → b ≤ runStart g mask avail :=
    fun hb => Nat.le_trans (le_foldl_nat_of_mem (fun _ _ => by omega) hw hb _) (le_hallEdge _)
  refine ⟨hbound fun t => by omega, fun hm => hbound fun t => ?_⟩
  rw [if_neg hm]
  exact Nat.le_max_right _ _

/-- R57, R58, R61: a pass opens no sooner than it is available, and either continues the run of the last sweep or begins one. -/
theorem openTimes_cases {g : Gallery} {mask : Nat} {tr : Bool} {era avail o st : Nat} (h : openTimes g mask tr era avail = (o, st)) :
    avail ≤ o ∧
    ((st = o + ns 12 ∧ ∃ w, g.sweeps.getLast? = some w ∧ w.endAt = st ∧ w.mask = mask ∧ w.transpose = tr) ∨
      (st = o + ns 16 ∧ o % hallCycles 1 = 0 ∧ ∀ w, w ∈ g.sweeps → w.closeAt ≤ o ∧ (w.mask &&& mask ≠ 0 → w.lastSlot ≤ o))) := by
  unfold openTimes at h
  dsimp only at h
  split at h
  case h_1 t ht =>
    obtain ⟨rfl, rfl⟩ := Prod.mk.inj h
    split at ht
    case h_2 => cases ht
    case h_1 w hw =>
      split at ht
      case isFalse => cases ht
      case isTrue hc =>
        simp only [Bool.and_eq_true, decide_eq_true_eq] at hc
        obtain ⟨⟨⟨-, hmask⟩, htr⟩, hav⟩ := hc
        obtain rfl := Option.some.inj ht
        exact ⟨by omega, .inl ⟨by omega, w, hw, rfl, hmask, htr⟩⟩
  case h_2 =>
    obtain ⟨rfl, rfl⟩ := Prod.mk.inj h
    exact ⟨le_runStart g mask avail, .inr ⟨rfl, hallEdge_mod _, fun w hw => sweep_le_runStart hw mask avail⟩⟩

/-! ### What a pass counts (R67) -/

theorem galReg_inj {k a b : Nat} : galReg k a = galReg k b ↔ a = b := by unfold galReg; omega

theorem State.reg_bump (s : State) (o n x : Nat) : (s.bump o n).reg x = s.reg x + if x = o then BitVec.ofNat 32 n else 0#32 := by
  rw [State.bump_eq]
  split
  case isTrue h => subst h; exact State.reg_setReg _ _ _
  case isFalse h => rw [State.reg_setReg_other _ _ h, BitVec.add_zero]

theorem State.reg_bump_if (c : Prop) [Decidable c] (s : State) (o x : Nat) :
    (if c then s.bump o 1 else s).reg x = s.reg x + if c ∧ x = o then 1#32 else 0#32 := by
  by_cases hc : c
  · rw [if_pos hc, State.reg_bump]; simp only [hc, true_and]
  · rw [if_neg hc, if_neg (fun h => hc h.1), BitVec.add_zero]

/-- R67: every register after a pass is counted. -/
theorem State.reg_countPass (s : State) (k : Nat) (e : EvalRun) (p : Pass) (x : Nat) :
    (s.countPass k e p).reg x = s.reg x +
      (if (p.carry = false ∧ e.transpose = false) ∧ x = galReg k 0x48 then 1#32 else 0#32) +
      (if p.carry = true ∧ x = galReg k 0x4C then 1#32 else 0#32) +
      (if p.cls = .low ∧ x = galReg k 0x50 then 1#32 else 0#32) +
      (if e.transpose = true ∧ x = galReg k 0x54 then 1#32 else 0#32) := by
  unfold State.countPass
  dsimp only
  rw [State.reg_bump_if, State.reg_bump_if]
  congr 2
  cases p.carry
  · cases e.transpose <;> simp only [State.reg_bump, Bool.false_eq_true, Bool.true_eq_false, if_true, if_false, and_self, and_false,
      true_and, false_and, BitVec.add_zero]
  · simp only [State.reg_bump, Bool.true_eq_false, if_true, if_false, true_and, false_and, BitVec.add_zero]

/-- Only BAR0 registers differ. -/
def RegistersOnly (s t : State) : Prop := ∃ b, t = { s with bar0 := b }

theorem RegistersOnly.refl (s : State) : RegistersOnly s s := ⟨_, rfl⟩

theorem RegistersOnly.bump {s t : State} (h : RegistersOnly s t) (o n : Nat) : RegistersOnly s (t.bump o n) := by
  obtain ⟨b, rfl⟩ := h
  exact ⟨_, rfl⟩

theorem RegistersOnly.ite {s t u : State} {c : Prop} [Decidable c] (ht : RegistersOnly s t) (hu : RegistersOnly s u) :
    RegistersOnly s (if c then t else u) := by
  split
  · exact ht
  · exact hu

theorem State.countPass_frame (s : State) (k : Nat) (e : EvalRun) (p : Pass) : RegistersOnly s (s.countPass k e p) := by
  have hkind : RegistersOnly s (if p.carry then s.bump (galReg k 0x4C) 1 else if e.transpose then s else s.bump (galReg k 0x48) 1) :=
    .ite (.bump (.refl s) _ _) (.ite (.refl s) (.bump (.refl s) _ _))
  have hlow := fun (t : State) (h : RegistersOnly s t) =>
    RegistersOnly.ite (c := p.cls = .low) (h.bump (galReg k 0x50) 1) h
  exact .ite ((hlow _ hkind).bump _ _) (hlow _ hkind)

end Sys2Proof.Machine
end

section
/-! PROOFS. Passes open and convert: O8. -/

namespace Sys2Proof.Machine

open Sys2Proof.Claims (PassOpens PassCodes)

/-! ### A pass opens (R57 to R61, R64, R67) -/

/-- The EVAL after its pass `i` opens at `o` with codes due at `due`. -/
def EvalRun.opened (i o due : Nat) (coefs : List (Nat × List Byte)) (e : EvalRun) : EvalRun :=
  { modPass e i (fun p => { p with opened := some o, readyAt := due }) with coefs := coefs }

theorem EvalRun.opened_getElem {e : EvalRun} {i : Nat} {p : Pass} (h : e.passes[i]? = some p) (o due : Nat) (coefs : List (Nat × List Byte)) :
    (e.opened i o due coefs).passes[i]? = some { p with opened := some o, readyAt := due } :=
  modPass_getElem h fun p => { p with opened := some o, readyAt := due }

/-- The gallery after pass `i` of the EVAL `e` opens at `o` with the sweep `sw`. -/
def Gallery.opened (g : Gallery) (e : EvalRun) (i o : Nat) (coefs : List (Nat × List Byte)) (sw : Sweep) : Gallery :=
  { modEval g e.id (EvalRun.opened i o sw.endAt coefs) with
    sweeps := (g.sweeps.filter (fun w => decide (o ≤ w.endAt))) ++ [sw],
    flight := g.flight.map (fun f => { f with passes := f.passes + 1 }) }

theorem exec_passWindowOpen (s : State) (h g : Nat) : exec (.passWindowOpen h g) s = next (passOpen (galKey h g) s) := rfl

theorem sweepOf_endAt (mask : Nat) (tr : Bool) (era closeAt start : Nat) :
    (sweepOf mask tr era closeAt start).endAt = start + if tr then ns 192 else ns 52 := by
  cases tr <;> rfl

theorem State.endAt_le_of_bgUntil_le {s : State} {k o : Nat} (h : s.bgUntil k ≤ o) {b : BgUnit} (hb : (s.gal k).bg = some b) : b.endAt ≤ o := by
  rw [State.bgUntil, hb] at h
  exact h

/-- One register and one gallery change, and nothing else. -/
theorem setReg_setGal_changes (s : State) (o : Nat) (v : Word) (k : Nat) (g : Gallery) {t : State} (ht : t = (s.setReg o v).setGal k g) :
    t.reg o = v ∧ OtherRegisters [o] s t ∧ OtherGalleries k s t ∧ t.gal k = g ∧ t = { s with galleries := t.galleries, bar0 := t.bar0 } := by
  subst ht
  refine ⟨?_, fun x hx => ?_, fun j hj => ?_, State.gal_setGal _ _ _, rfl⟩
  · rw [State.reg_setGal, State.reg_setReg]
  · rw [State.reg_setGal, State.reg_setReg_other _ _ (fun h => hx (List.mem_singleton.2 h))]
  · rw [State.gal_setGal_other _ _ hj, State.gal_setReg]

/-- R59: a pass that finds the buffer off turns it on and does not open. -/
theorem passOpen_off {s : State} {k i : Nat} {e : EvalRun} (hn : nextPass (s.gal k).evals = some (e, i)) (hr : (s.gal k).refOn = none) :
    passOpen k s = (s.setReg (galReg k 0x44) (setFld (s.reg (galReg k 0x44)) 10 10 1)).setGal k
      { s.gal k with refOn := some s.now, flight := (s.gal k).flight.map (fun f => { f with lateArm := true }) } := by
  simp only [passOpen, hn, hr, State.modGal_eq, State.setRbit_eq, State.gal_setReg, b2n, if_true]

/-- A pass opens at the instant that `openTimes` gives it, available no sooner than its buffer is warm, its arrays are free and the background
unit has ended (R59, R61, R66, R95). -/
theorem passOpen_warm {s : State} {k i u : Nat} {e : EvalRun} {p : Pass} (hn : nextPass (s.gal k).evals = some (e, i))
    (hp : e.passes[i]? = some p) (hr : (s.gal k).refOn = some u) :
    ∃ era avail o st coefs, (s.now ≤ avail ∧ u + us 2 ≤ avail ∧ s.heldUntil k e.mask ≤ avail ∧ s.bgUntil k ≤ avail) ∧
      openTimes (s.gal k) e.mask e.transpose era avail = (o, st) ∧
      passOpen k s = ((s.at o).setGal k
        ((s.gal k).opened e i o coefs (sweepOf e.mask e.transpose era (o + ns 12) st))).countPass k e p := by
  have hd : e.passes.getD i noPass = p := by rw [List.getD_eq_getElem?_getD, hp]; rfl
  simp only [passOpen, hn, hr, hd]
  refine ⟨_, _, _, _, _, ⟨?_, ?_, ?_, ?_⟩, rfl, rfl⟩
  all_goals simp only [refWarm]; omega

/-- A pass opened at `o` and counted: the clock, one gallery and the pass counters change, and nothing else. -/
theorem countPass_at_changes (s : State) {k o : Nat} (ho : s.now ≤ o) (g : Gallery) (e : EvalRun) (p : Pass) {t : State}
    (ht : t = ((s.at o).setGal k g).countPass k e p) :
    t.now = o ∧ t.gal k = g ∧ OtherGalleries k s t ∧ t = { s with now := t.now, galleries := t.galleries, bar0 := t.bar0 } := by
  obtain ⟨b, hb⟩ := ((s.at o).setGal k g).countPass_frame k e p
  have hg : ∀ j, t.gal j = ((s.at o).setGal k g).gal j := fun j => by rw [ht, hb]; rfl
  refine ⟨?_, (hg k).trans (State.gal_setGal _ _ _), fun j hj => (hg j).trans (State.gal_setGal_other _ _ hj), ?_⟩
  · rw [ht, hb]; exact Nat.max_eq_right ho
  · rw [ht, hb]; rfl

/-- R67: the pass counters after a pass is counted. -/
theorem countPass_counters (s : State) (k : Nat) (e : EvalRun) (p : Pass) {t : State} (ht : t = s.countPass k e p) :
    t.reg (galReg k 0x48) = s.reg (galReg k 0x48) + (if p.carry = false ∧ e.transpose = false then 1#32 else 0#32) ∧
    t.reg (galReg k 0x4C) = s.reg (galReg k 0x4C) + (if p.carry = true then 1#32 else 0#32) ∧
    t.reg (galReg k 0x50) = s.reg (galReg k 0x50) + (if p.cls = .low then 1#32 else 0#32) ∧
    t.reg (galReg k 0x54) = s.reg (galReg k 0x54) + (if e.transpose = true then 1#32 else 0#32) ∧
    OtherRegisters [galReg k 0x48, galReg k 0x4C, galReg k 0x50, galReg k 0x54] s t := by
  subst ht
  refine ⟨?_, ?_, ?_, ?_, fun x hx => ?_⟩
  case refine_5 =>
    simp only [List.mem_cons, List.not_mem_nil, or_false, not_or] at hx
    obtain ⟨h1, h2, h3, h4⟩ := hx
    simp only [State.reg_countPass, h1, h2, h3, h4, and_false, if_false, BitVec.add_zero]
  all_goals simp only [State.reg_countPass, galReg_inj, Nat.reduceEqDiff, and_true, and_false, if_false, BitVec.add_zero]

theorem passOpens : PassOpens := by
  intro s h g i e p
  dsimp only
  generalize hk : galKey h g = k
  intro hn hp
  have hexec : exec (.passWindowOpen h g) s = next (passOpen k s) := hk ▸ exec_passWindowOpen s h g
  refine ⟨fun hr => ⟨_, hexec, setReg_setGal_changes s _ _ _ _ (passOpen_off hn hr)⟩, fun u hr => ⟨_, hexec, ?_⟩⟩
  obtain ⟨era, avail, o, st, coefs, ⟨hnow, hwarm, hheld, hbg⟩, hopen, heq⟩ := passOpen_warm hn hp hr
  obtain ⟨havail, htimes⟩ := openTimes_cases hopen
  obtain ⟨htnow, hgal, hother, hframe⟩ := countPass_at_changes s (Nat.le_trans hnow havail) _ e p heq
  obtain ⟨hmain, hcarry, hlow, htr, hregs⟩ := countPass_counters _ k e p heq
  have hreg : ∀ (x : Nat) (g : Gallery), ((s.at o).setGal k g).reg x = s.reg x := fun x g => State.reg_setGal _ _ _ _
  simp only [hreg] at hmain hcarry hlow htr
  refine ⟨o, st, e.opened i o (st + if e.transpose then ns 192 else ns 52) coefs, Nat.le_trans hnow havail, Nat.le_trans hwarm havail,
    Nat.le_trans hheld havail, fun b hb => State.endAt_le_of_bgUntil_le (Nat.le_trans hbg havail) hb, htimes, htnow, ?_, rfl,
    EvalRun.opened_getElem hp _ _ _, by rw [hgal]; rfl, hmain, hcarry, hlow, htr, fun x hx => (hregs x hx).trans (hreg x _), hother, hframe⟩
  rw [hgal, ← sweepOf_endAt]
  exact mem_modEval (nextPass_mem hn) _

/-! ### A pass converts (R54, R56, R60, R64, R193) -/

theorem clampI_bounds {lo hi : Int} (h : lo ≤ hi) (x : Int) : lo ≤ clampI lo hi x ∧ clampI lo hi x ≤ hi := by
  unfold clampI
  split
  · exact ⟨Int.le_refl _, h⟩
  · split <;> omega

theorem codeOf_bounds (num : Int) (den f k : Nat) : -128 ≤ codeOf num den f k ∧ codeOf num den f k ≤ 127 := clampI_bounds (by decide) _

theorem length_tabulate {α : Type} (n : Nat) (f : Nat → α) : (tabulate n f).length = n := by
  simp only [tabulate, List.length_map, List.length_range]

theorem mem_tabulate {α : Type} {n : Nat} {f : Nat → α} {x : α} (h : x ∈ tabulate n f) : ∃ i, f i = x := by
  obtain ⟨i, -, hi⟩ := List.mem_map.1 h
  exact ⟨i, hi⟩

/-- R54: a converter gives signed 8-bit codes. -/
theorem codes_length_and_bounds (n : Nat) (num : Nat → Int) (den f k : Nat) :
    (tabulate n (fun j => codeOf (num j) den f (k + j))).length = n ∧
    ∀ c, c ∈ tabulate n (fun j => codeOf (num j) den f (k + j)) → -128 ≤ c ∧ c ≤ 127 := by
  refine ⟨length_tabulate n _, fun c hc => ?_⟩
  obtain ⟨j, rfl⟩ := mem_tabulate hc
  exact codeOf_bounds _ _ _ _

/-- R54, R56, R64: a pass has the codes of every array of its mask, a code for each column or row. -/
theorem State.passResult_codes (s : State) (k : Nat) (e : EvalRun) (p : Pass) :
    (s.passResult k e p).1.map Prod.fst = maskArrays e.mask ∧
    ∀ x, x ∈ (s.passResult k e p).1 → x.2.length = (if e.transpose then 1024 else 1104) ∧ ∀ c, c ∈ x.2 → -128 ≤ c ∧ c ≤ 127 := by
  refine ⟨?_, fun x hx => ?_⟩
  · simp only [State.passResult, List.map_map]
    exact List.zipIdx_map_fst 0 _
  · obtain ⟨y, -, rfl⟩ := List.mem_map.1 hx
    by_cases ht : e.transpose = true
    · simp only [if_pos ht]
      exact codes_length_and_bounds 1024 _ _ _ _
    · simp only [if_neg ht]
      exact codes_length_and_bounds 1104 _ _ _ _

/-- The pass with its codes. -/
def State.convertedPass (s : State) (k : Nat) (e : EvalRun) (p : Pass) : Pass :=
  { p with codes := ((s.at p.readyAt).passResult k e p).1, done := true }

/-- The state once pass `i` of the EVAL has converted, before the survey takes its sample. -/
def State.converted (s : State) (k : Nat) (e : EvalRun) (i : Nat) (p : Pass) : State :=
  ((s.at p.readyAt).passResult k e p).2.modGal k (fun g => modEval g e.id (fun x => modPass x i (fun _ => s.convertedPass k e p)))

theorem State.arr_converted (s : State) (k : Nat) (e : EvalRun) (i : Nat) (p : Pass) (a : Nat) : (s.converted k e i p).arr a = s.arr a :=
  congrArg (Tab.get ArrayState.reset · a) (State.setGal_arrays _ k _)

theorem State.gal_passResult (s : State) (k : Nat) (e : EvalRun) (p : Pass) (j : Nat) : (s.passResult k e p).2.gal j = s.gal j :=
  congrArg (Tab.get Gallery.reset · j) (rfl : (s.passResult k e p).2.galleries = s.galleries)

theorem State.gal_converted (s : State) (k : Nat) (e : EvalRun) (i : Nat) (p : Pass) :
    (s.converted k e i p).gal k = modEval (s.gal k) e.id (fun x => modPass x i (fun _ => s.convertedPass k e p)) := by
  rw [State.converted, State.modGal_eq, State.gal_setGal, State.gal_passResult, State.gal_at]

theorem State.otherGalleries_converted (s : State) (k : Nat) (e : EvalRun) (i : Nat) (p : Pass) : OtherGalleries k s (s.converted k e i p) :=
  fun _ hj => (State.gal_setGal_other _ _ hj).trans (State.gal_passResult _ k e p _)

/-- R193: converting a pass does not change whether it is a sample. -/
theorem State.isSample_converted (s : State) (k : Nat) (e : EvalRun) (i : Nat) (p : Pass) :
    (s.converted k e i p).isSample k e (s.convertedPass k e p) = s.isSample k e { p with done := true } := by
  simp only [State.isSample, State.gal_converted, State.arr_converted]
  rfl

/-- R193: the survey takes its sample of the pass as converted. -/
theorem passCodesReady_eq {s : State} {k i : Nat} {e : EvalRun} {p : Pass} (hn : convertingPass (s.gal k).evals = some (e, i))
    (hp : e.passes[i]? = some p) : passCodesReady k s =
      if s.isSample k e { p with done := true } then ((s.converted k e i p).sample k e (s.convertedPass k e p)).finishEstimate k
      else s.converted k e i p := by
  rw [← State.isSample_converted s k e i p]
  simp only [passCodesReady, hn, hp]
  rfl

/-- R193: a sample of an array with a record is noted at its instant. -/
theorem State.sample_lastSample {s : State} {k : Nat} (hr : (s.arr (arrKey k (s.gal k).survey.focusArray)).record.isSome = true)
    (e : EvalRun) (p : Pass) : ((s.sample k e p).gal k).survey.lastSample = s.now := by
  obtain ⟨rec, hrec⟩ := Option.isSome_iff_exists.1 hr
  simp only [State.sample, hrec, State.modGal_eq, State.gal_setGal]

theorem State.moveFocus_lastSample (s : State) (k : Nat) : ((s.moveFocus k).gal k).survey.lastSample = s.now := by
  simp only [State.moveFocus, State.modGal_eq, State.gal_setGal]

/-- R194: the focus moves at the instant of the sample that completes an estimate. -/
theorem State.finishEstimate_lastSample {s : State} {k : Nat} (h : (s.gal k).survey.lastSample = s.now) :
    ((s.finishEstimate k).gal k).survey.lastSample = s.now := by
  unfold State.finishEstimate
  dsimp only
  split
  · exact (State.moveFocus_lastSample _ k).trans (galleryOnly_gainCommit s k _ _).1
  · exact h

theorem exec_passCodesReady (s : State) (h g : Nat) : exec (.passCodesReady h g) s = next (passCodesReady (galKey h g) s) := rfl

theorem passCodes_ready : PassCodes := by
  intro s h g i e p
  dsimp only
  generalize hk : galKey h g = k
  intro hn hp
  have hexec : exec (.passCodesReady h g) s = next (passCodesReady k s) := hk ▸ exec_passCodesReady s h g
  rw [passCodesReady_eq hn hp] at hexec
  refine ⟨fun hs hr => ?_, fun hs => ?_⟩
  · rw [if_pos hs] at hexec
    have hsample := galleryOnly_sample (s.converted k e i p) k e (s.convertedPass k e p)
    have hfinish := hsample.trans (galleryOnly_finishEstimate _ k)
    have hlast := State.sample_lastSample (s := s.converted k e i p) (k := k)
      (by rw [State.gal_converted, State.arr_converted]; exact hr) e (s.convertedPass k e p)
    refine ⟨_, hexec, hfinish.1, ?_, fun j hj => (hfinish.2 j hj).trans (s.otherGalleries_converted k e i p j hj)⟩
    rw [State.finishEstimate_lastSample (hlast.trans hsample.1.symm)]
    exact (galleryOnly_finishEstimate _ k).1.symm
  · rw [if_neg (by rw [hs]; decide)] at hexec
    obtain ⟨harrays, hcodes⟩ := (s.at p.readyAt).passResult_codes k e p
    refine ⟨_, hexec, modPass e i (fun _ => s.convertedPass k e p), s.convertedPass k e p, ?_, rfl, modPass_getElem hp _, rfl, harrays, hcodes,
      rfl, s.otherGalleries_converted k e i p, rfl⟩
    rw [State.gal_converted]
    exact mem_modEval (convertingPass_mem hn) fun x => modPass x i (fun _ => s.convertedPass k e p)

/-- Settles O8: a pass opens and is counted, and at the end of its sweep it has its codes. -/
theorem passesConvert : Obligations.PassesConvert := ⟨passOpens, passCodes_ready⟩

end Sys2Proof.Machine
end
